-- ==== Sys2Proof/Word.lean ====
section
/-! DEFINITION. The word types of the machine and their plainest readings (spec 00 R5, R6, R8). -/

namespace Sys2Proof

/-- A 64-bit register, address or state word (01 R21). -/
abbrev Word := BitVec 64

/-- One byte of memory (00 R6). -/
abbrev Byte := BitVec 8

/-- A vector register, 512 bits (01 R21). -/
abbrev Vec := BitVec 512

/-- An element width of the vector slot (05 R149, field ew). -/
inductive Ew where
  | e8 | e16 | e32 | e64
  deriving DecidableEq, Repr

/-- Bits of one lane (05 R149). -/
def Ew.bits : Ew → Nat
  | .e8 => 8 | .e16 => 16 | .e32 => 32 | .e64 => 64

/-- Bytes of one lane. -/
def Ew.bytes : Ew → Nat
  | .e8 => 1 | .e16 => 2 | .e32 => 4 | .e64 => 8

/-- Lanes of a 512-bit register at this width (08 R231). -/
def Ew.lanes : Ew → Nat
  | .e8 => 64 | .e16 => 32 | .e32 => 16 | .e64 => 8

/-- Bits [lo+len-1 : lo] of a number (00 R8, function bits). -/
def fld (w lo len : Nat) : Nat := w / 2 ^ lo % 2 ^ len

/-- Sign extension of the low n bits of x to a 64-bit word (00 R8, function sext). -/
def sextNat (x n : Nat) : Word :=
  if x % 2 ^ n < 2 ^ (n - 1) then BitVec.ofNat 64 (x % 2 ^ n)
  else BitVec.ofNat 64 (x % 2 ^ n + (2 ^ 64 - 2 ^ n))

end Sys2Proof
end

