-- ==== Sys2Proof/Syntax.lean ====
section
/-! DEFINITION. The operand types and the one inductive of instructions: one constructor for every row of
spec/opcode_table.json. The first rows are the A syllables, then the B syllables (05 R152-R163), then the
part's own steps and commands, which have no encoding (95). -/

namespace Sys2Proof

/-- A register number g0-g31 or v0-v31 (05 R147, R149). -/
abbrev R5 := BitVec 5

/-- A mask register number k0-k7 (05 R149). -/
abbrev K3 := BitVec 3

/-- A queue register number; 11-15 are reserved (01 R25). -/
abbrev Q4 := BitVec 4

/-- A tile window number w0-w15 (05 R155). -/
abbrev W4 := BitVec 4

/-- An immediate or offset: the n-bit field of the syllable, or the 32-bit literal of a literal bundle
(05 R143, R148). -/
inductive Imm (n : Nat) where
  | fld (x : BitVec n)
  | lit (x : BitVec 32)
  deriving DecidableEq, Repr

/-- The request type of a plain access (02 R55). -/
inductive Rq where
  | own | wt | si | nc
  deriving DecidableEq, Repr

/-- The scope of a fence or annotation (03 R97; codes 05 R157). -/
inductive Scope where
  | core | clu | die | pkg | sys
  deriving DecidableEq, Repr

/-- The operations of AMO (05 R156). -/
inductive AmoOp where
  | add | and | or | xor | min | max | minu | maxu | swap
  deriving DecidableEq, Repr

/-- The tile classes (02 R71; codes 05 R155). -/
inductive TileClass where
  | k4 | k64 | m1
  deriving DecidableEq, Repr

/-- A floating-point element width of the vector slot (08 R238). -/
inductive Fw where
  | f32 | f64
  deriving DecidableEq, Repr

/-- The number formats of 05 R151. -/
inductive Fmt where
  | int8 | int16 | int32 | int64 | uint8 | uint16 | uint32 | uint64
  | fp16 | bf16 | fp32 | fp64 | c8 | c4 | x19
  deriving DecidableEq, Repr

/-- The rounding modes of 04 R124; code 0b110 is reserved and has no constructor. -/
inductive Rm where
  | rne | rtz | rdn | rup | rna | sr | dyn
  deriving DecidableEq, Repr

/-- The kinds of VRED and VSCAN (05 R162). -/
inductive RedKind where
  | add | min | max | minu | maxu | and | or | xor | fadd | fmax | fmin
  deriving DecidableEq, Repr

/-- A first vector source: a v register, or with QA = 1 a network queue (01 R29, 05 R150). -/
inductive VSrc where
  | reg (r : R5)
  | que (q : Q4)
  deriving DecidableEq, Repr

/-- A matrix operand source: a network queue or eight v registers (05 R163). -/
inductive MSrc where
  | que (q : Q4)
  | regs (g : BitVec 2)
  deriving DecidableEq, Repr

/-- A sequence-counter file: a crew's or a launch's (02 R91). -/
inductive SqFile where
  | crew (uid : Nat)
  | launch (uid : Nat)
  deriving DecidableEq, Repr

/-- A request to an object's home (02 R60). `copy` says whether the cluster held a copy of the line. -/
inductive ObjReq where
  | loadOwn | loadSi | storeOwn | storeWt | storeNc | atomic
  | update (tag : BitVec 4)
  deriving DecidableEq, Repr

/-- What a debug access names: a g, v (one 64-bit part), k register, a state word, the PC, or an
8-byte word of the core's local memory (18 R469). -/
inductive DebugItem where
  | g (n : R5) | v (n : R5) (part : BitVec 3) | k (n : K3) | word (sel : BitVec 12) | pc
  | lmem (off : BitVec 17) | run | bank (core : BitVec 12) (off : BitVec 17)
  deriving DecidableEq, Repr

/-- A driver command taken from a mailbox (16 R399): the mailbox, the driver's tag, the context and the
twelve parameters. -/
structure CmdRec where
  mbx : Nat
  seq : BitVec 32
  ctx : BitVec 16
  p : Vector (BitVec 64) 12
  deriving DecidableEq, Repr

/-- Every step of the part: one constructor per row of spec/opcode_table.json, named in the comment. -/
inductive Instr where

  | add (d a b : R5) (sat : Bool) -- ADD R177
  | sub (d a b : R5) (sat : Bool) -- SUB R177
  | mul (d a b : R5) (sat : Bool) -- MUL R177
  | mulh (d a b : R5) -- MULH R177
  | mulhu (d a b : R5) -- MULHU R177
  | div (d a b : R5) -- DIV R179
  | divu (d a b : R5) -- DIVU R179
  | rem (d a b : R5) -- REM R179
  | remu (d a b : R5) -- REMU R179
  | and (d a b : R5) -- AND R177
  | or (d a b : R5) -- OR R177
  | xor (d a b : R5) -- XOR R177
  | andn (d a b : R5) -- ANDN R177
  | orn (d a b : R5) -- ORN R177
  | sll (d a b : R5) -- SLL R177
  | srl (d a b : R5) -- SRL R177
  | sra (d a b : R5) -- SRA R177
  | rol (d a b : R5) -- ROL R177
  | ror (d a b : R5) -- ROR R177
  | min (d a b : R5) -- MIN R177
  | max (d a b : R5) -- MAX R177
  | minu (d a b : R5) -- MINU R177
  | maxu (d a b : R5) -- MAXU R177
  | slt (d a b : R5) -- SLT R177
  | sltu (d a b : R5) -- SLTU R177
  | seq (d a b : R5) -- SEQ R177
  | sne (d a b : R5) -- SNE R177
  | clz (d a : R5) -- CLZ R184
  | ctz (d a : R5) -- CTZ R184
  | popc (d a : R5) -- POPC R184
  | brev (d a : R5) -- BREV R184
  | bswap (d a : R5) -- BSWAP R184
  | sel (d a b : R5) -- SEL R184
  | adds (d a b : R5) (sh : BitVec 2) -- ADDS R184
  | addi (d a : R5) (imm : Imm 15) -- ADDI R180
  | andi (d a : R5) (imm : Imm 15) -- ANDI R180
  | ori (d a : R5) (imm : Imm 15) -- ORI R180
  | xori (d a : R5) (imm : Imm 15) -- XORI R180
  | slli (d a : R5) (sh : BitVec 6) -- SLLI R181
  | srli (d a : R5) (sh : BitVec 6) -- SRLI R181
  | srai (d a : R5) (sh : BitVec 6) -- SRAI R181
  | slti (d a : R5) (imm : Imm 15) -- SLTI R180
  | sltui (d a : R5) (imm : Imm 15) -- SLTUI R180
  | lui (d : R5) (imm : BitVec 15) -- LUI R182
  | lit (d : R5) (x : BitVec 32) -- LIT R182
  | lith (d : R5) (x : BitVec 32) -- LITH R182
  | addpc (d : R5) (imm : Imm 15) -- ADDPC R183
  | extr (d a : R5) (lenm1 pos : BitVec 6) -- EXTR R185
  | extru (d a : R5) (lenm1 pos : BitVec 6) -- EXTRU R185
  | insr (d a : R5) (lenm1 pos : BitVec 6) -- INSR R185
  | beq (a b : R5) (off : Imm 15) -- BEQ R186
  | bne (a b : R5) (off : Imm 15) -- BNE R186
  | blt (a b : R5) (off : Imm 15) -- BLT R186
  | bge (a b : R5) (off : Imm 15) -- BGE R186
  | bltu (a b : R5) (off : Imm 15) -- BLTU R186
  | bgeu (a b : R5) (off : Imm 15) -- BGEU R186
  | j (off : Imm 25) -- J R187
  | wcall (off : Imm 25) -- WCALL R189
  | ldb (d base : R5) (rq : Rq) (off : Imm 13) -- LDB R201
  | ldbu (d base : R5) (rq : Rq) (off : Imm 13) -- LDBU R201
  | ldh (d base : R5) (rq : Rq) (off : Imm 13) -- LDH R201
  | ldhu (d base : R5) (rq : Rq) (off : Imm 13) -- LDHU R201
  | ldw (d base : R5) (rq : Rq) (off : Imm 13) -- LDW R201
  | ldwu (d base : R5) (rq : Rq) (off : Imm 13) -- LDWU R201
  | ldd (d base : R5) (rq : Rq) (off : Imm 13) -- LDD R201
  | stb (s base : R5) (rq : Rq) (off : Imm 13) -- STB R201
  | sth (s base : R5) (rq : Rq) (off : Imm 13) -- STH R201
  | stw (s base : R5) (rq : Rq) (off : Imm 13) -- STW R201
  | std (s base : R5) (rq : Rq) (off : Imm 13) -- STD R201
  | vld (v base : R5) (rq : Rq) (off : Imm 6) (k : K3) -- VLD R202
  | vst (v base : R5) (rq : Rq) (off : Imm 6) (k : K3) -- VST R202
  | vlds (v base : R5) (rq : Rq) (t : R5) (k : K3) (e : Bool) -- VLDS R203
  | vsts (v base : R5) (rq : Rq) (t : R5) (k : K3) (e : Bool) -- VSTS R203
  | vgath (v base : R5) (rq : Rq) (vi : R5) (k : K3) (e : Bool) -- VGATH R204
  | vscat (v base : R5) (rq : Rq) (vi : R5) (k : K3) (e : Bool) -- VSCAT R204
  | vldb (v base : R5) (rq : Rq) (ew : Ew) (off : Imm 7) -- VLDB R205
  | vldt (v base : R5) (rq : Rq) (e : Bool) -- VLDT R206
  | pf (base : R5) (rq : Rq) (off : Imm 6) -- PF R207
  | cflush (base : R5) (rq : Rq) (off : Imm 6) -- CFLUSH R208
  | xswap (n base : R5) (rq : Rq) -- XSWAP R209
  | vmap (a b : R5) (w : W4) -- VMAP R78
  | vmapRel (a b : R5) (w : W4) -- VMAP_REL R78
  | vunmap (w : W4) -- VUNMAP R79
  | vdraftNew (d a : R5) (cls : TileClass) (w : W4) -- VDRAFT_NEW R73
  | vdraftJoin (d a : R5) (w : W4) -- VDRAFT_JOIN R73
  | vpub (a : R5) (w : W4) -- VPUB R74
  | vdone (w : W4) -- VDONE R74
  | vlatest (d a : R5) -- VLATEST R79
  | vsub (a : R5) (sq : BitVec 8) -- VSUB R81
  | vunsub (a : R5) (sq : BitVec 8) -- VUNSUB R81
  | vretain (a : R5) (k : BitVec 4) -- VRETAIN R82
  | vdrop (a : R5) -- VDROP R84
  | lrw (d a : R5) (w : Bool) -- LRW R216
  | sch (a b : R5) (w : Bool) -- SCH R217
  | rls (a : R5) -- RLS R217
  | amo (d a b : R5) (w : Bool) (op : AmoOp) -- AMO R218
  | acas (d a b : R5) (w : Bool) -- ACAS R218
  | ured (a b : R5) (tag : BitVec 4) -- URED R222
  | uredv (a v : R5) (k : K3) (tag : BitVec 4) -- UREDV R222
  | odecl (d a : R5) (named lock : Bool) (tag : BitVec 4) -- ODECL R223
  | ofree (a : R5) -- OFREE R224
  | fenceAcq (s : Scope) -- FENCE_ACQ R103
  | fenceLl (s : Scope) -- FENCE_LL R103
  | fenceRel (s : Scope) -- FENCE_REL R103
  | fenceFull (s : Scope) -- FENCE_FULL R103
  | sqwait (a : R5) (ann : Option Scope) (sq : BitVec 8) -- SQWAIT R226
  | sqinc (inc : BitVec 8) (ann : Option Scope) (sq : BitVec 8) -- SQINC R226
  | sqrd (d : R5) (sq : BitVec 8) -- SQRD R226
  | qpush (q : Q4) (a : R5) -- QPUSH R289
  | qpop (d : R5) (q : Q4) -- QPOP R289
  | qstat (d : R5) (q : Q4) -- QSTAT R292
  | qpushc (v : R5) (h : Bool) -- QPUSHC R293
  | msg (a b : R5) -- MSG R294
  | spawn (a b : R5) -- SPAWN R297
  | join (a : R5) -- JOIN R301
  | steal (d a : R5) -- STEAL R300
  | taskw (a : R5) -- TASKW R302
  | texit -- TEXIT R298
  | launch (a : R5) -- LAUNCH R305
  | vtrig (a b : R5) -- VTRIG R304
  | gang (dir : Bool) (nc : BitVec 2) -- GANG R40
  | ungang -- UNGANG R308
  | bar (d a : R5) (ev : Bool) -- BAR R310
  | bara -- BARA R310
  | barw (d : R5) -- BARW R310
  | nret -- NRET R312
  | wait -- WAIT R313
  | yield -- YIELD R314
  | mfs (d : R5) (sel : BitVec 12) -- MFS R194
  | mts (a : R5) (sel : BitVec 12) -- MTS R196
  | ecall -- ECALL R336
  | brk -- BRK R336
  | trmark (a : R5) -- TRMARK R336
  | halt -- HALT R336
  | frdReg (d : R5) (cap : BitVec 2) (kreg : Bool) (n : R5) -- FRD_REG R323
  | frdState (d : R5) (cap : BitVec 2) (sel : BitVec 12) -- FRD_STATE R323
  | fwrReg (cap : BitVec 2) (a : R5) (kreg : Bool) (n : R5) -- FWR_REG R323
  | fwrState (cap : BitVec 2) (a : R5) (sel : BitVec 12) -- FWR_STATE R323
  | frdv (v : R5) (cap : BitVec 2) (n : R5) -- FRDV R324
  | fwrv (cap : BitVec 2) (v n : R5) -- FWRV R324
  | frq (d : R5) (cap : BitVec 2) (item : BitVec 4) -- FRQ R325
  | fresRetry (cap : BitVec 2) -- FRES_RETRY R326
  | fresSkip (cap : BitVec 2) -- FRES_SKIP R326
  | fresRedirect (a : R5) (cap : BitVec 2) -- FRES_REDIRECT R326
  | fkillAbandon (cap : BitVec 2) -- FKILL_ABANDON R327
  | fkillCount (cap : BitVec 2) -- FKILL_COUNT R327
  | capxfer (a : R5) (cap : BitVec 2) -- CAPXFER R328
  | capdrop (cap : BitVec 2) -- CAPDROP R328
  | uexit -- UEXIT R328
  | cxrd (a b : R5) -- CXRD R228
  | cxwr (a b : R5) -- CXWR R228
  | anop -- ANOP R193
  | jl (d : R5) (off : Imm 12) -- JL R187
  | jlr (d a : R5) (off : Imm 12) -- JLR R187
  | wret -- WRET R190
  | repRegister (a : R5) (lenm1 : BitVec 6) -- REP_REGISTER R192
  | repImmediate (count : Imm 10) (lenm1 : BitVec 6) -- REP_IMMEDIATE R192
  | vnop -- VNOP R234
  | kand (kd ka kb : K3) -- KAND R234
  | kor (kd ka kb : K3) -- KOR R234
  | kxor (kd ka kb : K3) -- KXOR R234
  | knot (kd ka : K3) -- KNOT R234
  | kmov (kd ka : K3) -- KMOV R234
  | vadd (vd : R5) (va : VSrc) (vb : R5) (k : K3) (ew : Ew) -- VADD R235
  | vaddSat (vd : R5) (va : VSrc) (vb : R5) (k : K3) (ew : Ew) -- VADD_SAT R235
  | vsubVector (vd : R5) (va : VSrc) (vb : R5) (k : K3) (ew : Ew) -- VSUB_VECTOR R235
  | vsubSat (vd : R5) (va : VSrc) (vb : R5) (k : K3) (ew : Ew) -- VSUB_SAT R235
  | vmul (vd : R5) (va : VSrc) (vb : R5) (k : K3) (ew : Ew) -- VMUL R235
  | vmulh (vd : R5) (va : VSrc) (vb : R5) (k : K3) (ew : Ew) -- VMULH R235
  | vand (vd : R5) (va : VSrc) (vb : R5) (k : K3) (ew : Ew) -- VAND R235
  | vor (vd : R5) (va : VSrc) (vb : R5) (k : K3) (ew : Ew) -- VOR R235
  | vxor (vd : R5) (va : VSrc) (vb : R5) (k : K3) (ew : Ew) -- VXOR R235
  | vandn (vd : R5) (va : VSrc) (vb : R5) (k : K3) (ew : Ew) -- VANDN R235
  | vsll (vd : R5) (va : VSrc) (vb : R5) (k : K3) (ew : Ew) -- VSLL R235
  | vsrl (vd : R5) (va : VSrc) (vb : R5) (k : K3) (ew : Ew) -- VSRL R235
  | vsra (vd : R5) (va : VSrc) (vb : R5) (k : K3) (ew : Ew) -- VSRA R235
  | vmin (vd : R5) (va : VSrc) (vb : R5) (k : K3) (ew : Ew) -- VMIN R235
  | vmax (vd : R5) (va : VSrc) (vb : R5) (k : K3) (ew : Ew) -- VMAX R235
  | vminu (vd : R5) (va : VSrc) (vb : R5) (k : K3) (ew : Ew) -- VMINU R235
  | vmaxu (vd : R5) (va : VSrc) (vb : R5) (k : K3) (ew : Ew) -- VMAXU R235
  | vabs (vd : R5) (va : VSrc) (k : K3) (ew : Ew) -- VABS R235
  | vpopc (vd : R5) (va : VSrc) (k : K3) (ew : Ew) -- VPOPC R235
  | vsel (vd : R5) (va : VSrc) (vb : R5) (k : K3) (ew : Ew) -- VSEL R236
  | vcmpEq (kd : K3) (va : VSrc) (vb : R5) (k : K3) (ew : Ew) -- VCMP_EQ R236
  | vcmpNe (kd : K3) (va : VSrc) (vb : R5) (k : K3) (ew : Ew) -- VCMP_NE R236
  | vcmpLt (kd : K3) (va : VSrc) (vb : R5) (k : K3) (ew : Ew) -- VCMP_LT R236
  | vcmpLe (kd : K3) (va : VSrc) (vb : R5) (k : K3) (ew : Ew) -- VCMP_LE R236
  | vcmpLtu (kd : K3) (va : VSrc) (vb : R5) (k : K3) (ew : Ew) -- VCMP_LTU R236
  | vcmpLeu (kd : K3) (va : VSrc) (vb : R5) (k : K3) (ew : Ew) -- VCMP_LEU R236
  | vmadd (vd va vb vc : R5) (k : K3) (ew : Ew) -- VMADD R237
  | vfadd (vd : R5) (va : VSrc) (vb : R5) (k : K3) (w : Fw) -- VFADD R240
  | vfsub (vd : R5) (va : VSrc) (vb : R5) (k : K3) (w : Fw) -- VFSUB R240
  | vfmul (vd : R5) (va : VSrc) (vb : R5) (k : K3) (w : Fw) -- VFMUL R240
  | vfdiv (vd : R5) (va : VSrc) (vb : R5) (k : K3) (w : Fw) -- VFDIV R240
  | vfmin (vd : R5) (va : VSrc) (vb : R5) (k : K3) (w : Fw) -- VFMIN R242
  | vfmax (vd : R5) (va : VSrc) (vb : R5) (k : K3) (w : Fw) -- VFMAX R242
  | vfsqrt (vd : R5) (va : VSrc) (k : K3) (w : Fw) -- VFSQRT R240
  | vfrcp (vd : R5) (va : VSrc) (k : K3) (w : Fw) -- VFRCP R240
  | vfrsq (vd : R5) (va : VSrc) (k : K3) (w : Fw) -- VFRSQ R240
  | vfexp2 (vd : R5) (va : VSrc) (k : K3) (w : Fw) -- VFEXP2 R240
  | vflog2 (vd : R5) (va : VSrc) (k : K3) (w : Fw) -- VFLOG2 R240
  | vtsum (vd : R5) (va : VSrc) (vb : R5) (k : K3) (w : Fw) -- VTSUM R243
  | vfcmpEq (kd : K3) (va : VSrc) (vb : R5) (k : K3) (w : Fw) -- VFCMP_EQ R242
  | vfcmpLt (kd : K3) (va : VSrc) (vb : R5) (k : K3) (w : Fw) -- VFCMP_LT R242
  | vfcmpLe (kd : K3) (va : VSrc) (vb : R5) (k : K3) (w : Fw) -- VFCMP_LE R242
  | vfcmpUn (kd : K3) (va : VSrc) (vb : R5) (k : K3) (w : Fw) -- VFCMP_UN R242
  | vfsgnCp (vd : R5) (va : VSrc) (vb : R5) (k : K3) (w : Fw) -- VFSGN_CP R242
  | vfsgnNeg (vd : R5) (va : VSrc) (vb : R5) (k : K3) (w : Fw) -- VFSGN_NEG R242
  | vfsgnXor (vd : R5) (va : VSrc) (vb : R5) (k : K3) (w : Fw) -- VFSGN_XOR R242
  | vfclass (vd : R5) (va : VSrc) (k : K3) (w : Fw) -- VFCLASS R242
  | vfma (vd va vb vc : R5) (k : K3) (w : Fw) -- VFMA R241
  | vfnma (vd va vb vc : R5) (k : K3) (w : Fw) -- VFNMA R241
  | vcvt (vd va : R5) (src dst : Fmt) (rm : Rm) (sat : Bool) (k : K3) -- VCVT R245
  | venc (vd va : R5) (c4 : Bool) (rm : Rm) (sat : Bool) (k : K3) (tbl : Bool) -- VENC R247
  | vdec (vd va : R5) (c4 : Bool) (rm : Rm) (sat : Bool) (k : K3) (tbl : Bool) -- VDEC R248
  | vencS (vd va : R5) (c4 : Bool) (rm : Rm) (sat : Bool) (k : K3) (tbl : Bool) -- VENC_S R247
  | vdecS (vd va : R5) (c4 : Bool) (rm : Rm) (sat : Bool) (k : K3) (tbl : Bool) -- VDEC_S R248
  | vfkey (vd : R5) (va : VSrc) (k : K3) -- VFKEY R249
  | vperm (vd : R5) (va : VSrc) (vb : R5) (k : K3) (ew : Ew) -- VPERM R250
  | vbcast (vd a : R5) (k : K3) (ew : Ew) -- VBCAST R250
  | vext (d : R5) (va : VSrc) (b : R5) (ew : Ew) -- VEXT R250
  | vins (vd a b : R5) (ew : Ew) -- VINS R250
  | vslideUp (vd : R5) (va : VSrc) (b : R5) (k : K3) (ew : Ew) -- VSLIDE_UP R250
  | vslideDn (vd : R5) (va : VSrc) (b : R5) (k : K3) (ew : Ew) -- VSLIDE_DN R250
  | vred (vd : R5) (va : VSrc) (kind : RedKind) (k : K3) (ew : Ew) -- VRED R251
  | vscan (vd : R5) (va : VSrc) (kind : RedKind) (k : K3) (ew : Ew) -- VSCAN R252
  | vcmprs (vd : R5) (va : VSrc) (k : K3) (ew : Ew) -- VCMPRS R253
  | vsortA (vd : R5) (va : VSrc) -- VSORT_A R254
  | vsortD (vd : R5) (va : VSrc) -- VSORT_D R254
  | vmergeA (vd : R5) (va : VSrc) (vb : R5) -- VMERGE_A R254
  | vmergeD (vd : R5) (va : VSrc) (vb : R5) -- VMERGE_D R254
  | mmas (qa qb : MSrc) (acc : BitVec 12) (t z g f : Bool) -- MMAS R264
  | mzero (acc : BitVec 12) -- MZERO R270
  | mtab (b a : Bool) -- MTAB R271
  | vqpush (q : Q4) (va : R5) -- VQPUSH R256
  | gangForm (leader : Nat) -- GANG_FORM R40
  | gangCommit (leader : Nat) -- GANG_COMMIT R43
  | noticeEntry (key : Nat) -- NOTICE_ENTRY R30
  | gangNoticeEntry (leader : Nat) -- GANG_NOTICE_ENTRY R33
  | windowSpill (key : Nat) -- WINDOW_SPILL R23
  | windowRefill (key : Nat) -- WINDOW_REFILL R23
  | remoteAccessComplete (key : Nat) -- REMOTE_ACCESS_COMPLETE R199
  | homeAnswer (key : Nat) -- HOME_ANSWER R212
  | meshWordArrival (src : Nat) (q : Q4) -- MESH_WORD_ARRIVAL R290
  | messageDelivery (src : Nat) -- MESSAGE_DELIVERY R294
  | dropNotice (src : Nat) (q : Q4) -- DROP_NOTICE R294
  | arrivalNotice (key : Nat) (x : BitVec 64) -- ARRIVAL_NOTICE R81
  | reservationHandoff (addr : Nat) -- RESERVATION_HANDOFF R217
  | enqueueResend (key : Nat) -- ENQUEUE_RESEND R219
  | countedMessageResend (key slice : Nat) -- COUNTED_MESSAGE_RESEND R109
  | releaseQueryAnswer (key : Nat) -- RELEASE_QUERY_ANSWER R108
  | sequenceCounterIncrement (file : SqFile) (idx inc : BitVec 8) -- SEQUENCE_COUNTER_INCREMENT R92
  | objectRequest (cluster pa : Nat) (req : ObjReq) -- OBJECT_REQUEST R60
  | collectRequest (pa cluster : Nat) -- COLLECT_REQUEST R66
  | mergeFold (pa : Nat) -- MERGE_FOLD R66
  | partialEviction (cluster line : Nat) -- PARTIAL_EVICTION R65
  | silentEviction (cluster line : Nat) -- SILENT_EVICTION R94
  | invalidationReceive (cluster line : Nat) (rcl : Bool) -- INVALIDATION_RECEIVE R95
  | versionPublish (ver : Nat) -- VERSION_PUBLISH R75
  | rackStart (ver : Nat) -- RACK_START R85
  | rackComplete (ver : Nat) -- RACK_COMPLETE R86
  | floatComplete (ver : Nat) -- FLOAT_COMPLETE R86
  | taskDispatch (uid : Nat) -- TASK_DISPATCH R303
  | dispatchRetry (uid : Nat) -- DISPATCH_RETRY R303
  | stealRound (key : Nat) -- STEAL_ROUND R300
  | matrixOperandStage (core : Nat) -- MATRIX_OPERAND_STAGE R265
  | matrixStepStart (core : Nat) -- MATRIX_STEP_START R266
  | matrixStepRetire (core : Nat) -- MATRIX_STEP_RETIRE R264
  | tfetch (uid : Nat) -- TFETCH R281
  | tcopy (uid : Nat) -- TCOPY R282
  | tfill (uid : Nat) -- TFILL R282
  | treduce (uid : Nat) -- TREDUCE R283
  | tpost (uid : Nat) -- TPOST R284
  | tnote (uid : Nat) -- TNOTE R285
  | tfloat (uid : Nat) -- TFLOAT R286
  | track (uid : Nat) -- TRACK R286
  | commandStart (uid : Nat) -- COMMAND_START R275
  | commandComplete (uid : Nat) -- COMMAND_COMPLETE R276
  | combiningHoldExpiry (uid : Nat) -- COMBINING_HOLD_EXPIRY R287
  | collectiveChunkFold (uid chunk : Nat) -- COLLECTIVE_CHUNK_FOLD R451
  | umpireSpawn (key : Nat) -- UMPIRE_SPAWN R317
  | umpirePoolTimeout (key : Nat) -- UMPIRE_POOL_TIMEOUT R319
  | strokeSlotReclaim (core : Nat) -- STROKE_SLOT_RECLAIM R19
  | strokeSlotLend (core : Nat) -- STROKE_SLOT_LEND R370
  | launchRecordSeal (ctx queue : Nat) -- LAUNCH_RECORD_SEAL R346
  | dispatcherStep -- DISPATCHER_STEP R350
  | launchWaitHolds (uid : Nat) -- LAUNCH_WAIT_HOLDS R349
  | classAgeing (uid : Nat) -- CLASS_AGEING R348
  | rectangleReserve (uid : Nat) -- RECTANGLE_RESERVE R352
  | localMemoryZeroed (core : Nat) -- LOCAL_MEMORY_ZEROED R351
  | swapOut (key : Nat) -- SWAP_OUT R47
  | strandRestore (key : Nat) -- STRAND_RESTORE R368
  | launchEnd (uid : Nat) -- LAUNCH_END R358
  | commandAccept (mbx : Nat) -- COMMAND_ACCEPT R398
  | eventRingDrain (mbx : Nat) -- EVENT_RING_DRAIN R401
  | ctxCreate (c : CmdRec) -- CTX_CREATE R407
  | ctxDestroy (c : CmdRec) -- CTX_DESTROY R408
  | namespaceCreate (c : CmdRec) -- NAMESPACE_CREATE R409
  | map (c : CmdRec) -- MAP R418
  | unmap (c : CmdRec) -- UNMAP R420
  | pteRepair (c : CmdRec) -- PTE_REPAIR R423
  | frameKindSet (c : CmdRec) -- FRAME_KIND_SET R413
  | frameMigrate (c : CmdRec) -- FRAME_MIGRATE R414
  | carve (c : CmdRec) -- CARVE R412
  | tierConfig (c : CmdRec) -- TIER_CONFIG R405
  | launchWindowConfig (c : CmdRec) -- LAUNCH_WINDOW_CONFIG R425
  | queueCreate (c : CmdRec) -- QUEUE_CREATE R425
  | queuePriority (c : CmdRec) -- QUEUE_PRIORITY R425
  | umpireTableSet (c : CmdRec) -- UMPIRE_TABLE_SET R405
  | preempt (c : CmdRec) -- PREEMPT R405
  | checkpoint (c : CmdRec) -- CHECKPOINT R476
  | checkpointPhaseEnd -- CHECKPOINT_PHASE_END R476
  | restore (c : CmdRec) -- RESTORE R478
  | traceStart (c : CmdRec) -- TRACE_START R470
  | traceStop (c : CmdRec) -- TRACE_STOP R471
  | sampleConfig (c : CmdRec) -- SAMPLE_CONFIG R467
  | blackboxRead (c : CmdRec) -- BLACKBOX_READ R466
  | rasQuery (c : CmdRec) -- RAS_QUERY R459
  | linkService (c : CmdRec) -- LINK_SERVICE R445
  | pairingSet (c : CmdRec) -- PAIRING_SET R460
  | partitionReplay (c : CmdRec) -- PARTITION_REPLAY R473
  | fwPatchLoad (c : CmdRec) -- FW_PATCH_LOAD R429
  | attest (c : CmdRec) -- ATTEST R431
  | resetWarm (c : CmdRec) -- RESET_WARM R433
  | powerSet (c : CmdRec) -- POWER_SET R435
  | capResolve (c : CmdRec) -- CAP_RESOLVE R406
  | powerOn -- POWER_ON R430
  | coldReset -- COLD_RESET R426
  | mailboxEnable (mbx : Nat) -- MAILBOX_ENABLE R397
  | configSpaceWrite (off : Nat) (x : BitVec 64) -- CONFIG_SPACE_WRITE R397
  | companionAccess (wr : Bool) (addr : Nat) (bytes : List (BitVec 8)) -- COMPANION_ACCESS R452
  | igvosPortDown (p : Nat) -- IGVOS_PORT_DOWN R453
  | powerSample (watts : BitVec 16) -- POWER_SAMPLE R435
  | thermalLimit (mhz : BitVec 16) -- THERMAL_LIMIT R435
  | linkHold (l : Nat) -- LINK_HOLD R442
  | linkRetrain (l : Nat) -- LINK_RETRAIN R442
  | linkResume (l : Nat) -- LINK_RESUME R442
  | linkTakeDown (l : Nat) -- LINK_TAKE_DOWN R442
  | linkTrain (l : Nat) -- LINK_TRAIN R442
  | holdDrained (l : Nat) -- HOLD_DRAINED R442
  | holdTimeout (l : Nat) -- HOLD_TIMEOUT R442
  | laneTestDone (l : Nat) (bad : BitVec 64) (badSpare : BitVec 4) -- LANE_TEST_DONE R442
  | flitCrcRetry (l : Nat) -- FLIT_CRC_RETRY R440
  | errorWindowClose -- ERROR_WINDOW_CLOSE R441
  | linkServiceRoutine (l : Nat) -- LINK_SERVICE_ROUTINE R444
  | flezilForward (rank : Nat) (dst : Nat) (x : BitVec 64) -- FLEZIL_FORWARD R447
  | flezilPortDown (p : Nat) -- FLEZIL_PORT_DOWN R448
  | patrolScrub (key : Nat) (unit : BitVec 4) (uncorrectable : Bool) -- PATROL_SCRUB R454
  | samplePulse -- SAMPLE_PULSE R467
  | debugStop (core : Nat) -- DEBUG_STOP R469
  | debugStep (key : Nat) -- DEBUG_STEP R469
  | debugResume (core : Nat) -- DEBUG_RESUME R469
  | debugAccess (key : Nat) (wr : Bool) (what : DebugItem) (x : BitVec 64) -- DEBUG_ACCESS R469
  | illegalOpcode (cause : BitVec 9) (bsyl : Bool) -- ILLEGAL_OPCODE R146
  | fetchLineRefill (core : Nat) -- FETCH_LINE_REFILL R188
  | ownedLineWriteBack (cluster line : Nat) -- OWNED_LINE_WRITE_BACK R94
  | frameMigrateCopyDone -- FRAME_MIGRATE_COPY_DONE R414
  | areaWriteBackComplete (core : Nat) -- AREA_WRITE_BACK_COMPLETE R365
  | powerLoss -- POWER_LOSS R432
  | igvosPortUp (p : Nat) -- IGVOS_PORT_UP R453
  | debugArm (core : Nat) (on : Bool) -- DEBUG_ARM R336
  deriving DecidableEq, Repr

end Sys2Proof
end

