-- ==== Sys2Proof/Config.lean ====
section
/-! DEFINITION. What the package fixes (cause codes, counts of 00 R1) and the free values: constants with no
body, so that nothing proves a value of them. -/

namespace Sys2Proof

/-- A 9-bit cause code (11 R337). -/
abbrev Cause := BitVec 9

namespace Cause

/-- ZERO_SYLLABLE (R144). -/
def zeroSyllable : Cause := 0x001

/-- ILLEGAL_OPCODE (R145). -/
def illegalOpcode : Cause := 0x002

/-- ILLEGAL_FN (R145). -/
def illegalFn : Cause := 0x003

/-- FIELD_NONZERO (R145). -/
def fieldNonzero : Cause := 0x004

/-- BUNDLE_WRITE_CONFLICT (R142). -/
def bundleWriteConflict : Cause := 0x005

/-- LITERAL_MISUSE (R143). -/
def literalMisuse : Cause := 0x006

/-- ILLEGAL_OPERAND (R145). -/
def illegalOperand : Cause := 0x007

/-- PC_MISALIGNED (R141). -/
def pcMisaligned : Cause := 0x008

/-- COX_ONLY (R145). -/
def coxOnly : Cause := 0x009

/-- SUBNORMAL_OPERAND (R132). -/
def subnormalOperand : Cause := 0x040

/-- TABLE_ADDRESS (R120). -/
def tableAddress : Cause := 0x041

/-- TABLE_UNORDERED (R130). -/
def tableUnordered : Cause := 0x042

/-- ROUND_MODE_INVALID (R124). -/
def roundModeInvalid : Cause := 0x043

/-- MATRIX_CONFIG (R263). -/
def matrixConfig : Cause := 0x044

/-- MATRIX_ADDRESS (R263). -/
def matrixAddress : Cause := 0x045

/-- MATRIX_FORWARD (R263). -/
def matrixForward : Cause := 0x046

/-- ADDRESS_RESERVED (R48). -/
def addressReserved : Cause := 0x080

/-- LOCAL_RANGE (R48). -/
def localRange : Cause := 0x081

/-- MISALIGNED (R49). -/
def misaligned : Cause := 0x082

/-- LOCAL_CONTEXT (R51). -/
def localContext : Cause := 0x083

/-- FETCH_REGION (R188). -/
def fetchRegion : Cause := 0x084

/-- PAGE_NOT_PRESENT (R197). -/
def pageNotPresent : Cause := 0x085

/-- PAGE_PROTECTION (R197). -/
def pageProtection : Cause := 0x086

/-- FRAME_KIND_MISMATCH (R89). -/
def frameKindMismatch : Cause := 0x087

/-- PTE_UNCORRECTABLE (R197). -/
def pteUncorrectable : Cause := 0x088

/-- REPLAY_HOLD (R115). -/
def replayHold : Cause := 0x089

/-- REPLAY_PAGE (R115). -/
def replayPage : Cause := 0x08A

/-- REPLAY_FULL (R115). -/
def replayFull : Cause := 0x08B

/-- COX_PAGE (R93). -/
def coxPage : Cause := 0x08C

/-- UOP_RESERVED (R61). -/
def uopReserved : Cause := 0x08D

/-- UOP_REGION (R63). -/
def uopRegion : Cause := 0x08E

/-- UOP_LOCKED (R64). -/
def uopLocked : Cause := 0x08F

/-- OBJECT_INVALID (R224). -/
def objectInvalid : Cause := 0x090

/-- XSWAP_CREW (R209). -/
def xswapCrew : Cause := 0x091

/-- XSWAP_COUNT (R209). -/
def xswapCount : Cause := 0x092

/-- XSWAP_PARTNER_LOST (R209). -/
def xswapPartnerLost : Cause := 0x093

/-- VERSION_EXHAUSTED (R70). -/
def versionExhausted : Cause := 0x100

/-- VERSION_CLASS (R71). -/
def versionClass : Cause := 0x101

/-- VERSION_NO_DRAFT (R73). -/
def versionNoDraft : Cause := 0x102

/-- VERSION_TABLE_FULL (R73). -/
def versionTableFull : Cause := 0x103

/-- TILE_WINDOW_BUSY (R73). -/
def tileWindowBusy : Cause := 0x104

/-- TILE_WINDOW_RANGE (R48). -/
def tileWindowRange : Cause := 0x105

/-- TILE_WINDOW_UNMAPPED (R78). -/
def tileWindowUnmapped : Cause := 0x106

/-- TILE_READONLY (R76). -/
def tileReadonly : Cause := 0x107

/-- VERSION_PUB_COUNT (R74). -/
def versionPubCount : Cause := 0x108

/-- VERSION_PUB_TWICE (R74). -/
def versionPubTwice : Cause := 0x109

/-- VERSION_OVERDONE (R74). -/
def versionOverdone : Cause := 0x10A

/-- VERSION_DRAFT_UNMAP (R74). -/
def versionDraftUnmap : Cause := 0x10B

/-- VERSION_ABANDONED (R77). -/
def versionAbandoned : Cause := 0x10C

/-- VERSION_ZERO (R78). -/
def versionZero : Cause := 0x10D

/-- VERSION_DEAD (R78). -/
def versionDead : Cause := 0x10E

/-- VERSION_DROPPED (R78). -/
def versionDropped : Cause := 0x10F

/-- VERSION_RETAIN_RANGE (R82). -/
def versionRetainRange : Cause := 0x110

/-- SUBSCRIBE_FULL (R81). -/
def subscribeFull : Cause := 0x111

/-- COMMAND_INVALID (R166). -/
def commandInvalid : Cause := 0x112

/-- QUEUE_DIRECTION (R25). -/
def queueDirection : Cause := 0x140

/-- QUEUE_RESERVED (R25). -/
def queueReserved : Cause := 0x141

/-- QUEUE_EDGE (R26). -/
def queueEdge : Cause := 0x142

/-- GANG_QUEUE (R25). -/
def gangQueue : Cause := 0x143

/-- MSG_DEST (R294). -/
def msgDest : Cause := 0x144

/-- RESERVATION_REGION (R215). -/
def reservationRegion : Cause := 0x145

/-- RESERVATION_SELF (R216). -/
def reservationSelf : Cause := 0x146

/-- RESERVATION_LIMIT (R216). -/
def reservationLimit : Cause := 0x147

/-- RESERVATION_ORPHANED (R216). -/
def reservationOrphaned : Cause := 0x148

/-- RESERVATION_NOT_HELD (R217). -/
def reservationNotHeld : Cause := 0x149

/-- SQ_NO_FILE (R227). -/
def sqNoFile : Cause := 0x14A

/-- BARRIER_NOT_CREW (R311). -/
def barrierNotCrew : Cause := 0x14B

/-- BARRIER_OVERRUN (R309). -/
def barrierOverrun : Cause := 0x14C

/-- BARRIER_NO_ARRIVAL (R310). -/
def barrierNoArrival : Cause := 0x14D

/-- BARRIER_POISONED (R327). -/
def barrierPoisoned : Cause := 0x14E

/-- NOTICE_NOT_ACTIVE (R312). -/
def noticeNotActive : Cause := 0x14F

/-- WAIT_NO_SOURCE (R313). -/
def waitNoSource : Cause := 0x150

/-- GANG_SLOT (R41). -/
def gangSlot : Cause := 0x180

/-- GANG_SIZE (R41). -/
def gangSize : Cause := 0x181

/-- GANG_RANGE (R41). -/
def gangRange : Cause := 0x182

/-- GANG_NESTED (R41). -/
def gangNested : Cause := 0x183

/-- GANG_FORM_FAILED (R41). -/
def gangFormFailed : Cause := 0x184

/-- GANG_TASK (R306). -/
def gangTask : Cause := 0x185

/-- GANG_DISBANDED (R329). -/
def gangDisbanded : Cause := 0x186

/-- CLAUSE_NESTED (R37). -/
def clauseNested : Cause := 0x187

/-- CLAUSE_CONTROL (R37). -/
def clauseControl : Cause := 0x188

/-- WINDOW_LIMIT (R23). -/
def windowLimit : Cause := 0x189

/-- WINDOW_UNDERFLOW (R23). -/
def windowUnderflow : Cause := 0x18A

/-- DEQUE_CONFIG (R296). -/
def dequeConfig : Cause := 0x18B

/-- DEQUE_FULL (R297). -/
def dequeFull : Cause := 0x18C

/-- JOIN_REGISTER (R301). -/
def joinRegister : Cause := 0x18D

/-- TASKW_RECORD (R302). -/
def taskwRecord : Cause := 0x18E

/-- WAITPOOL_FULL (R302). -/
def waitpoolFull : Cause := 0x18F

/-- TRIGGER_FULL (R304). -/
def triggerFull : Cause := 0x190

/-- LAUNCH_INVALID (R305). -/
def launchInvalid : Cause := 0x191

/-- STATE_UNDEFINED (R195). -/
def stateUndefined : Cause := 0x1C0

/-- STATE_PRIVILEGE (R195). -/
def statePrivilege : Cause := 0x1C1

/-- STATE_READONLY (R195). -/
def stateReadonly : Cause := 0x1C2

/-- PRIVILEGED_OP (R322, R328, R336). -/
def privilegedOp : Cause := 0x1C3

/-- CAP_INVALID (R322). -/
def capInvalid : Cause := 0x1C4

/-- CAP_RIGHTS (R322). -/
def capRights : Cause := 0x1C5

/-- CAP_STALE (R322). -/
def capStale : Cause := 0x1C6

/-- CAP_NOT_FROZEN (R322). -/
def capNotFrozen : Cause := 0x1C7

/-- CAP_TRANSFER (R328). -/
def capTransfer : Cause := 0x1C8

/-- UMPIRE_ESCALATION (R331: names an escalation and is never a strand's cause). -/
def umpireEscalation : Cause := 0x1C9

/-- UE_CONSUMED (Fleet operation: errors, evidence and recovery). -/
def ueConsumed : Cause := 0x1E0

/-- REDUNDANCY_MISMATCH (Fleet operation: errors, evidence and recovery). -/
def redundancyMismatch : Cause := 0x1E1

/-- SERVICE_CALL (R336). -/
def serviceCall : Cause := 0x1F0

/-- BREAKPOINT (R336). -/
def breakpoint : Cause := 0x1F1

end Cause

namespace Config

/-- The contents of register n of the fresh out group that the c-th taken WCALL allocates: undefined (01 R22, 06 R189).
FREE VALUE (log 8). -/
opaque freshWindow : Nat → Nat → Word

/-- The byte at an offset of draft uid before anything wrote it: undefined (02 R73). FREE VALUE (log 8). -/
opaque freshTileByte : Nat → Nat → Byte

/-- The class code TWMAP shows for a window that waits for a name without a class: not stated (02 R80). FREE VALUE (log 8). -/
opaque pendingClass : Nat → Nat

/-- The victim order of a steal round comes from a generator no program sees (10 R300). FREE VALUE (log 12). -/
opaque stealPick : Nat → Nat

/-- Element e of chunk i that other packages contribute, under the n-th free value: the fold of the lower ranks that reaches this package,
or, at n + 2^32 x k, the chunk of the k-th higher rank (17 R451). FREE VALUE (log 22). -/
opaque linkElement : Nat → Nat → Nat → Word

/-- Whether such a chunk is poisoned, and its origin rank (17 R451). FREE VALUE (log 22). -/
opaque linkPoison : Nat → Nat → Option Nat

/-- The address that 18 R457 gives for granule g of version v, read by an engine as a byte offset: not stated. FREE VALUE (log 44). -/
opaque versionVa : Nat → Nat → Word

/-- The address that the report of an uncorrectable error gives for a unit whose words have no physical address, a local memory or a slice's
table: not stated (18 R458). FREE VALUE (log 44). -/
opaque uePlace : Nat → Nat → BitVec 44

/-- How many messages an edge stage holds before its senders are held back: not stated (17 R443). FREE VALUE (log 50). -/
opaque edgeStageRoom : Nat

/-- How many flits stay in the replay buffers of a hold that fails (17 R442). FREE VALUE (log 8). -/
opaque heldFlits : Nat → Nat

/-- Lanes that a CRC error of a link is attributed to: 17 R441 has them and does not say which (log 52). -/
opaque retryLanes : Nat → Word

/-- Whether the other members of a collective bring the same element count, format and operator (17 R451, log 22). -/
opaque linkAgree : Nat → Bool

/-- Byte i of section payload n that this specification does not lay out: a strand's context and extension, firmware state (12 R366,
18 R475). FREE VALUE (log 27). -/
opaque imageByte : Nat → Nat → Byte

/-- Bytes of the firmware-state section of image n (18 R475). FREE VALUE (log 27). -/
opaque firmwareBytes : Nat → Nat

/-- Word i of a register bank that an uncorrectable error has left undefined (18 R457). FREE VALUE (log 8). -/
opaque scrubbed : Nat → Nat → Word

/-- The 256-bit SHAKE256 output of a byte string (16 R428; the function of FIPS 202). FREE VALUE (log 11). -/
opaque shake256 : List Byte → BitVec 256

/-- Whether an XMSS-SHAKE256_20_256 signature verifies: signed bytes, signature (16 R428). FREE VALUE (log 11). -/
opaque xmssVerifies : List Byte → List Byte → Bool

/-- The device's XMSS signature number n over a byte string, byte by byte (16 R431). FREE VALUE (log 11). -/
opaque xmssSign : Nat → List Byte → Nat → Byte

/-- The mask ROM's version field (16 R427). FREE VALUE (log 11). -/
opaque romVersion : BitVec 16

/-- SHAKE256 of the mask ROM and the digest OTP holds for it (16 R426, R431). FREE VALUES (log 11). -/
opaque romDigest : BitVec 256

/-- The digest of the mask ROM that OTP holds (16 R426 stage 0x01). FREE VALUE (log 11). -/
opaque otpRomDigest : BitVec 256

/-- The vendor key of the mask ROM: its OID, root and seed (16 R428). FREE VALUE (log 11). -/
opaque romKeyByte : Nat → Byte

/-- The digest of the vendor key that OTP holds (16 R428). FREE VALUE (log 11). -/
opaque otpKeyDigest : BitVec 256

/-- BOOTSTS.err of a boot that fails at a stage: 16 R427 gives no codes. FREE VALUE (log 11). -/
opaque bootFailure : Nat → BitVec 16

/-- SHAKE256 of the OTP configuration (16 R431). FREE VALUE (log 11). -/
opaque otpConfigDigest : BitVec 256

/-- Byte i of the device public key and of the vendor's signature over it (16 R431). FREE VALUE (log 11). -/
opaque deviceCertByte : Nat → Byte

end Config

end Sys2Proof
end

