-- ==== Sys2Proof/WellFormed.lean ====
section
/-! DEFINITION. Which instructions the encodings of spec 05 allow: the checks beyond the widths of the fields. -/

namespace Sys2Proof

/-- Bits of a format for the wider/narrower tests of 08 R245: x19 counts 19, its container 32. -/
def Fmt.fpBits : Fmt → Nat
  | .fp16 => 16 | .bf16 => 16 | .x19 => 19 | .fp32 => 32 | .fp64 => 64
  | _ => 0

/-- The floating-point formats of 04 R118. -/
def Fmt.isFp : Fmt → Bool
  | .fp16 | .bf16 | .fp32 | .fp64 | .x19 => true
  | _ => false

/-- The table-coded formats (04 R120). -/
def Fmt.isCoded : Fmt → Bool
  | .c8 | .c4 => true
  | _ => false

/-- VCVT takes no coded format (05 R163). -/
def vcvtFormats (src dst : Fmt) : Bool := !src.isCoded && !dst.isCoded

/-- sat must be zero when a floating-point source goes to a floating-point target at least as wide (05 R163, 08 R245). -/
def vcvtSatOk (src dst : Fmt) (sat : Bool) : Bool :=
  !(sat && src.isFp && dst.isFp && decide (src.fpBits ≤ dst.fpBits))

/-- sr is allowed only for results in bf16, fp16, c8 or c4 (04 R124). -/
def rmOk (rm : Rm) (dst : Fmt) : Bool :=
  match rm, dst with
  | .sr, .bf16 | .sr, .fp16 | .sr, .c8 | .sr, .c4 => true
  | .sr, _ => false
  | _, _ => true

/-- The fp kinds of VRED and VSCAN (08 R251). -/
def RedKind.isFp : RedKind → Bool
  | .fadd | .fmax | .fmin => true
  | _ => false

/-- fp kinds need 32- or 64-bit lanes (08 R251). -/
def redOk (kind : RedKind) (ew : Ew) : Bool :=
  match ew with
  | .e32 | .e64 => true
  | _ => !kind.isFp

/-- pos + len ≤ 64 (05 R153). -/
def extrOk (lenm1 pos : BitVec 6) : Bool := decide (pos.toNat + lenm1.toNat < 64)

/-- A register group of VLDT (05 R154): v0 or v16 for e32, a multiple of 8 for e64. -/
def vldtOk (v : R5) (e : Bool) : Bool :=
  if e then decide (v.toNat % 8 = 0) else decide (v.toNat % 16 = 0)

/-- Bytes of a tile class (02 R71). -/
def TileClass.size : TileClass → Nat
  | .k4 => 4096 | .k64 => 65536 | .m1 => 1048576

/-- A matrix queue source is a mesh channel; 11-15 freeze when executed (09 R262). -/
def msrcNamed : MSrc → Bool
  | .que q => decide (q.toNat < 4) || decide (11 ≤ q.toNat)
  | .regs _ => true

/-- The sources of MMAS name no queue twice (09 R262). -/
def mmasOk (qa qb : MSrc) : Bool :=
  msrcNamed qa && msrcNamed qb &&
    (match qa, qb with
    | .que x, .que y => !decide (x = y)
    | _, _ => true)

/-- Well-formed: the instruction has an encoding that decodes without a fault (05 R152-R163). ADD g0, g0, g0 without sat would
be the all-zero A syllable, which is ZERO_SYLLABLE (05 R144). -/
def Instr.wf : Instr → Bool
  | .add d a b sat => sat || !(decide (d = 0) && decide (a = 0) && decide (b = 0))
  | .extr _ _ lenm1 pos => extrOk lenm1 pos
  | .extru _ _ lenm1 pos => extrOk lenm1 pos
  | .insr _ _ lenm1 pos => extrOk lenm1 pos
  | .vldt v _ _ e => vldtOk v e
  | .odecl _ _ named lock tag => named || (!lock && decide (tag = 0))
  | .bar _ a ev => ev || decide (a = 0)
  | .frdReg _ _ kreg n => !kreg || decide (n.toNat < 8)
  | .fwrReg _ _ kreg n => !kreg || decide (n.toNat < 8)
  | .frq _ _ item => decide (item.toNat < 10)
  | .vtsum vd _ _ _ _ => decide (vd.toNat % 2 = 0)
  | .vmergeA vd _ _ => decide (vd.toNat % 2 = 0)
  | .vmergeD vd _ _ => decide (vd.toNat % 2 = 0)
  | .vcvt _ _ src dst rm sat _ => vcvtFormats src dst && vcvtSatOk src dst sat && rmOk rm dst
  | .vdec _ _ _ rm _ _ _ => rmOk rm .fp32
  | .vdecS _ _ _ rm _ _ _ => rmOk rm .fp32
  | .vred _ _ kind _ ew => redOk kind ew
  | .vscan _ _ kind _ ew => redOk kind ew
  | .mmas qa qb _ _ _ _ _ => mmasOk qa qb
  | .mtab b a => b || a
  | _ => true

end Sys2Proof
end

