-- ==== Sys2Proof/Decode.lean ====
section
/-! DEFINITION. Decoding a bundle's two syllables in the order of 05 R146, and after it the encoder, from the formats and
opcode maps of 05 R147-R163. -/

namespace Sys2Proof

/-- What one syllable decodes to: a fault of steps 2-5 of 05 R146, a fault of its step 6, or an instruction. -/
inductive Dec where
  | fault (c : Cause)
  | late (c : Cause)
  | ins (i : Instr)
  deriving DecidableEq, Repr

/-- A register field. -/
def r5 (w lo : Nat) : R5 := BitVec.ofNat 5 (fld w lo 5)

/-- A mask field. -/
def k3 (w lo : Nat) : K3 := BitVec.ofNat 3 (fld w lo 3)

/-- One bit. -/
def bit (w lo : Nat) : Bool := decide (fld w lo 1 = 1)

/-- Must-be-zero fields first (FIELD_NONZERO), then the instruction (05 R145). -/
def mk (mbz : Bool) (i : Instr) : Dec := if mbz then .ins i else .fault Cause.fieldNonzero

/-- As mk, with a range check of step 6 (ILLEGAL_OPERAND). -/
def mkChk (mbz ok : Bool) (i : Instr) : Dec :=
  if mbz then (if ok then .ins i else .late Cause.illegalOperand) else .fault Cause.fieldNonzero

/-- An instruction that carries no literal: L = 1 is LITERAL_MISUSE after the syllable's own checks (05 R143, R146). -/
def noLit (l : Bool) (d : Dec) : Dec :=
  match d with
  | .fault c => .fault c
  | d => if l then .fault Cause.literalMisuse else d

/-- An instruction whose literal is required (05 R143). -/
def needLit (l : Bool) (d : Dec) : Dec :=
  match d with
  | .fault c => .fault c
  | d => if l then d else .fault Cause.literalMisuse

/-- The immediate of a syllable that may carry a literal: its n-bit field at bit lo, or the literal. -/
def immOf (n lo : Nat) (w lit : Nat) : Imm n :=
  if bit w 31 then .lit (BitVec.ofNat 32 lit) else .fld (BitVec.ofNat n (fld w lo n))

/-- With L = 1 the replaced field must be zero (05 R143). -/
def immOk (n lo w : Nat) : Bool := !bit w 31 || decide (fld w lo n = 0)

/-- Request-type codes (02 R55). -/
def rqOf (x : Nat) : Rq :=
  match x with
  | 0 => .own | 1 => .wt | 2 => .si | _ => .nc

/-- Request-type code of a name. -/
def Rq.code : Rq → Nat
  | .own => 0 | .wt => 1 | .si => 2 | .nc => 3

/-- Element-width codes (05 R149). -/
def ewOf (x : Nat) : Ew :=
  match x with
  | 0 => .e8 | 1 => .e16 | 2 => .e32 | _ => .e64

/-- Element-width code of a name. -/
def Ew.code : Ew → Nat
  | .e8 => 0 | .e16 => 1 | .e32 => 2 | .e64 => 3

/-- Scope codes (05 R157); 0, 6 and 7 are ILLEGAL_FN. -/
def scopeOf (x : Nat) : Option Scope :=
  match x with
  | 1 => some .core | 2 => some .clu | 3 => some .die | 4 => some .pkg | 5 => some .sys
  | _ => none

/-- Scope code of a name. -/
def Scope.code : Scope → Nat
  | .core => 1 | .clu => 2 | .die => 3 | .pkg => 4 | .sys => 5

/-- AMO operation codes (05 R156). -/
def amoOf (x : Nat) : Option AmoOp :=
  match x with
  | 0 => some .add | 1 => some .and | 2 => some .or | 3 => some .xor | 4 => some .min | 5 => some .max
  | 6 => some .minu | 7 => some .maxu | 8 => some .swap | _ => none

/-- AMO operation code of a name. -/
def AmoOp.code : AmoOp → Nat
  | .add => 0 | .and => 1 | .or => 2 | .xor => 3 | .min => 4 | .max => 5 | .minu => 6 | .maxu => 7 | .swap => 8

/-- Tile-class codes (05 R155). -/
def classOf (x : Nat) : Option TileClass :=
  match x with
  | 0 => some .k4 | 1 => some .k64 | 2 => some .m1 | _ => none

/-- Tile-class code of a name. -/
def TileClass.code : TileClass → Nat
  | .k4 => 0 | .k64 => 1 | .m1 => 2

/-- Format codes (05 R151). -/
def fmtOf (x : Nat) : Option Fmt :=
  match x with
  | 0 => some .int8 | 1 => some .int16 | 2 => some .int32 | 3 => some .int64
  | 4 => some .uint8 | 5 => some .uint16 | 6 => some .uint32 | 7 => some .uint64
  | 8 => some .fp16 | 9 => some .bf16 | 10 => some .fp32 | 11 => some .fp64
  | 12 => some .c8 | 13 => some .c4 | 14 => some .x19 | _ => none

/-- Format code of a name. -/
def Fmt.code : Fmt → Nat
  | .int8 => 0 | .int16 => 1 | .int32 => 2 | .int64 => 3 | .uint8 => 4 | .uint16 => 5 | .uint32 => 6 | .uint64 => 7
  | .fp16 => 8 | .bf16 => 9 | .fp32 => 10 | .fp64 => 11 | .c8 => 12 | .c4 => 13 | .x19 => 14

/-- Rounding-mode codes (04 R124). -/
def rmOf (x : Nat) : Option Rm :=
  match x with
  | 0 => some .rne | 1 => some .rtz | 2 => some .rdn | 3 => some .rup | 4 => some .rna | 5 => some .sr
  | 7 => some .dyn | _ => none

/-- Rounding-mode code of a name. -/
def Rm.code : Rm → Nat
  | .rne => 0 | .rtz => 1 | .rdn => 2 | .rup => 3 | .rna => 4 | .sr => 5 | .dyn => 7

/-- Reduction kinds (05 R162). -/
def redOf (x : Nat) : Option RedKind :=
  match x with
  | 0 => some .add | 1 => some .min | 2 => some .max | 3 => some .minu | 4 => some .maxu | 5 => some .and
  | 6 => some .or | 7 => some .xor | 8 => some .fadd | 9 => some .fmax | 10 => some .fmin | _ => none

/-- Reduction-kind code of a name. -/
def RedKind.code : RedKind → Nat
  | .add => 0 | .min => 1 | .max => 2 | .minu => 3 | .maxu => 4 | .and => 5 | .or => 6 | .xor => 7
  | .fadd => 8 | .fmax => 9 | .fmin => 10

/-- Format A.R with three registers. -/
def arr (w : Nat) (f : R5 → R5 → R5 → Instr) : Instr := f (r5 w 20) (r5 w 15) (r5 w 10)

/-- A field is zero. -/
def z (w lo len : Nat) : Bool := decide (fld w lo len = 0)

/-- Major 0x00 (05 R153). -/
def decInt (w : Nat) : Dec :=
  let m := z w 6 4
  let ms := z w 6 3
  let s := bit w 9
  match fld w 0 6 with
  | 0x00 => mk ms (arr w fun d a b => .add d a b s)
  | 0x01 => mk ms (arr w fun d a b => .sub d a b s)
  | 0x02 => mk ms (arr w fun d a b => .mul d a b s)
  | 0x03 => mk m (arr w .mulh)
  | 0x04 => mk m (arr w .mulhu)
  | 0x05 => mk m (arr w .div)
  | 0x06 => mk m (arr w .divu)
  | 0x07 => mk m (arr w .rem)
  | 0x08 => mk m (arr w .remu)
  | 0x09 => mk m (arr w .and)
  | 0x0A => mk m (arr w .or)
  | 0x0B => mk m (arr w .xor)
  | 0x0C => mk m (arr w .andn)
  | 0x0D => mk m (arr w .orn)
  | 0x0E => mk m (arr w .sll)
  | 0x0F => mk m (arr w .srl)
  | 0x10 => mk m (arr w .sra)
  | 0x11 => mk m (arr w .rol)
  | 0x12 => mk m (arr w .ror)
  | 0x13 => mk m (arr w .min)
  | 0x14 => mk m (arr w .max)
  | 0x15 => mk m (arr w .minu)
  | 0x16 => mk m (arr w .maxu)
  | 0x17 => mk m (arr w .slt)
  | 0x18 => mk m (arr w .sltu)
  | 0x19 => mk m (arr w .seq)
  | 0x1A => mk m (arr w .sne)
  | _ => .fault Cause.illegalFn

/-- Major 0x01 (05 R153). -/
def decBit (w : Nat) : Dec :=
  let m := z w 6 4
  let u := m && z w 10 5
  let d := r5 w 20
  let a := r5 w 15
  match fld w 0 6 with
  | 0x00 => mk u (.clz d a)
  | 0x01 => mk u (.ctz d a)
  | 0x02 => mk u (.popc d a)
  | 0x03 => mk u (.brev d a)
  | 0x04 => mk u (.bswap d a)
  | 0x05 => mk m (.sel d a (r5 w 10))
  | 0x06 => mk (z w 6 2) (.adds d a (r5 w 10) (BitVec.ofNat 2 (fld w 8 2)))
  | _ => .fault Cause.illegalFn

/-- Major 0x06 (05 R153). -/
def decShift (w : Nat) : Dec :=
  let m := z w 8 7
  let sh := BitVec.ofNat 6 (fld w 0 6)
  match fld w 6 2 with
  | 0 => mk m (.slli (r5 w 20) (r5 w 15) sh)
  | 1 => mk m (.srli (r5 w 20) (r5 w 15) sh)
  | 2 => mk m (.srai (r5 w 20) (r5 w 15) sh)
  | _ => .fault Cause.illegalFn

/-- Major 0x09 (05 R153). -/
def decConst (w lit : Nat) : Dec :=
  match fld w 15 5 with
  | 0 => noLit (bit w 31) (mk true (.lui (r5 w 20) (BitVec.ofNat 15 (fld w 0 15))))
  | 1 => needLit (bit w 31) (mk (z w 0 15) (.lit (r5 w 20) (BitVec.ofNat 32 lit)))
  | 2 => needLit (bit w 31) (mk (z w 0 15) (.lith (r5 w 20) (BitVec.ofNat 32 lit)))
  | _ => .fault Cause.illegalFn

/-- Majors 0x0B-0x0D (05 R153). -/
def decField (w : Nat) (f : R5 → R5 → BitVec 6 → BitVec 6 → Instr) : Dec :=
  let n := BitVec.ofNat 6 (fld w 6 6)
  let p := BitVec.ofNat 6 (fld w 0 6)
  mkChk (z w 12 3) (extrOk n p) (f (r5 w 20) (r5 w 15) n p)

/-- Format A.I with a literal accepted. -/
def decImm (w lit : Nat) (f : R5 → R5 → Imm 15 → Instr) : Dec :=
  mk (immOk 15 0 w) (f (r5 w 20) (r5 w 15) (immOf 15 0 w lit))

/-- Format A.M of majors 0x18-0x22 (05 R147, R152). -/
def decMem (w lit : Nat) (f : R5 → R5 → Rq → Imm 13 → Instr) : Dec :=
  mk (immOk 13 0 w) (f (r5 w 20) (r5 w 15) (rqOf (fld w 13 2)) (immOf 13 0 w lit))

/-- Major 0x23 (05 R154). -/
def decVmem (w lit : Nat) : Dec :=
  let l := bit w 31
  let v := r5 w 20
  let b := r5 w 15
  let q := rqOf (fld w 13 2)
  match fld w 9 4 with
  | 0x0 => mk (immOk 6 3 w) (.vld v b q (immOf 6 3 w lit) (k3 w 0))
  | 0x1 => mk (immOk 6 3 w) (.vst v b q (immOf 6 3 w lit) (k3 w 0))
  | 0x2 => noLit l (mk true (.vlds v b q (r5 w 4) (k3 w 1) (bit w 0)))
  | 0x3 => noLit l (mk true (.vsts v b q (r5 w 4) (k3 w 1) (bit w 0)))
  | 0x4 => noLit l (mk true (.vgath v b q (r5 w 4) (k3 w 1) (bit w 0)))
  | 0x5 => noLit l (mk true (.vscat v b q (r5 w 4) (k3 w 1) (bit w 0)))
  | 0x6 => mk (immOk 7 0 w) (.vldb v b q (ewOf (fld w 7 2)) (immOf 7 0 w lit))
  | 0x7 => noLit l (mkChk (z w 0 8) (vldtOk v (bit w 8)) (.vldt v b q (bit w 8)))
  | 0x8 => mk (immOk 6 3 w && z w 0 3 && z w 20 5) (.pf b q (immOf 6 3 w lit))
  | 0x9 => mk (immOk 6 3 w && z w 0 3 && z w 20 5) (.cflush b q (immOf 6 3 w lit))
  | 0xA => noLit l (mk (z w 0 9) (.xswap v b q))
  | _ => .fault Cause.illegalFn

/-- Major 0x24 (05 R155). -/
def decVer (w : Nat) : Dec :=
  let wn : W4 := BitVec.ofNat 4 (fld w 0 4)
  let d := r5 w 20
  let a := r5 w 15
  let zd := z w 20 5
  let za := z w 15 5
  let zb := z w 10 5
  match fld w 4 6 with
  | 0x00 => mk zd (.vmap a (r5 w 10) wn)
  | 0x01 => mk zd (.vmapRel a (r5 w 10) wn)
  | 0x02 => mk (zd && za && zb) (.vunmap wn)
  | 0x03 =>
    if z w 12 3 then
      match classOf (fld w 10 2) with
      | some c => .ins (.vdraftNew d a c wn)
      | none => .late Cause.illegalOperand
    else .fault Cause.fieldNonzero
  | 0x04 => mk zb (.vdraftJoin d a wn)
  | 0x05 => mk (zd && zb) (.vpub a wn)
  | 0x06 => mk (zd && za && zb) (.vdone wn)
  | 0x07 => mk (zb && z w 0 4) (.vlatest d a)
  | _ => .fault Cause.illegalFn

/-- Major 0x25 (05 R155). -/
def decSub (w : Nat) : Dec :=
  let a := r5 w 15
  match fld w 20 5 with
  | 0 => mk (z w 8 7) (.vsub a (BitVec.ofNat 8 (fld w 0 8)))
  | 1 => mk (z w 8 7) (.vunsub a (BitVec.ofNat 8 (fld w 0 8)))
  | 2 => mk (z w 4 11) (.vretain a (BitVec.ofNat 4 (fld w 0 4)))
  | 3 => mk (z w 0 15) (.vdrop a)
  | _ => .fault Cause.illegalFn

/-- Major 0x28 (05 R156). -/
def decResv (w : Nat) : Dec :=
  let d := r5 w 20
  let a := r5 w 15
  let b := r5 w 10
  let wd := bit w 4
  match fld w 5 5 with
  | 0 => mk (z w 10 5 && z w 0 4) (.lrw d a wd)
  | 1 => mk (z w 20 5 && z w 0 4) (.sch a b wd)
  | 2 => mk (z w 20 5 && z w 10 5 && z w 0 5) (.rls a)
  | 3 => match amoOf (fld w 0 4) with
    | some o => .ins (.amo d a b wd o)
    | none => .fault Cause.illegalFn
  | 4 => mk (z w 0 4) (.acas d a b wd)
  | _ => .fault Cause.illegalFn

/-- Major 0x29 (05 R156). -/
def decUpd (w : Nat) : Dec :=
  let a := r5 w 15
  let tag := BitVec.ofNat 4 (fld w 0 4)
  match fld w 7 3 with
  | 0 => mk (z w 20 5 && z w 4 3) (.ured a (r5 w 10) tag)
  | 1 => mk (z w 20 5) (.uredv a (r5 w 10) (k3 w 4) tag)
  | 2 => mk (z w 10 5 && z w 4 1 && (bit w 6 || z w 0 6)) (.odecl (r5 w 20) a (bit w 6) (bit w 5) tag)
  | 3 => mk (z w 20 5 && z w 10 5 && z w 0 7) (.ofree a)
  | _ => .fault Cause.illegalFn

/-- Major 0x2C (05 R157). -/
def decFence (w : Nat) : Dec :=
  match scopeOf (fld w 0 3) with
  | none => .fault Cause.illegalFn
  | some s =>
    mk (z w 5 20)
      (match fld w 3 2 with
       | 0 => .fenceAcq s
       | 1 => .fenceLl s
       | 2 => .fenceRel s
       | _ => .fenceFull s)

/-- The annotation of SQWAIT and SQINC (05 R157): 0 relaxed with a zero scope, `kind` annotated, else ILLEGAL_FN. -/
def decAnn (w kind : Nat) (mbz : Bool) (f : Option Scope → Instr) : Dec :=
  if fld w 13 2 = 0 then mk (mbz && z w 10 3) (f none)
  else if fld w 13 2 = kind then
    match scopeOf (fld w 10 3) with
    | none => .fault Cause.illegalFn
    | some s => mk mbz (f (some s))
  else .fault Cause.illegalFn

/-- Major 0x2D (05 R157). -/
def decSeq (w : Nat) : Dec :=
  let sq := BitVec.ofNat 8 (fld w 0 8)
  match fld w 8 2 with
  | 0 => decAnn w 1 (z w 20 5) fun s => .sqwait (r5 w 15) s sq
  | 1 => decAnn w 2 (z w 23 2) fun s => .sqinc (BitVec.ofNat 8 (fld w 15 8)) s sq
  | 2 =>
    if fld w 13 2 = 0 then mk (z w 15 5 && z w 10 3) (.sqrd (r5 w 20) sq) else .fault Cause.illegalFn
  | _ => .fault Cause.illegalFn

/-- Major 0x2E (05 R157). -/
def decQueue (w : Nat) : Dec :=
  match fld w 4 6 with
  | 0 => mk (z w 24 1 && z w 10 5 && z w 0 4) (.qpush (BitVec.ofNat 4 (fld w 20 4)) (r5 w 15))
  | 1 => mk (z w 19 1 && z w 10 5 && z w 0 4) (.qpop (r5 w 20) (BitVec.ofNat 4 (fld w 15 4)))
  | 2 => mk (z w 19 1 && z w 10 5 && z w 0 4) (.qstat (r5 w 20) (BitVec.ofNat 4 (fld w 15 4)))
  | 3 => mkChk (z w 15 5 && z w 1 3 && z w 24 1) (decide (fld w 20 4 = 4)) (.qpushc (r5 w 10) (bit w 0))
  | 4 => mk (z w 20 5 && z w 0 4) (.msg (r5 w 15) (r5 w 10))
  | _ => .fault Cause.illegalFn

/-- Major 0x30 (05 R158). -/
def decTask (w : Nat) : Dec :=
  let a := r5 w 15
  let b := r5 w 10
  let zd := z w 20 5
  let za := z w 15 5
  let zb := z w 10 5
  let zf := z w 0 4
  match fld w 4 6 with
  | 0 => mk (zd && zf) (.spawn a b)
  | 1 => mk (zd && zb && zf) (.join a)
  | 2 => mk (zb && zf) (.steal (r5 w 20) a)
  | 3 => mk (zd && zb && zf) (.taskw a)
  | 4 => mk (zd && za && zb && zf) .texit
  | 5 => mk (zd && zb && zf) (.launch a)
  | 6 => mk (zd && zf) (.vtrig a b)
  | _ => .fault Cause.illegalFn

/-- Major 0x31 (05 R158). -/
def decGang (w : Nat) : Dec :=
  let zd := z w 20 5
  let za := z w 15 5
  let zb := z w 10 5
  match fld w 4 6 with
  | 0 => mk (zd && za && zb && z w 3 1) (.gang (bit w 2) (BitVec.ofNat 2 (fld w 0 2)))
  | 1 => mk (zd && za && zb && z w 0 4) .ungang
  | 2 => mk (zb && z w 1 3 && (bit w 0 || za)) (.bar (r5 w 20) (r5 w 15) (bit w 0))
  | 3 => mk (zd && za && zb && z w 0 4) .bara
  | 4 => mk (za && zb && z w 0 4) (.barw (r5 w 20))
  | _ => .fault Cause.illegalFn

/-- Major 0x32 (05 R158). -/
def decWait (w : Nat) : Dec :=
  match fld w 4 6 with
  | 0 => mk (z w 10 15 && z w 0 4) .nret
  | 1 => mk (z w 10 15 && z w 0 4) .wait
  | 2 => mk (z w 10 15 && z w 0 4) .yield
  | _ => .fault Cause.illegalFn

/-- Major 0x34 (05 R159). -/
def decState (w : Nat) : Dec :=
  let sel := BitVec.ofNat 12 (fld w 0 12)
  match fld w 12 3 with
  | 0 => mk (z w 15 5) (.mfs (r5 w 20) sel)
  | 1 => mk (z w 20 5) (.mts (r5 w 15) sel)
  | _ => .fault Cause.illegalFn

/-- Major 0x35 (05 R159). -/
def decSys (w : Nat) : Dec :=
  let zd := z w 20 5
  let za := z w 15 5
  let zb := z w 10 5
  let zf := z w 0 4
  match fld w 4 6 with
  | 0 => mk (zd && za && zb && zf) .ecall
  | 1 => mk (zd && za && zb && zf) .brk
  | 2 => mk (zd && zb && zf) (.trmark (r5 w 15))
  | 3 => mk (zd && za && zb && zf) .halt
  | _ => .fault Cause.illegalFn

/-- The register selector of FRD and FWR: sel12[11:6] zero, and sel12[4:3] zero for a k register (05 R159). -/
def selOk (w : Nat) : Bool := z w 6 6 && (!bit w 5 || z w 3 2)

/-- Major 0x36 (05 R159). -/
def decFrozen (w : Nat) : Dec :=
  let capA : BitVec 2 := BitVec.ofNat 2 (fld w 15 2)
  let capD : BitVec 2 := BitVec.ofNat 2 (fld w 20 2)
  let okA := z w 17 3
  let okD := z w 22 3
  let sel := BitVec.ofNat 12 (fld w 0 12)
  match fld w 12 3 with
  | 0 => mk (okA && selOk w) (.frdReg (r5 w 20) capA (bit w 5) (r5 w 0))
  | 1 => mk okA (.frdState (r5 w 20) capA sel)
  | 2 => mk (okD && selOk w) (.fwrReg capD (r5 w 15) (bit w 5) (r5 w 0))
  | 3 => mk okD (.fwrState capD (r5 w 15) sel)
  | 4 => mk (okA && z w 5 7) (.frdv (r5 w 20) capA (r5 w 0))
  | 5 => mk (okD && z w 5 7) (.fwrv capD (r5 w 15) (r5 w 0))
  | 6 => mkChk (okA && z w 4 8) (decide (fld w 0 4 < 10)) (.frq (r5 w 20) capA (BitVec.ofNat 4 (fld w 0 4)))
  | _ => .fault Cause.illegalFn

/-- Major 0x37 (05 R159). -/
def decUmp (w : Nat) : Dec :=
  let cap : BitVec 2 := BitVec.ofNat 2 (fld w 10 2)
  let okC := z w 12 3
  let zd := z w 20 5
  let za := z w 15 5
  match fld w 4 6 with
  | 0 =>
    match fld w 0 2 with
    | 0 => mk (zd && za && okC && z w 2 2) (.fresRetry cap)
    | 1 => mk (zd && za && okC && z w 2 2) (.fresSkip cap)
    | 2 => mk (zd && okC && z w 2 2) (.fresRedirect (r5 w 15) cap)
    | _ => .fault Cause.illegalFn
  | 1 =>
    if bit w 0 then mk (zd && za && okC && z w 1 3) (.fkillCount cap)
    else mk (zd && za && okC && z w 1 3) (.fkillAbandon cap)
  | 2 => mk (zd && okC && z w 0 4) (.capxfer (r5 w 15) cap)
  | 3 => mk (zd && za && okC && z w 0 4) (.capdrop cap)
  | 4 => mk (zd && za && z w 10 5 && z w 0 4) .uexit
  | _ => .fault Cause.illegalFn

/-- Major 0x3F (05 R160). -/
def decMisc (w lit : Nat) : Dec :=
  let l := bit w 31
  let n := BitVec.ofNat 6 (fld w 0 6)
  match fld w 12 3 with
  | 0 => noLit l (mk (z w 15 10 && z w 0 12) .anop)
  | 1 => mk (z w 15 5 && immOk 12 0 w) (.jl (r5 w 20) (immOf 12 0 w lit))
  | 2 => mk (immOk 12 0 w) (.jlr (r5 w 20) (r5 w 15) (immOf 12 0 w lit))
  | 3 => noLit l (mk (z w 15 10 && z w 0 12) .wret)
  | 4 => noLit l (mk (z w 20 5 && z w 6 6) (.repRegister (r5 w 15) n))
  | 5 => mk (z w 6 6 && immOk 10 15 w) (.repImmediate (immOf 10 15 w lit) n)
  | _ => .fault Cause.illegalFn

/-- Majors 0x00-0x17 of the A opcode map (05 R152). -/
def decodeA1 (w lit : Nat) : Dec :=
  let l := bit w 31
  match fld w 25 6 with
  | 0x00 => noLit l (decInt w)
  | 0x01 => noLit l (decBit w)
  | 0x02 => decImm w lit .addi
  | 0x03 => decImm w lit .andi
  | 0x04 => decImm w lit .ori
  | 0x05 => decImm w lit .xori
  | 0x06 => noLit l (decShift w)
  | 0x07 => decImm w lit .slti
  | 0x08 => decImm w lit .sltui
  | 0x09 => decConst w lit
  | 0x0A => mk (z w 15 5 && immOk 15 0 w) (.addpc (r5 w 20) (immOf 15 0 w lit))
  | 0x0B => noLit l (decField w .extr)
  | 0x0C => noLit l (decField w .extru)
  | 0x0D => noLit l (decField w .insr)
  | 0x10 => decImm w lit .beq
  | 0x11 => decImm w lit .bne
  | 0x12 => decImm w lit .blt
  | 0x13 => decImm w lit .bge
  | 0x14 => decImm w lit .bltu
  | 0x15 => decImm w lit .bgeu
  | 0x16 => mk (immOk 25 0 w) (.j (immOf 25 0 w lit))
  | 0x17 => mk (immOk 25 0 w) (.wcall (immOf 25 0 w lit))
  | _ => .fault Cause.illegalOpcode

/-- Majors 0x18-0x3F of the A opcode map (05 R152). -/
def decodeA2 (w lit : Nat) : Dec :=
  let l := bit w 31
  match fld w 25 6 with
  | 0x18 => decMem w lit .ldb
  | 0x19 => decMem w lit .ldbu
  | 0x1A => decMem w lit .ldh
  | 0x1B => decMem w lit .ldhu
  | 0x1C => decMem w lit .ldw
  | 0x1D => decMem w lit .ldwu
  | 0x1E => decMem w lit .ldd
  | 0x1F => decMem w lit .stb
  | 0x20 => decMem w lit .sth
  | 0x21 => decMem w lit .stw
  | 0x22 => decMem w lit .std
  | 0x23 => decVmem w lit
  | 0x24 => noLit l (decVer w)
  | 0x25 => noLit l (decSub w)
  | 0x28 => noLit l (decResv w)
  | 0x29 => noLit l (decUpd w)
  | 0x2C => noLit l (decFence w)
  | 0x2D => noLit l (decSeq w)
  | 0x2E => noLit l (decQueue w)
  | 0x30 => noLit l (decTask w)
  | 0x31 => noLit l (decGang w)
  | 0x32 => noLit l (decWait w)
  | 0x34 => noLit l (decState w)
  | 0x35 => noLit l (decSys w)
  | 0x36 => noLit l (decFrozen w)
  | 0x37 => noLit l (decUmp w)
  | 0x38 => noLit l (mk (z w 20 5 && z w 0 10) (.cxrd (r5 w 15) (r5 w 10)))
  | 0x39 => noLit l (mk (z w 20 5 && z w 0 10) (.cxwr (r5 w 15) (r5 w 10)))
  | 0x3F => decMisc w lit
  | _ => .fault Cause.illegalOpcode

/-- Decode an A syllable; lit is the other half of the bundle (05 R143, R144, R146). Only bits [31:0] of w count. -/
def decodeA (w lit : Nat) : Dec :=
  if fld w 0 32 = 0 then .fault Cause.zeroSyllable
  else if fld w 25 6 < 0x18 then decodeA1 w lit
  else decodeA2 w lit

/-- The first source of a B.V operation: QA selects a queue, whose va[4] must be zero (05 R150, 01 R29). -/
def vsrcOf (w : Nat) : VSrc := if bit w 5 then .que (BitVec.ofNat 4 (fld w 16 4)) else .reg (r5 w 16)

/-- va[4] is zero when QA = 1. -/
def vsrcOk (w : Nat) : Bool := !bit w 5 || z w 20 1

/-- A B.V operation with vd, va, vb, k and ew. -/
def bv (w : Nat) (f : R5 → VSrc → R5 → K3 → Ew → Instr) : Dec :=
  mk (vsrcOk w) (f (r5 w 21) (vsrcOf w) (r5 w 11) (k3 w 8) (ewOf (fld w 6 2)))

/-- A B.V operation whose vb is zero. -/
def bu (w : Nat) (f : R5 → VSrc → K3 → Ew → Instr) : Dec :=
  mk (vsrcOk w && z w 11 5) (f (r5 w 21) (vsrcOf w) (k3 w 8) (ewOf (fld w 6 2)))

/-- A B.V operation whose vd names a mask (05 R150). -/
def bk (w : Nat) (f : K3 → VSrc → R5 → K3 → Ew → Instr) : Dec :=
  mk (vsrcOk w && z w 24 2) (f (k3 w 21) (vsrcOf w) (r5 w 11) (k3 w 8) (ewOf (fld w 6 2)))

/-- The floating-point width of ew (05 R162). -/
def fwOf (w : Nat) : Fw := if bit w 6 then .f64 else .f32

/-- Floating-point width code: bit 0 of ew. -/
def Fw.code : Fw → Nat
  | .f32 => 0 | .f64 => 1

/-- Major 0x10 with two sources: ew must be 0b10 or 0b11. -/
def bf (w : Nat) (f : R5 → VSrc → R5 → K3 → Fw → Instr) : Dec :=
  mkChk (vsrcOk w) (bit w 7) (f (r5 w 21) (vsrcOf w) (r5 w 11) (k3 w 8) (fwOf w))

/-- Major 0x10 with one source. -/
def bfu (w : Nat) (f : R5 → VSrc → K3 → Fw → Instr) : Dec :=
  mkChk (vsrcOk w && z w 11 5) (bit w 7) (f (r5 w 21) (vsrcOf w) (k3 w 8) (fwOf w))

/-- Major 0x10 writing a mask. -/
def bfk (w : Nat) (f : K3 → VSrc → R5 → K3 → Fw → Instr) : Dec :=
  mkChk (vsrcOk w && z w 24 2) (bit w 7) (f (k3 w 21) (vsrcOf w) (r5 w 11) (k3 w 8) (fwOf w))

/-- B major 0x00 (05 R162). -/
def decMask (w : Nat) : Dec :=
  let kd := k3 w 21
  let ka := k3 w 16
  let kb := k3 w 11
  let m3 := z w 24 2 && z w 19 2 && z w 14 2 && z w 5 6
  let m2 := z w 24 2 && z w 19 2 && z w 5 11
  match fld w 0 5 with
  | 0 => mk (z w 5 21) .vnop
  | 1 => mk m3 (.kand kd ka kb)
  | 2 => mk m3 (.kor kd ka kb)
  | 3 => mk m3 (.kxor kd ka kb)
  | 4 => mk m2 (.knot kd ka)
  | 5 => mk m2 (.kmov kd ka)
  | _ => .fault Cause.illegalFn

/-- B major 0x01 (05 R162). -/
def decVint (w : Nat) : Dec :=
  match fld w 0 5 with
  | 0x00 => bv w .vadd
  | 0x01 => bv w .vaddSat
  | 0x02 => bv w .vsubVector
  | 0x03 => bv w .vsubSat
  | 0x04 => bv w .vmul
  | 0x05 => bv w .vmulh
  | 0x06 => bv w .vand
  | 0x07 => bv w .vor
  | 0x08 => bv w .vxor
  | 0x09 => bv w .vandn
  | 0x0A => bv w .vsll
  | 0x0B => bv w .vsrl
  | 0x0C => bv w .vsra
  | 0x0D => bv w .vmin
  | 0x0E => bv w .vmax
  | 0x0F => bv w .vminu
  | 0x10 => bv w .vmaxu
  | 0x11 => bu w .vabs
  | 0x12 => bu w .vpopc
  | 0x13 => bv w .vsel
  | 0x14 => bk w .vcmpEq
  | 0x15 => bk w .vcmpNe
  | 0x16 => bk w .vcmpLt
  | 0x17 => bk w .vcmpLe
  | 0x18 => bk w .vcmpLtu
  | 0x19 => bk w .vcmpLeu
  | _ => .fault Cause.illegalFn

/-- B major 0x10 (05 R162). -/
def decVfp (w : Nat) : Dec :=
  match fld w 0 5 with
  | 0x00 => bf w .vfadd
  | 0x01 => bf w .vfsub
  | 0x02 => bf w .vfmul
  | 0x03 => bf w .vfdiv
  | 0x04 => bf w .vfmin
  | 0x05 => bf w .vfmax
  | 0x06 => bfu w .vfsqrt
  | 0x07 => bfu w .vfrcp
  | 0x08 => bfu w .vfrsq
  | 0x09 => bfu w .vfexp2
  | 0x0A => bfu w .vflog2
  | 0x0B => mkChk (vsrcOk w) (bit w 7 && z w 21 1) (.vtsum (r5 w 21) (vsrcOf w) (r5 w 11) (k3 w 8) (fwOf w))
  | 0x0C => bfk w .vfcmpEq
  | 0x0D => bfk w .vfcmpLt
  | 0x0E => bfk w .vfcmpLe
  | 0x0F => bfk w .vfcmpUn
  | 0x10 => bf w .vfsgnCp
  | 0x11 => bf w .vfsgnNeg
  | 0x12 => bf w .vfsgnXor
  | 0x13 => bfu w .vfclass
  | _ => .fault Cause.illegalFn

/-- B majors 0x02, 0x11 and 0x12 (format B.V4; x must be zero). -/
def decV4 (w : Nat) (fp : Bool) (f : R5 → R5 → R5 → R5 → K3 → Nat → Instr) : Dec :=
  mkChk (z w 0 1) (!fp || bit w 2) (f (r5 w 21) (r5 w 16) (r5 w 11) (r5 w 6) (k3 w 3) (fld w 1 2))

/-- B major 0x20, VCVT (05 R151, R163; 04 R124). -/
def decVcvt (w : Nat) : Dec :=
  match fmtOf (fld w 12 4), fmtOf (fld w 8 4) with
  | some src, some dst =>
    if z w 0 1 && vcvtSatOk src dst (bit w 4) then
      if vcvtFormats src dst then
        match rmOf (fld w 5 3) with
        | some rm =>
          if rmOk rm dst then .ins (.vcvt (r5 w 21) (r5 w 16) src dst rm (bit w 4) (k3 w 1))
          else .late Cause.roundModeInvalid
        | none => .late Cause.roundModeInvalid
      else .late Cause.illegalOperand
    else .fault Cause.fieldNonzero
  | _, _ => if z w 0 1 then .late Cause.illegalOperand else .fault Cause.fieldNonzero

/-- VENC and VDEC (B majors 0x21-0x24): the coded side is c8 or c4, the other fp32 (05 R163). -/
def decCode (w : Nat) (enc : Bool) (f : R5 → R5 → Bool → Rm → Bool → K3 → Bool → Instr) : Dec :=
  let coded := if enc then fld w 8 4 else fld w 12 4
  let plain := if enc then fld w 12 4 else fld w 8 4
  if plain = 10 ∧ (coded = 12 ∨ coded = 13) then
    match rmOf (fld w 5 3) with
    | some rm =>
      if enc || rmOk rm .fp32 then .ins (f (r5 w 21) (r5 w 16) (decide (coded = 13)) rm (bit w 4) (k3 w 1) (bit w 0))
      else .late Cause.roundModeInvalid
    | none => .late Cause.roundModeInvalid
  else .late Cause.illegalOperand

/-- VRED and VSCAN. -/
def decRed (w : Nat) (f : R5 → VSrc → RedKind → K3 → Ew → Instr) : Dec :=
  if vsrcOk w then
    match redOf (fld w 11 5) with
    | some kd =>
      if redOk kd (ewOf (fld w 6 2)) then .ins (f (r5 w 21) (vsrcOf w) kd (k3 w 8) (ewOf (fld w 6 2)))
      else .late Cause.illegalOperand
    | none => .late Cause.illegalOperand
  else .fault Cause.fieldNonzero

/-- ew is 0b11. -/
def e64Ok (w : Nat) : Bool := decide (fld w 6 2 = 3)

/-- B major 0x28 (05 R162). -/
def decPerm (w : Nat) : Dec :=
  let ew := ewOf (fld w 6 2)
  match fld w 0 5 with
  | 0x0 => bv w .vperm
  | 0x1 => mk (z w 11 5 && z w 5 1) (.vbcast (r5 w 21) (r5 w 16) (k3 w 8) ew)
  | 0x2 => mk (vsrcOk w && z w 8 3) (.vext (r5 w 21) (vsrcOf w) (r5 w 11) ew)
  | 0x3 => mk (z w 8 3 && z w 5 1) (.vins (r5 w 21) (r5 w 16) (r5 w 11) ew)
  | 0x4 => bv w .vslideUp
  | 0x5 => bv w .vslideDn
  | 0x6 => decRed w .vred
  | 0x7 => decRed w .vscan
  | 0x8 => bu w .vcmprs
  | 0x9 => mkChk (vsrcOk w && z w 8 8) (e64Ok w) (.vsortA (r5 w 21) (vsrcOf w))
  | 0xA => mkChk (vsrcOk w && z w 8 8) (e64Ok w) (.vsortD (r5 w 21) (vsrcOf w))
  | 0xB => mkChk (vsrcOk w && z w 8 3) (e64Ok w && z w 21 1) (.vmergeA (r5 w 21) (vsrcOf w) (r5 w 11))
  | 0xC => mkChk (vsrcOk w && z w 8 3) (e64Ok w && z w 21 1) (.vmergeD (r5 w 21) (vsrcOf w) (r5 w 11))
  | _ => .fault Cause.illegalFn

/-- A matrix operand source (05 R163). -/
def msrcOf (w lo : Nat) : MSrc :=
  if bit w (lo + 4) then .regs (BitVec.ofNat 2 (fld w lo 2)) else .que (BitVec.ofNat 4 (fld w lo 4))

/-- qa[3:2] is zero for a register source. -/
def msrcOk (w lo : Nat) : Bool := !bit w (lo + 4) || z w (lo + 2) 2

/-- B majors 0x30-0x32 (05 R161); ILLEGAL_OPCODE on a core without a matrix pipe (09 R262). -/
def decMatrix (w : Nat) : Dec :=
  match fld w 26 6 with
  | 0x30 => mkChk (msrcOk w 21 && msrcOk w 16) (mmasOk (msrcOf w 21) (msrcOf w 16))
      (.mmas (msrcOf w 21) (msrcOf w 16) (BitVec.ofNat 12 (fld w 4 12)) (bit w 3) (bit w 2) (bit w 1) (bit w 0))
  | 0x31 => mk (z w 16 10 && z w 0 4) (.mzero (BitVec.ofNat 12 (fld w 4 12)))
  | _ => mkChk (z w 2 24) (bit w 1 || bit w 0) (.mtab (bit w 1) (bit w 0))

/-- Decode a B syllable (05 R161). `pipe` says whether the core has a matrix pipe. -/
def decodeB (pipe : Bool) (w : Nat) : Dec :=
  match fld w 26 6 with
  | 0x00 => decMask w
  | 0x01 => decVint w
  | 0x02 => decV4 w false fun d a b c k e => .vmadd d a b c k (ewOf e)
  | 0x10 => decVfp w
  | 0x11 => decV4 w true fun d a b c k _ => .vfma d a b c k (if bit w 1 then .f64 else .f32)
  | 0x12 => decV4 w true fun d a b c k _ => .vfnma d a b c k (if bit w 1 then .f64 else .f32)
  | 0x20 => decVcvt w
  | 0x21 => decCode w true .venc
  | 0x22 => decCode w false .vdec
  | 0x23 => decCode w true .vencS
  | 0x24 => decCode w false .vdecS
  | 0x25 =>
    if fld w 0 5 = 0 then
      mkChk (vsrcOk w && z w 11 5) (decide (fld w 6 2 = 2)) (.vfkey (r5 w 21) (vsrcOf w) (k3 w 8))
    else .fault Cause.illegalFn
  | 0x28 => decPerm w
  | 0x30 => if pipe then decMatrix w else .fault Cause.illegalOpcode
  | 0x31 => if pipe then decMatrix w else .fault Cause.illegalOpcode
  | 0x32 => if pipe then decMatrix w else .fault Cause.illegalOpcode
  | 0x34 => mk (z w 25 1 && z w 0 16) (.vqpush (BitVec.ofNat 4 (fld w 21 4)) (r5 w 16))
  | _ => .fault Cause.illegalOpcode

/-- A register named for the write-conflict rule of 05 R142. -/
inductive WReg where
  | g (n : R5) | v (n : R5) | k (n : K3) | pop (q : Q4) | push (q : Q4)
  deriving DecidableEq, Repr

/-- A pop made by a vector source. -/
def VSrc.pops : VSrc → List WReg
  | .reg _ => []
  | .que q => [.pop q]

/-- A pop made by a matrix source. -/
def MSrc.pops : MSrc → List WReg
  | .regs _ => []
  | .que q => [.pop q]

/-- A run of vector registers. -/
def vrun (v : R5) (n : Nat) : List WReg := (List.range n).map fun i => .v (v + BitVec.ofNat 5 i)

/-- A run of general registers. -/
def grun (a n : Nat) : List WReg := (List.range n).map fun i => .g (BitVec.ofNat 5 (a + i))

/-- What an A syllable writes, pops and pushes (05 R142). NRET's exchange writes g8-g15 (01 R30) and the frame that TEXIT resumes writes
g11-g15 (10 R295): both count (log 49). -/
def writesA : Instr → List WReg
  | .add d _ _ _ | .sub d _ _ _ | .mul d _ _ _ => [.g d]
  | .mulh d _ _ | .mulhu d _ _ | .div d _ _ | .divu d _ _ | .rem d _ _ | .remu d _ _ | .and d _ _ | .or d _ _
  | .xor d _ _ | .andn d _ _ | .orn d _ _ | .sll d _ _ | .srl d _ _ | .sra d _ _ | .rol d _ _ | .ror d _ _
  | .min d _ _ | .max d _ _ | .minu d _ _ | .maxu d _ _ | .slt d _ _ | .sltu d _ _ | .seq d _ _ | .sne d _ _
  | .sel d _ _ | .adds d _ _ _ => [.g d]
  | .clz d _ | .ctz d _ | .popc d _ | .brev d _ | .bswap d _ => [.g d]
  | .addi d _ _ | .andi d _ _ | .ori d _ _ | .xori d _ _ | .slti d _ _ | .sltui d _ _
  | .slli d _ _ | .srli d _ _ | .srai d _ _ => [.g d]
  | .lui d _ | .lit d _ | .lith d _ | .addpc d _ => [.g d]
  | .extr d _ _ _ | .extru d _ _ _ | .insr d _ _ _ => [.g d]
  | .wcall _ => [.g 31]
  | .ldb d _ _ _ | .ldbu d _ _ _ | .ldh d _ _ _ | .ldhu d _ _ _ | .ldw d _ _ _ | .ldwu d _ _ _ | .ldd d _ _ _ => [.g d]
  | .vld v _ _ _ _ | .vlds v _ _ _ _ _ | .vgath v _ _ _ _ _ | .vldb v _ _ _ _ => [.v v]
  | .vldt v _ _ e => vrun v (if e then 8 else 16)
  | .vdraftNew d _ _ _ | .vdraftJoin d _ _ | .vlatest d _ => [.g d]
  | .lrw d _ _ | .amo d _ _ _ _ | .acas d _ _ _ | .odecl d _ _ _ _ | .sqrd d _ => [.g d]
  | .qpush q _ => [.push q]
  | .qpop d q => [.g d, .pop q]
  | .qstat d _ => [.g d]
  | .spawn _ _ => [.g 14]
  | .steal d _ | .bar d _ _ | .barw d | .mfs d _ => [.g d]
  | .frdReg d _ _ _ | .frdState d _ _ | .frq d _ _ => [.g d]
  | .frdv v _ _ => [.v v]
  | .jl d _ | .jlr d _ _ => [.g d]
  | .qpushc _ _ => [.push 4]
  | .msg _ _ => [.push 6]
  | .nret => grun 8 8
  | .texit => grun 11 5
  | _ => []

/-- What a B syllable writes, pops and pushes (05 R142). -/
def writesB : Instr → List WReg
  | .kand d _ _ | .kor d _ _ | .kxor d _ _ | .knot d _ | .kmov d _ => [.k d]
  | .vadd d a _ _ _ | .vaddSat d a _ _ _ | .vsubVector d a _ _ _ | .vsubSat d a _ _ _ | .vmul d a _ _ _
  | .vmulh d a _ _ _ | .vand d a _ _ _ | .vor d a _ _ _ | .vxor d a _ _ _ | .vandn d a _ _ _ | .vsll d a _ _ _
  | .vsrl d a _ _ _ | .vsra d a _ _ _ | .vmin d a _ _ _ | .vmax d a _ _ _ | .vminu d a _ _ _ | .vmaxu d a _ _ _
  | .vsel d a _ _ _ | .vperm d a _ _ _ | .vslideUp d a _ _ _ | .vslideDn d a _ _ _ => .v d :: a.pops
  | .vabs d a _ _ | .vpopc d a _ _ | .vcmprs d a _ _ => .v d :: a.pops
  | .vcmpEq d a _ _ _ | .vcmpNe d a _ _ _ | .vcmpLt d a _ _ _ | .vcmpLe d a _ _ _ | .vcmpLtu d a _ _ _
  | .vcmpLeu d a _ _ _ => .k d :: a.pops
  | .vmadd d _ _ _ _ _ | .vfma d _ _ _ _ _ | .vfnma d _ _ _ _ _ => [.v d]
  | .vfadd d a _ _ _ | .vfsub d a _ _ _ | .vfmul d a _ _ _ | .vfdiv d a _ _ _ | .vfmin d a _ _ _ | .vfmax d a _ _ _
  | .vfsgnCp d a _ _ _ | .vfsgnNeg d a _ _ _ | .vfsgnXor d a _ _ _ => .v d :: a.pops
  | .vfsqrt d a _ _ | .vfrcp d a _ _ | .vfrsq d a _ _ | .vfexp2 d a _ _ | .vflog2 d a _ _ | .vfclass d a _ _ =>
    .v d :: a.pops
  | .vtsum d a _ _ _ => .v d :: .v (d + 1) :: a.pops
  | .vfcmpEq d a _ _ _ | .vfcmpLt d a _ _ _ | .vfcmpLe d a _ _ _ | .vfcmpUn d a _ _ _ => .k d :: a.pops
  | .vcvt d _ _ _ _ _ _ => [.v d]
  | .venc d _ _ _ _ _ _ | .vdec d _ _ _ _ _ _ | .vencS d _ _ _ _ _ _ | .vdecS d _ _ _ _ _ _ => [.v d]
  | .vfkey d a _ => .v d :: a.pops
  | .vbcast d _ _ _ | .vins d _ _ _ => [.v d]
  | .vext d a _ _ => .g d :: a.pops
  | .vred d a _ _ _ | .vscan d a _ _ _ => .v d :: a.pops
  | .vsortA d a | .vsortD d a => .v d :: a.pops
  | .vmergeA d a _ | .vmergeD d a _ => .v d :: .v (d + 1) :: a.pops
  | .mmas qa qb _ _ _ g f => qa.pops ++ qb.pops ++ (if f then [.push 1] else []) ++ (if g then [.push 2] else [])
  | .vqpush q _ => [.push q]
  | _ => []

/-- The queue of a vector source (08 R232); the operands of MMAS are no QA source. -/
def qaOf (b : Instr) : Option Q4 :=
  match b with
  | .mmas _ _ _ _ _ _ _ => none
  | _ => (writesB b).findSome? fun
    | .pop q => some q
    | _ => none

/-- Writes to g0 and k0 never conflict (05 R142). -/
def WReg.counts : WReg → Bool
  | .g n => !decide (n = 0)
  | .k n => !decide (n = 0)
  | _ => true

/-- BUNDLE_WRITE_CONFLICT (05 R142). -/
def conflict (a b : Instr) : Bool := (writesA a).any fun x => x.counts && (writesB b).contains x

/-- CXRD and CXWR need a cox core (05 R145). -/
def needsCox : Instr → Bool
  | .cxrd _ _ | .cxwr _ _ => true
  | _ => false

/-- A decoded bundle, or the first failing check with the syllable that raised it (05 R146). -/
inductive Decoded where
  | bad (c : Cause) (bsyl : Bool)
  | good (a b : Instr)
  deriving DecidableEq, Repr

/-- Decode both halves of a bundle in the order of 05 R146 (steps 2-8). -/
def decodeBundle (pipe cox : Bool) (aw bw : Nat) : Decoded :=
  match decodeA aw bw with
  | .fault c => .bad c false
  | da =>
    match (if bit aw 31 then .ins .vnop else decodeB pipe bw) with
    | .fault c => .bad c true
    | db =>
      match da, db with
      | .late c, _ => .bad c false
      | _, .late c => .bad c true
      | .ins a, .ins b =>
        if needsCox a && !cox then .bad Cause.coxOnly false
        else if conflict a b then .bad Cause.bundleWriteConflict false
        else .good a b
      | _, _ => .bad Cause.illegalOpcode false

/-- The syllable of ANOP (05 R144). -/
def anopWord : Nat := 0x7E000000

/-- The instruction read from one 32-bit word alone: as a B syllable beside ANOP, and where no B syllable has those bits, as an
A syllable whose B is all zero (VNOP, or a zero literal). The table gives both slots 32-bit words and some bit patterns mean one
thing in each slot; the B reading comes first (log 16). -/
def decodeTableWord (_nbits w : Nat) : Option Instr :=
  match decodeB true w with
  | .ins i => some i
  | _ =>
    match decodeA w 0 with
    | .ins i => some i
    | _ => none

/-- Truth as a bit. -/
def b2n (b : Bool) : Nat := if b then 1 else 0

/-- Bit fields joined: x above the k low bits y. -/
def cat (x k y : Nat) : Nat := x * 2 ^ k + y

/-- The L bit of an immediate. -/
def Imm.lbit {n : Nat} : Imm n → Nat
  | .fld _ => 0
  | .lit _ => 1

/-- The field bits of an immediate. -/
def Imm.field {n : Nat} : Imm n → Nat
  | .fld x => x.toNat
  | .lit _ => 0

/-- The literal word of an immediate. -/
def Imm.word {n : Nat} : Imm n → Nat
  | .fld _ => 0
  | .lit x => x.toNat

/-- Major, two registers and a 15-bit field (05 R147). -/
def aW (maj : Nat) (d a : R5) (x : Nat) : Nat := cat maj 25 (cat d.toNat 20 (cat a.toNat 15 x))

/-- Format A.R: major, d, a, b, fn (05 R147). -/
def aR (maj : Nat) (d a b : R5) (fn : Nat) : Nat := aW maj d a (cat b.toNat 10 fn)

/-- Format A.I or A.B with an immediate of 15 bits. -/
def aI (maj : Nat) (d a : R5) (imm : Imm 15) : Nat := cat imm.lbit 31 (aW maj d a imm.field)

/-- Format A.M of the scalar loads and stores. -/
def aM (maj : Nat) (d b : R5) (rq : Rq) (off : Imm 13) : Nat := cat off.lbit 31 (aW maj d b (cat rq.code 13 off.field))

/-- Major 0x23 (05 R154): L, v or g register, base, rq, op and the low nine bits. -/
def aV (l : Nat) (v b : R5) (rq : Rq) (op low : Nat) : Nat := cat l 31 (aW 0x23 v b (cat rq.code 13 (cat op 9 low)))

/-- The va field of a QA source. -/
def VSrc.code : VSrc → Nat
  | .reg r => r.toNat
  | .que q => q.toNat

/-- The QA bit of a source. -/
def VSrc.qa : VSrc → Nat
  | .reg _ => 0
  | .que _ => 1

/-- Format B.V (05 R149). -/
def bV (maj vd : Nat) (va : VSrc) (vb : Nat) (k : K3) (ew fn : Nat) : Nat :=
  cat maj 26 (cat vd 21 (cat va.code 16 (cat vb 11 (cat k.toNat 8 (cat ew 6 (cat va.qa 5 fn))))))

/-- Format B.V4 (05 R149). -/
def bV4 (maj : Nat) (d a b c : R5) (k : K3) (ew : Nat) : Nat :=
  cat maj 26 (cat d.toNat 21 (cat a.toNat 16 (cat b.toNat 11 (cat c.toNat 6 (cat k.toNat 3 (cat ew 1 0))))))

/-- Format B.C (05 R149). -/
def bC (maj : Nat) (d a : R5) (src dst rm : Nat) (sat : Bool) (k : K3) (x : Bool) : Nat :=
  cat maj 26 (cat d.toNat 21 (cat a.toNat 16 (cat src 12 (cat dst 8 (cat rm 5 (cat (b2n sat) 4 (cat k.toNat 1 (b2n x))))))))

/-- A matrix source field. -/
def MSrc.bits : MSrc → Nat
  | .que q => q.toNat
  | .regs g => cat 1 4 g.toNat

/-- The annotation of SQWAIT and SQINC: 0 relaxed, else its kind (05 R157). -/
def annKind (kind : Nat) : Option Scope → Nat
  | none => 0
  | some _ => kind

/-- The scope field of an annotation. -/
def annScope : Option Scope → Nat
  | none => 0
  | some s => s.code

/-- Encode an instruction as the two words of a bundle, its own syllable and ANOP, VNOP or its literal in the other
(05 R147-R163). The part's own steps have no encoding. -/
def encode : Instr → Option (Nat × Nat)
  | .add d a b s => some (aR 0x00 d a b (cat (b2n s) 9 0), 0)
  | .sub d a b s => some (aR 0x00 d a b (cat (b2n s) 9 1), 0)
  | .mul d a b s => some (aR 0x00 d a b (cat (b2n s) 9 2), 0)
  | .mulh d a b => some (aR 0x00 d a b 3, 0)
  | .mulhu d a b => some (aR 0x00 d a b 4, 0)
  | .div d a b => some (aR 0x00 d a b 5, 0)
  | .divu d a b => some (aR 0x00 d a b 6, 0)
  | .rem d a b => some (aR 0x00 d a b 7, 0)
  | .remu d a b => some (aR 0x00 d a b 8, 0)
  | .and d a b => some (aR 0x00 d a b 9, 0)
  | .or d a b => some (aR 0x00 d a b 10, 0)
  | .xor d a b => some (aR 0x00 d a b 11, 0)
  | .andn d a b => some (aR 0x00 d a b 12, 0)
  | .orn d a b => some (aR 0x00 d a b 13, 0)
  | .sll d a b => some (aR 0x00 d a b 14, 0)
  | .srl d a b => some (aR 0x00 d a b 15, 0)
  | .sra d a b => some (aR 0x00 d a b 16, 0)
  | .rol d a b => some (aR 0x00 d a b 17, 0)
  | .ror d a b => some (aR 0x00 d a b 18, 0)
  | .min d a b => some (aR 0x00 d a b 19, 0)
  | .max d a b => some (aR 0x00 d a b 20, 0)
  | .minu d a b => some (aR 0x00 d a b 21, 0)
  | .maxu d a b => some (aR 0x00 d a b 22, 0)
  | .slt d a b => some (aR 0x00 d a b 23, 0)
  | .sltu d a b => some (aR 0x00 d a b 24, 0)
  | .seq d a b => some (aR 0x00 d a b 25, 0)
  | .sne d a b => some (aR 0x00 d a b 26, 0)
  | .clz d a => some (aR 0x01 d a 0 0, 0)
  | .ctz d a => some (aR 0x01 d a 0 1, 0)
  | .popc d a => some (aR 0x01 d a 0 2, 0)
  | .brev d a => some (aR 0x01 d a 0 3, 0)
  | .bswap d a => some (aR 0x01 d a 0 4, 0)
  | .sel d a b => some (aR 0x01 d a b 5, 0)
  | .adds d a b sh => some (aR 0x01 d a b (cat sh.toNat 8 6), 0)
  | .addi d a i => some (aI 0x02 d a i, i.word)
  | .andi d a i => some (aI 0x03 d a i, i.word)
  | .ori d a i => some (aI 0x04 d a i, i.word)
  | .xori d a i => some (aI 0x05 d a i, i.word)
  | .slti d a i => some (aI 0x07 d a i, i.word)
  | .sltui d a i => some (aI 0x08 d a i, i.word)
  | .beq d a i => some (aI 0x10 d a i, i.word)
  | .bne d a i => some (aI 0x11 d a i, i.word)
  | .blt d a i => some (aI 0x12 d a i, i.word)
  | .bge d a i => some (aI 0x13 d a i, i.word)
  | .bltu d a i => some (aI 0x14 d a i, i.word)
  | .bgeu d a i => some (aI 0x15 d a i, i.word)
  | .slli d a sh => some (aW 0x06 d a (cat 0 6 sh.toNat), 0)
  | .srli d a sh => some (aW 0x06 d a (cat 1 6 sh.toNat), 0)
  | .srai d a sh => some (aW 0x06 d a (cat 2 6 sh.toNat), 0)
  | .lui d i => some (aW 0x09 d 0 i.toNat, 0)
  | .lit d x => some (cat 1 31 (aW 0x09 d 1 0), x.toNat)
  | .lith d x => some (cat 1 31 (aW 0x09 d 2 0), x.toNat)
  | .addpc d i => some (aI 0x0A d 0 i, i.word)
  | .extr d a n p => some (aW 0x0B d a (cat n.toNat 6 p.toNat), 0)
  | .extru d a n p => some (aW 0x0C d a (cat n.toNat 6 p.toNat), 0)
  | .insr d a n p => some (aW 0x0D d a (cat n.toNat 6 p.toNat), 0)
  | .j o => some (cat o.lbit 31 (cat 0x16 25 o.field), o.word)
  | .wcall o => some (cat o.lbit 31 (cat 0x17 25 o.field), o.word)
  | .ldb d b q o => some (aM 0x18 d b q o, o.word)
  | .ldbu d b q o => some (aM 0x19 d b q o, o.word)
  | .ldh d b q o => some (aM 0x1A d b q o, o.word)
  | .ldhu d b q o => some (aM 0x1B d b q o, o.word)
  | .ldw d b q o => some (aM 0x1C d b q o, o.word)
  | .ldwu d b q o => some (aM 0x1D d b q o, o.word)
  | .ldd d b q o => some (aM 0x1E d b q o, o.word)
  | .stb d b q o => some (aM 0x1F d b q o, o.word)
  | .sth d b q o => some (aM 0x20 d b q o, o.word)
  | .stw d b q o => some (aM 0x21 d b q o, o.word)
  | .std d b q o => some (aM 0x22 d b q o, o.word)
  | .vld v b q o k => some (aV o.lbit v b q 0 (cat o.field 3 k.toNat), o.word)
  | .vst v b q o k => some (aV o.lbit v b q 1 (cat o.field 3 k.toNat), o.word)
  | .vlds v b q t k e => some (aV 0 v b q 2 (cat t.toNat 4 (cat k.toNat 1 (b2n e))), 0)
  | .vsts v b q t k e => some (aV 0 v b q 3 (cat t.toNat 4 (cat k.toNat 1 (b2n e))), 0)
  | .vgath v b q t k e => some (aV 0 v b q 4 (cat t.toNat 4 (cat k.toNat 1 (b2n e))), 0)
  | .vscat v b q t k e => some (aV 0 v b q 5 (cat t.toNat 4 (cat k.toNat 1 (b2n e))), 0)
  | .vldb v b q ew o => some (aV o.lbit v b q 6 (cat ew.code 7 o.field), o.word)
  | .vldt v b q e => some (aV 0 v b q 7 (cat (b2n e) 8 0), 0)
  | .pf b q o => some (aV o.lbit 0 b q 8 (cat o.field 3 0), o.word)
  | .cflush b q o => some (aV o.lbit 0 b q 9 (cat o.field 3 0), o.word)
  | .xswap n b q => some (aV 0 n b q 10 0, 0)
  | .vmap a b w => some (aR 0x24 0 a b (cat 0 4 w.toNat), 0)
  | .vmapRel a b w => some (aR 0x24 0 a b (cat 1 4 w.toNat), 0)
  | .vunmap w => some (aR 0x24 0 0 0 (cat 2 4 w.toNat), 0)
  | .vdraftNew d a c w => some (aW 0x24 d a (cat c.code 10 (cat 3 4 w.toNat)), 0)
  | .vdraftJoin d a w => some (aR 0x24 d a 0 (cat 4 4 w.toNat), 0)
  | .vpub a w => some (aR 0x24 0 a 0 (cat 5 4 w.toNat), 0)
  | .vdone w => some (aR 0x24 0 0 0 (cat 6 4 w.toNat), 0)
  | .vlatest d a => some (aR 0x24 d a 0 (cat 7 4 0), 0)
  | .vsub a s => some (aW 0x25 0 a s.toNat, 0)
  | .vunsub a s => some (aW 0x25 1 a s.toNat, 0)
  | .vretain a k => some (aW 0x25 2 a k.toNat, 0)
  | .vdrop a => some (aW 0x25 3 a 0, 0)
  | .lrw d a w => some (aR 0x28 d a 0 (cat 0 5 (cat (b2n w) 4 0)), 0)
  | .sch a b w => some (aR 0x28 0 a b (cat 1 5 (cat (b2n w) 4 0)), 0)
  | .rls a => some (aR 0x28 0 a 0 (cat 2 5 0), 0)
  | .amo d a b w o => some (aR 0x28 d a b (cat 3 5 (cat (b2n w) 4 o.code)), 0)
  | .acas d a b w => some (aR 0x28 d a b (cat 4 5 (cat (b2n w) 4 0)), 0)
  | .ured a b t => some (aR 0x29 0 a b (cat 0 7 t.toNat), 0)
  | .uredv a v k t => some (aR 0x29 0 a v (cat 1 7 (cat k.toNat 4 t.toNat)), 0)
  | .odecl d a n l t => some (aR 0x29 d a 0 (cat 2 7 (cat (b2n n) 6 (cat (b2n l) 5 t.toNat))), 0)
  | .ofree a => some (aR 0x29 0 a 0 (cat 3 7 0), 0)
  | .fenceAcq s => some (aW 0x2C 0 0 (cat 0 3 s.code), 0)
  | .fenceLl s => some (aW 0x2C 0 0 (cat 1 3 s.code), 0)
  | .fenceRel s => some (aW 0x2C 0 0 (cat 2 3 s.code), 0)
  | .fenceFull s => some (aW 0x2C 0 0 (cat 3 3 s.code), 0)
  | .sqwait a s q => some (aW 0x2D 0 a (cat (annKind 1 s) 13 (cat (annScope s) 10 (cat 0 8 q.toNat))), 0)
  | .sqinc i s q => some (cat 0x2D 25 (cat i.toNat 15 (cat (annKind 2 s) 13 (cat (annScope s) 10 (cat 1 8 q.toNat)))), 0)
  | .sqrd d q => some (aR 0x2D d 0 0 (cat 2 8 q.toNat), 0)
  | .qpush q a => some (cat 0x2E 25 (cat q.toNat 20 (cat a.toNat 15 0)), 0)
  | .qpop d q => some (cat 0x2E 25 (cat d.toNat 20 (cat q.toNat 15 (cat 1 4 0))), 0)
  | .qstat d q => some (cat 0x2E 25 (cat d.toNat 20 (cat q.toNat 15 (cat 2 4 0))), 0)
  | .qpushc v h => some (aR 0x2E 4 0 v (cat 3 4 (b2n h)), 0)
  | .msg a b => some (aR 0x2E 0 a b (cat 4 4 0), 0)
  | .spawn a b => some (aR 0x30 0 a b (cat 0 4 0), 0)
  | .join a => some (aR 0x30 0 a 0 (cat 1 4 0), 0)
  | .steal d a => some (aR 0x30 d a 0 (cat 2 4 0), 0)
  | .taskw a => some (aR 0x30 0 a 0 (cat 3 4 0), 0)
  | .texit => some (aR 0x30 0 0 0 (cat 4 4 0), 0)
  | .launch a => some (aR 0x30 0 a 0 (cat 5 4 0), 0)
  | .vtrig a b => some (aR 0x30 0 a b (cat 6 4 0), 0)
  | .gang dir nc => some (aR 0x31 0 0 0 (cat 0 4 (cat (b2n dir) 2 nc.toNat)), 0)
  | .ungang => some (aR 0x31 0 0 0 (cat 1 4 0), 0)
  | .bar d a e => some (aR 0x31 d a 0 (cat 2 4 (b2n e)), 0)
  | .bara => some (aR 0x31 0 0 0 (cat 3 4 0), 0)
  | .barw d => some (aR 0x31 d 0 0 (cat 4 4 0), 0)
  | .nret => some (aR 0x32 0 0 0 (cat 0 4 0), 0)
  | .wait => some (aR 0x32 0 0 0 (cat 1 4 0), 0)
  | .yield => some (aR 0x32 0 0 0 (cat 2 4 0), 0)
  | .mfs d s => some (aW 0x34 d 0 (cat 0 12 s.toNat), 0)
  | .mts a s => some (aW 0x34 0 a (cat 1 12 s.toNat), 0)
  | .ecall => some (aR 0x35 0 0 0 (cat 0 4 0), 0)
  | .brk => some (aR 0x35 0 0 0 (cat 1 4 0), 0)
  | .trmark a => some (aR 0x35 0 a 0 (cat 2 4 0), 0)
  | .halt => some (aR 0x35 0 0 0 (cat 3 4 0), 0)
  | .frdReg d c k n => some (cat 0x36 25 (cat d.toNat 20 (cat c.toNat 15 (cat 0 12 (cat (b2n k) 5 n.toNat)))), 0)
  | .frdState d c s => some (cat 0x36 25 (cat d.toNat 20 (cat c.toNat 15 (cat 1 12 s.toNat))), 0)
  | .fwrReg c a k n => some (cat 0x36 25 (cat c.toNat 20 (cat a.toNat 15 (cat 2 12 (cat (b2n k) 5 n.toNat)))), 0)
  | .fwrState c a s => some (cat 0x36 25 (cat c.toNat 20 (cat a.toNat 15 (cat 3 12 s.toNat))), 0)
  | .frdv v c n => some (cat 0x36 25 (cat v.toNat 20 (cat c.toNat 15 (cat 4 12 n.toNat))), 0)
  | .fwrv c v n => some (cat 0x36 25 (cat c.toNat 20 (cat v.toNat 15 (cat 5 12 n.toNat))), 0)
  | .frq d c i => some (cat 0x36 25 (cat d.toNat 20 (cat c.toNat 15 (cat 6 12 i.toNat))), 0)
  | .fresRetry c => some (aW 0x37 0 0 (cat c.toNat 10 (cat 0 4 0)), 0)
  | .fresSkip c => some (aW 0x37 0 0 (cat c.toNat 10 (cat 0 4 1)), 0)
  | .fresRedirect a c => some (aW 0x37 0 a (cat c.toNat 10 (cat 0 4 2)), 0)
  | .fkillAbandon c => some (aW 0x37 0 0 (cat c.toNat 10 (cat 1 4 0)), 0)
  | .fkillCount c => some (aW 0x37 0 0 (cat c.toNat 10 (cat 1 4 1)), 0)
  | .capxfer a c => some (aW 0x37 0 a (cat c.toNat 10 (cat 2 4 0)), 0)
  | .capdrop c => some (aW 0x37 0 0 (cat c.toNat 10 (cat 3 4 0)), 0)
  | .uexit => some (aW 0x37 0 0 (cat 0 10 (cat 4 4 0)), 0)
  | .cxrd a b => some (aR 0x38 0 a b 0, 0)
  | .cxwr a b => some (aR 0x39 0 a b 0, 0)
  | .anop => some (anopWord, 0)
  | .jl d o => some (cat o.lbit 31 (aW 0x3F d 0 (cat 1 12 o.field)), o.word)
  | .jlr d a o => some (cat o.lbit 31 (aW 0x3F d a (cat 2 12 o.field)), o.word)
  | .wret => some (aW 0x3F 0 0 (cat 3 12 0), 0)
  | .repRegister a n => some (aW 0x3F 0 a (cat 4 12 n.toNat), 0)
  | .repImmediate c n => some (cat c.lbit 31 (cat 0x3F 25 (cat c.field 15 (cat 5 12 n.toNat))), c.word)
  | .vnop => some (anopWord, 0)
  | .kand d a b => some (anopWord, cat 0 26 (cat d.toNat 21 (cat a.toNat 16 (cat b.toNat 11 1))))
  | .kor d a b => some (anopWord, cat 0 26 (cat d.toNat 21 (cat a.toNat 16 (cat b.toNat 11 2))))
  | .kxor d a b => some (anopWord, cat 0 26 (cat d.toNat 21 (cat a.toNat 16 (cat b.toNat 11 3))))
  | .knot d a => some (anopWord, cat 0 26 (cat d.toNat 21 (cat a.toNat 16 4)))
  | .kmov d a => some (anopWord, cat 0 26 (cat d.toNat 21 (cat a.toNat 16 5)))
  | .vadd d a b k e => some (anopWord, bV 0x01 d.toNat a b.toNat k (e.code) 0)
  | .vaddSat d a b k e => some (anopWord, bV 0x01 d.toNat a b.toNat k (e.code) 1)
  | .vsubVector d a b k e => some (anopWord, bV 0x01 d.toNat a b.toNat k (e.code) 2)
  | .vsubSat d a b k e => some (anopWord, bV 0x01 d.toNat a b.toNat k (e.code) 3)
  | .vmul d a b k e => some (anopWord, bV 0x01 d.toNat a b.toNat k (e.code) 4)
  | .vmulh d a b k e => some (anopWord, bV 0x01 d.toNat a b.toNat k (e.code) 5)
  | .vand d a b k e => some (anopWord, bV 0x01 d.toNat a b.toNat k (e.code) 6)
  | .vor d a b k e => some (anopWord, bV 0x01 d.toNat a b.toNat k (e.code) 7)
  | .vxor d a b k e => some (anopWord, bV 0x01 d.toNat a b.toNat k (e.code) 8)
  | .vandn d a b k e => some (anopWord, bV 0x01 d.toNat a b.toNat k (e.code) 9)
  | .vsll d a b k e => some (anopWord, bV 0x01 d.toNat a b.toNat k (e.code) 10)
  | .vsrl d a b k e => some (anopWord, bV 0x01 d.toNat a b.toNat k (e.code) 11)
  | .vsra d a b k e => some (anopWord, bV 0x01 d.toNat a b.toNat k (e.code) 12)
  | .vmin d a b k e => some (anopWord, bV 0x01 d.toNat a b.toNat k (e.code) 13)
  | .vmax d a b k e => some (anopWord, bV 0x01 d.toNat a b.toNat k (e.code) 14)
  | .vminu d a b k e => some (anopWord, bV 0x01 d.toNat a b.toNat k (e.code) 15)
  | .vmaxu d a b k e => some (anopWord, bV 0x01 d.toNat a b.toNat k (e.code) 16)
  | .vabs d a k e => some (anopWord, bV 0x01 d.toNat a 0 k (e.code) 17)
  | .vpopc d a k e => some (anopWord, bV 0x01 d.toNat a 0 k (e.code) 18)
  | .vsel d a b k e => some (anopWord, bV 0x01 d.toNat a b.toNat k (e.code) 19)
  | .vcmpEq d a b k e => some (anopWord, bV 0x01 d.toNat a b.toNat k (e.code) 20)
  | .vcmpNe d a b k e => some (anopWord, bV 0x01 d.toNat a b.toNat k (e.code) 21)
  | .vcmpLt d a b k e => some (anopWord, bV 0x01 d.toNat a b.toNat k (e.code) 22)
  | .vcmpLe d a b k e => some (anopWord, bV 0x01 d.toNat a b.toNat k (e.code) 23)
  | .vcmpLtu d a b k e => some (anopWord, bV 0x01 d.toNat a b.toNat k (e.code) 24)
  | .vcmpLeu d a b k e => some (anopWord, bV 0x01 d.toNat a b.toNat k (e.code) 25)
  | .vmadd d a b c k e => some (anopWord, bV4 0x02 d a b c k e.code)
  | .vfadd d a b k e => some (anopWord, bV 0x10 d.toNat a b.toNat k (cat 1 1 e.code) 0)
  | .vfsub d a b k e => some (anopWord, bV 0x10 d.toNat a b.toNat k (cat 1 1 e.code) 1)
  | .vfmul d a b k e => some (anopWord, bV 0x10 d.toNat a b.toNat k (cat 1 1 e.code) 2)
  | .vfdiv d a b k e => some (anopWord, bV 0x10 d.toNat a b.toNat k (cat 1 1 e.code) 3)
  | .vfmin d a b k e => some (anopWord, bV 0x10 d.toNat a b.toNat k (cat 1 1 e.code) 4)
  | .vfmax d a b k e => some (anopWord, bV 0x10 d.toNat a b.toNat k (cat 1 1 e.code) 5)
  | .vfsqrt d a k e => some (anopWord, bV 0x10 d.toNat a 0 k (cat 1 1 e.code) 6)
  | .vfrcp d a k e => some (anopWord, bV 0x10 d.toNat a 0 k (cat 1 1 e.code) 7)
  | .vfrsq d a k e => some (anopWord, bV 0x10 d.toNat a 0 k (cat 1 1 e.code) 8)
  | .vfexp2 d a k e => some (anopWord, bV 0x10 d.toNat a 0 k (cat 1 1 e.code) 9)
  | .vflog2 d a k e => some (anopWord, bV 0x10 d.toNat a 0 k (cat 1 1 e.code) 10)
  | .vtsum d a b k e => some (anopWord, bV 0x10 d.toNat a b.toNat k (cat 1 1 e.code) 11)
  | .vfcmpEq d a b k e => some (anopWord, bV 0x10 d.toNat a b.toNat k (cat 1 1 e.code) 12)
  | .vfcmpLt d a b k e => some (anopWord, bV 0x10 d.toNat a b.toNat k (cat 1 1 e.code) 13)
  | .vfcmpLe d a b k e => some (anopWord, bV 0x10 d.toNat a b.toNat k (cat 1 1 e.code) 14)
  | .vfcmpUn d a b k e => some (anopWord, bV 0x10 d.toNat a b.toNat k (cat 1 1 e.code) 15)
  | .vfsgnCp d a b k e => some (anopWord, bV 0x10 d.toNat a b.toNat k (cat 1 1 e.code) 16)
  | .vfsgnNeg d a b k e => some (anopWord, bV 0x10 d.toNat a b.toNat k (cat 1 1 e.code) 17)
  | .vfsgnXor d a b k e => some (anopWord, bV 0x10 d.toNat a b.toNat k (cat 1 1 e.code) 18)
  | .vfclass d a k e => some (anopWord, bV 0x10 d.toNat a 0 k (cat 1 1 e.code) 19)
  | .vfma d a b c k e => some (anopWord, bV4 0x11 d a b c k (cat 1 1 e.code))
  | .vfnma d a b c k e => some (anopWord, bV4 0x12 d a b c k (cat 1 1 e.code))
  | .vcvt d a s t r sat k => some (anopWord, bC 0x20 d a s.code t.code r.code sat k false)
  | .venc d a c r sat k x => some (anopWord, bC 0x21 d a 10 (cat 6 1 (b2n c)) r.code sat k x)
  | .vdec d a c r sat k x => some (anopWord, bC 0x22 d a (cat 6 1 (b2n c)) 10 r.code sat k x)
  | .vencS d a c r sat k x => some (anopWord, bC 0x23 d a 10 (cat 6 1 (b2n c)) r.code sat k x)
  | .vdecS d a c r sat k x => some (anopWord, bC 0x24 d a (cat 6 1 (b2n c)) 10 r.code sat k x)
  | .vfkey d a k => some (anopWord, bV 0x25 d.toNat a 0 k 2 0)
  | .vperm d a b k e => some (anopWord, bV 0x28 d.toNat a b.toNat k (e.code) 0)
  | .vbcast d a k e => some (anopWord, bV 0x28 d.toNat (.reg a) 0 k e.code 1)
  | .vext d a b e => some (anopWord, bV 0x28 d.toNat a b.toNat 0 e.code 2)
  | .vins d a b e => some (anopWord, bV 0x28 d.toNat (.reg a) b.toNat 0 e.code 3)
  | .vslideUp d a b k e => some (anopWord, bV 0x28 d.toNat a b.toNat k (e.code) 4)
  | .vslideDn d a b k e => some (anopWord, bV 0x28 d.toNat a b.toNat k (e.code) 5)
  | .vred d a n k e => some (anopWord, bV 0x28 d.toNat a n.code k e.code 6)
  | .vscan d a n k e => some (anopWord, bV 0x28 d.toNat a n.code k e.code 7)
  | .vcmprs d a k e => some (anopWord, bV 0x28 d.toNat a 0 k (e.code) 8)
  | .vsortA d a => some (anopWord, bV 0x28 d.toNat a 0 0 3 9)
  | .vsortD d a => some (anopWord, bV 0x28 d.toNat a 0 0 3 10)
  | .vmergeA d a b => some (anopWord, bV 0x28 d.toNat a b.toNat 0 3 11)
  | .vmergeD d a b => some (anopWord, bV 0x28 d.toNat a b.toNat 0 3 12)
  | .mmas qa qb c t z g f => some (anopWord, cat 0x30 26 (cat qa.bits 21 (cat qb.bits 16 (cat c.toNat 4 (cat (b2n t) 3 (cat (b2n z) 2 (cat (b2n g) 1 (b2n f))))))))
  | .mzero c => some (anopWord, cat 0x31 26 (cat c.toNat 4 0))
  | .mtab b a => some (anopWord, cat 0x32 26 (cat (b2n b) 1 (b2n a)))
  | .vqpush q a => some (anopWord, cat 0x34 26 (cat q.toNat 21 (cat a.toNat 16 0)))
  | _ => none

/-- The bundle that `encode` writes: the instruction in its own slot, the other slot idle. -/
def bundlePair (i : Instr) : Instr × Instr :=
  match i with
  | .vnop => (.anop, i)
  | .kand .. => (.anop, i)
  | .kor .. => (.anop, i)
  | .kxor .. => (.anop, i)
  | .knot .. => (.anop, i)
  | .kmov .. => (.anop, i)
  | .vadd .. => (.anop, i)
  | .vaddSat .. => (.anop, i)
  | .vsubVector .. => (.anop, i)
  | .vsubSat .. => (.anop, i)
  | .vmul .. => (.anop, i)
  | .vmulh .. => (.anop, i)
  | .vand .. => (.anop, i)
  | .vor .. => (.anop, i)
  | .vxor .. => (.anop, i)
  | .vandn .. => (.anop, i)
  | .vsll .. => (.anop, i)
  | .vsrl .. => (.anop, i)
  | .vsra .. => (.anop, i)
  | .vmin .. => (.anop, i)
  | .vmax .. => (.anop, i)
  | .vminu .. => (.anop, i)
  | .vmaxu .. => (.anop, i)
  | .vabs .. => (.anop, i)
  | .vpopc .. => (.anop, i)
  | .vsel .. => (.anop, i)
  | .vcmpEq .. => (.anop, i)
  | .vcmpNe .. => (.anop, i)
  | .vcmpLt .. => (.anop, i)
  | .vcmpLe .. => (.anop, i)
  | .vcmpLtu .. => (.anop, i)
  | .vcmpLeu .. => (.anop, i)
  | .vmadd .. => (.anop, i)
  | .vfadd .. => (.anop, i)
  | .vfsub .. => (.anop, i)
  | .vfmul .. => (.anop, i)
  | .vfdiv .. => (.anop, i)
  | .vfmin .. => (.anop, i)
  | .vfmax .. => (.anop, i)
  | .vfsqrt .. => (.anop, i)
  | .vfrcp .. => (.anop, i)
  | .vfrsq .. => (.anop, i)
  | .vfexp2 .. => (.anop, i)
  | .vflog2 .. => (.anop, i)
  | .vtsum .. => (.anop, i)
  | .vfcmpEq .. => (.anop, i)
  | .vfcmpLt .. => (.anop, i)
  | .vfcmpLe .. => (.anop, i)
  | .vfcmpUn .. => (.anop, i)
  | .vfsgnCp .. => (.anop, i)
  | .vfsgnNeg .. => (.anop, i)
  | .vfsgnXor .. => (.anop, i)
  | .vfclass .. => (.anop, i)
  | .vfma .. => (.anop, i)
  | .vfnma .. => (.anop, i)
  | .vcvt .. => (.anop, i)
  | .venc .. => (.anop, i)
  | .vdec .. => (.anop, i)
  | .vencS .. => (.anop, i)
  | .vdecS .. => (.anop, i)
  | .vfkey .. => (.anop, i)
  | .vperm .. => (.anop, i)
  | .vbcast .. => (.anop, i)
  | .vext .. => (.anop, i)
  | .vins .. => (.anop, i)
  | .vslideUp .. => (.anop, i)
  | .vslideDn .. => (.anop, i)
  | .vred .. => (.anop, i)
  | .vscan .. => (.anop, i)
  | .vcmprs .. => (.anop, i)
  | .vsortA .. => (.anop, i)
  | .vsortD .. => (.anop, i)
  | .vmergeA .. => (.anop, i)
  | .vmergeD .. => (.anop, i)
  | .mmas .. => (.anop, i)
  | .mzero .. => (.anop, i)
  | .mtab .. => (.anop, i)
  | .vqpush .. => (.anop, i)
  | _ => (i, .vnop)

end Sys2Proof
end

