-- ==== Sys2Proof/Machine/State.lean ====
section
/-! DEFINITION. The state of the whole package as plain data: every register, queue, table and counter the spec names,
and the state after cold reset. INVENTORY.md lists each with its rule. -/

namespace Sys2Proof.Machine

open Sys2Proof

/-- Why a step stops. -/
inductive Fault where
  /-- `step` while the package has no power (the state POWER_LOSS leaves): nothing can run until POWER_ON.
  Raised by step only; safe: the hardware does nothing there either. -/
  | noPower
  deriving DecidableEq, Repr

/-- Why an instruction is refused. -/
inductive Refusal where
  /-- The instruction has no meaning in the model yet. Raised by a refused arm of exec only; safe: nothing is proved of it. -/
  | notModelled (mnemonic : String)
  deriving DecidableEq, Repr

/-- Run states (01 R16), in the order of their codes. -/
inductive RunState where
  | empty | ready | parked | frozen | frozenPending | swapping | follower | stopped
  deriving DecidableEq, Repr

/-- Privilege levels (00 R10). -/
inductive Level where
  | user | umpire | firmware
  deriving DecidableEq, Repr

/-- The state of a tile window (02 R74, R76-R80; R213). A released window was left by VDONE; a cancelled one held a draft the
home cancelled, and remembers the cause its writer freezes with. -/
inductive Win where
  | unmapped
  | released
  | ro (ver : Nat) (cls : TileClass)
  | draft (ver : Nat) (cls : TileClass)
  | pending (name : Nat) (ver : Nat)
  | cancelled (cause : Cause) (cls : TileClass)
  deriving DecidableEq, Repr

/-- A condition of a wait (10 R301, R302; 03 R104), its address already resolved to a memory key. -/
inductive Cond where
  | counter (loc : Nat) (t : BitVec 32)
  | seq (file : SqFile) (idx : BitVec 8) (t : BitVec 32)
  | ver (space name : Nat) (t : BitVec 32)
  | zero (loc : Nat)
  deriving DecidableEq, Repr

/-- What a parked strand waits for (01 R17). `poll`: the parked bundle is tried again and completes when its condition holds.
`turn`: its bundle has still to issue, at a turn of the strand: the line it is fetched from is on its way, or fp64 arithmetic keeps its
spacing (08 R239). `entry`: as `poll`, for the entry bundle of a gang's notice (01 R33). `steal`: the steal loop (10 R300). `matrix`: the retirement of a
step (09 R268). `brk`: stopped before a BRK (11 R336). -/
inductive Park where
  | none | poll | turn | entry | steal | matrix (step : Nat) | brk
  deriving DecidableEq, Repr

/-- The freeze record (11 R325). `qa` names the queue whose first 8 words the frozen bundle holds. -/
structure Freeze where
  cause : Cause
  bsyl : Bool
  lane : BitVec 6
  addr : Word
  datum : Word
  bundle : Word
  qa : Option Q4
  qaNext : Nat
  deriving DecidableEq, Repr

/-- A deferred store (03 R114, 07 R198): its A syllable, first faulting address, the pages it touches and its elements. -/
structure ReplayEntry where
  asyl : BitVec 32
  addr : Word
  pages : List Nat
  rq : Rq
  stores : List (Nat × List (Option Byte))
  deriving DecidableEq, Repr

/-- An un-taken barrier arrival (10 R309): its phase tag, the counters it added, and the record of its phase once complete. -/
structure Arrival where
  tag : Bool
  sums : Vector (BitVec 32) 8
  done : Option (Vector (BitVec 32) 8)
  deriving DecidableEq, Repr

/-- A gathered release query (03 R108): the scope is die only, and whether it was answered. -/
structure Query where
  dieOnly : Bool
  answered : Bool
  deriving DecidableEq, Repr

/-- A pending XSWAP (07 R209). -/
structure Xs where
  base : Nat
  bytes : Nat
  fin : Bool
  deriving DecidableEq, Repr

/-- A deferred delivery in the inbox (11 R333): queue number, word, the sender's handle (0 for none), and whether the stroke
slot's handler has serviced it (01 R18). -/
structure InItem where
  q : Q4
  w : Word
  src : Nat
  served : Bool
  deriving DecidableEq, Repr

/-- The umpire's own record (11 R316, R321). -/
structure Ump where
  umpid : Nat
  depth : Nat
  pend : List (BitVec 128)
  deriving DecidableEq, Repr

/-- What takes a place in the matrix pipe (09 R265): a step, MZERO, or MTAB of the named decode RAMs. -/
inductive MKind where
  | mmas | mzero | mtab (b a : Bool)
  deriving DecidableEq, Repr

/-- A step in a matrix pipe (09 R264-R268). Words sampled at issue, operands staged and forwarded so far, and, once started, its
result. `pc`, `lcount` and `armed` are those of its bundle. -/
structure MStep where
  uid : Nat
  key : Nat
  kind : MKind
  started : Bool
  qa : MSrc
  qb : MSrc
  base : Nat
  va : Word
  c4 : Bool
  zero : Bool
  fwdB : Bool
  fwdA : Bool
  cfg : Word
  fmta : Word
  fmtb : Word
  scla : Word
  sclb : Word
  regA : List Word
  regB : List Word
  opA : List Word
  opB : List Word
  sentA : Nat
  sentB : Nat
  result : List (BitVec 32)
  ovf : Nat
  nan : Nat
  poison : Option Word
  deriving DecidableEq, Repr

/-- One strand: every register of 01 R21 and R34, its queues, its waits and its freeze record. -/
structure Strand where
  /-- the model's handle -/
  key : Nat
  sid : Nat
  level : Level
  ctx : Nat
  launch : Option Nat
  crew : Option Nat
  crewpos : Word
  run : RunState
  park : Park
  /-- the condition that the parked bundle waits for, where it may hold for a moment only (01 R47, 10 R301, 02 R92) -/
  await : Option Cond
  /-- that condition has held -/
  woken : Bool
  /-- no turn of the strand lies before this cycle (01 R14) -/
  turn : Nat
  /-- TICK at which it became Frozen, pending: its wait for an umpire's frame (11 R319) -/
  since : Nat := 0
  /-- the debug module lets it issue one bundle at its next turn (18 R469) -/
  stepping : Bool := false
  /-- TICK at which its context has moved to or from the thread-context cache (01 R16, R47) -/
  moveEnd : Nat
  /-- its entry of the thread-context cache holds an uncorrectable word (18 R456) -/
  badEntry : Bool
  pc : Word
  lo : Vector Word 16
  inG : Vector Word 8
  outG : Vector Word 8
  /-- resident groups older than the current window, newest first -/
  older : List (Vector Word 8)
  spilled : BitVec 13
  winFault : Bool
  v : Vector Vec 32
  k : Vector Word 8
  h : Vector Word 8
  fpmode : Word
  rngs : Word
  ev : Vector (BitVec 32) 8
  fmta : Word
  fmtb : Word
  scla : Word
  sclb : Word
  mxacc : Word
  mxcfg : Word
  wsp : Word
  wlim : Word
  dqbase : Word
  dqmask : Word
  nhvec : Word
  nhmask : Word
  nhbusy : Bool
  nhsrc : BitVec 3
  nepc : Word
  lstart : Word
  lend : Word
  lcount : Word
  armed : Bool
  susp : Bool
  gangcfg : Word
  gidx : BitVec 3
  gang : Option Nat
  gangReq : Option (BitVec 2 × Bool)
  win : Vector Win 16
  qin : Vector (List Word) 4
  /-- for the front words of q0-q3: the source granule of a word delivered poisoned (18 R456); missing entries are clean -/
  qbad : Vector (List (Option Word)) 4
  qout : Vector (List Word) 4
  /-- words popped from q0-q3 so far: when a TFETCH unit has been popped (09 R281) -/
  popped : Vector Nat 4
  /-- queued commands, each with the counter file fixed as it was pushed (09 R274, R276) -/
  q4 : List (BitVec 256 × Option SqFile)
  q5 : List Word
  q6 : List (Word × Word)
  q7 : List Word
  q8 : List Word
  q9 : List Word
  q10 : List Word
  lost : Vector (BitVec 16) 16
  ovf : Bool
  echo9 : Vec
  echo10 : Vec
  frz : Freeze
  serial : BitVec 32
  replay : List ReplayEntry
  attached : Bool
  /-- subscriptions: name space, name, counter, file -/
  subs : List (Nat × Nat × BitVec 8 × SqFile)
  barPhase : Bool
  arrivals : List Arrival
  barArrived : Bool
  round : BitVec 8
  counts : List (Nat × Nat)
  acks : Nat
  query : Option Query
  answer : Option (Option Cause)
  /-- the parked bundle's own reservation stands in its queue (07 R216) -/
  asked : Bool
  /-- the window in which the parked bundle's own VMAP stands pending (07 R212, R213) -/
  askWin : Option Nat
  xsCount : Nat
  xs : Option Xs
  ump : Option Ump
  /-- cap0-cap3 of an umpire or of a firmware strand (11 R321) -/
  caps : Vector (BitVec 128) 4
  heldSet : Option Nat
  lnksel : BitVec 7
  inbox : List InItem
  out : Bool
  borrower : Bool
  entrySlot7 : Bool
  pair : Option Nat
  pairLead : Bool
  /-- a matrix step that left the pipe with its swapped strand (09 R268) -/
  mstep : Option MStep
  /-- it has offered its slot by YIELD and stands at the boundary after it (10 R314) -/
  yields : Bool
  crc : Word
  /-- the turn after a bundle with fp64 arithmetic (08 R239) -/
  fpTurn : Option Nat
  started : Bool
  deriving DecidableEq, Repr

/-- A standing gang (01 R40): its members by GIDX. -/
structure Gang where
  uid : Nat
  nc : BitVec 2
  south : Bool
  members : List Nat
  deriving DecidableEq, Repr

/-- A held gang set (11 R330). -/
structure HeldSet where
  uid : Nat
  nc : BitVec 2
  south : Bool
  members : List Nat
  marked : List Nat
  deriving DecidableEq, Repr

/-- Kinds of physical frames (02 R88); `none` is a frame of the cache portion (16 R411). -/
inductive FrameKind where
  | plain | tile | carved | trace | firmware | none
  deriving DecidableEq, Repr

/-- A coherence object: a declared object or an undeclared 256-byte granule (02 R58). -/
inductive CohKey where
  | obj (id : Nat)
  | gran (g : Nat)
  deriving DecidableEq, Repr

/-- The coherence states of 02 R60. -/
inductive Coh where
  | i
  | s (sharers : List Nat)
  | o (owner : Nat)
  | u (tag : BitVec 4) (holders : List Nat)
  deriving DecidableEq, Repr

/-- A declared object (02 R58, R64). -/
structure Obj where
  id : Nat
  ctx : Nat
  op : Option (BitVec 4)
  lock : Bool
  granules : List Nat
  deriving DecidableEq, Repr

/-- One element of a holder's partial, in the cluster cache or parked in the home's partial store (02 R65). -/
structure Partial where
  key : CohKey
  cluster : Nat
  pa : Nat
  val : Word
  parked : Bool
  /-- poisoned (18 R456) -/
  bad : Bool
  deriving DecidableEq, Repr

/-- A line of a cluster cache: masks of 02 R57, untracked copies of 02 R56. -/
structure Line where
  cluster : Nat
  line : Nat
  valid : BitVec 16
  dirty : BitVec 16
  si : Bool
  /-- what an untracked copy holds: its 64 bytes as they were filled and as its cluster has written them since (02 R56); a tracked
  copy never differs from memory and keeps none here -/
  data : List (BitVec 8)
  deriving DecidableEq, Repr

/-- Version states (02 R72). -/
inductive VState where
  | drafted | completed | afloat | racking | racked | floating | dead
  deriving DecidableEq, Repr

/-- A version or draft (02 R69-R87). Its bytes are in `data`; an unlisted offset was never written. -/
structure Ver where
  uid : Nat
  space : Nat
  name : Nat
  num : Nat
  cls : TileClass
  st : VState
  count : Option Nat
  contrib : Nat
  refs : Nat
  pinned : Bool
  doomed : Bool
  frames : List Nat
  hbm : List Nat
  data : List Host.Cell
  used : Nat
  deriving DecidableEq, Repr

/-- A frame waiting in a wait pool, or fired and waiting for room on a deque (10 R302, R303). -/
structure WFrame where
  uid : Nat
  slice : Nat
  key : Nat
  launch : Nat
  frame : Vector Word 8
  conds : List Cond
  fired : Bool
  /-- TICK of the next try to push it -/
  retry : Nat
  deriving DecidableEq, Repr

/-- A data trigger binding (10 R304). -/
structure Trig where
  key : Nat
  v : Nat
  launch : Nat
  frame : Vector Word 8
  deriving DecidableEq, Repr

/-- A name of a name space (02 R69-R84). -/
structure Name where
  space : Nat
  name : Nat
  cls : Option TileClass
  latest : Nat
  retain : Nat
  subs : List (Nat × BitVec 8 × SqFile)
  trigs : List Trig
  dropped : Bool
  deriving DecidableEq, Repr

/-- A place in a reservation queue (07 R216): `word` is what the home sent with the hand-off, until its strand takes it. -/
structure RWait where
  key : Nat
  w32 : Bool
  held : Bool
  word : Option Word
  deriving DecidableEq, Repr

/-- The FIFO of one reserved address (07 R215-R220). -/
structure RQueue where
  loc : Nat
  q : List RWait
  killed : Bool
  deriving DecidableEq, Repr

/-- A count of an arrival table (03 R108): target (a slice, or 144 + die * 96 + link for a die's edge stage at a module), strand, round. -/
structure Arrive where
  target : Nat
  key : Nat
  round : BitVec 8
  n : Nat
  deriving DecidableEq, Repr

/-- A crew (01 R45, 10 R309, 02 R91). -/
structure Crew where
  uid : Nat
  launch : Nat
  index : Nat
  die : Nat
  ox : Nat
  oy : Nat
  w : Nat
  h : Nat
  slots : BitVec 8
  p : Bool
  c : Nat
  acur : Nat
  anxt : Nat
  scur : Vector (BitVec 32) 8
  snxt : Vector (BitVec 32) 8
  poison : Bool
  poisoned : Bool
  /-- strand ids of killed members -/
  gone : List Nat
  sq : Vector Word 256
  deriving DecidableEq, Repr

/-- Where a launch stands (12 R347, R358). -/
inductive LState where
  | accepted | placed | ended
  deriving DecidableEq, Repr

/-- A launch (12 R338-R360). `copy` is the replay copy of 18 R473. -/
structure Launch where
  uid : Nat
  ctx : Nat
  queue : Nat
  rcd : Vector Word 16
  st : LState
  waitHeld : Bool
  /-- its wait has held since it was accepted, if only for a moment (12 R349) -/
  met : Bool := false
  accepted : Nat
  ready : Option Nat
  effClass : Nat
  issuer : Option Nat
  start : Option Nat
  sq : Vector Word 256
  home : Nat
  disc : Nat
  killed : Bool
  partner : Option Nat
  copyB : Bool
  hash : Word
  /-- it runs paired, as fixed at its placement (18 R460) -/
  paired : Bool := false
  deriving DecidableEq, Repr

/-- A decode RAM of the matrix pipe (04 R122): the image's memory key and its 256 entries. -/
structure DecRam where
  base : Nat
  img : List (BitVec 32)
  stale : Bool
  deriving DecidableEq, Repr

/-- What a core holds beside its strands. -/
structure CoreRec where
  id : Nat
  lendOn : Bool
  owner : Option Nat
  clean : Bool
  /-- TICK at which its zeroing ends (12 R351) -/
  zeroing : Option Nat
  areas : List (Nat × Nat × Nat)
  pipe : List MStep
  /-- issuers that wait for a place in the pipe, in issue order -/
  mwait : List Nat
  ramA : Option DecRam
  ramB : Option DecRam
  /-- the images and coded formats (true: c4) whose order verdict is kept: none changed since its check (04 R130, 08 R246) -/
  verdicts : List (Nat × Bool)
  stopped : Bool
  armed : Bool
  trcOn : Bool
  trcCtx : Nat
  trcFrames : Nat
  trcBase : Nat
  trcSeq : Nat
  /-- records dropped since the last one was written, and the TICK until which the encoder writes (18 R471) -/
  trcLost : Nat
  trcBusy : Nat
  line : Option (Nat × List Byte)
  lastPriv : Nat
  /-- no turn of the stroke slot lies before this cycle: it runs one activity at a time (01 R18) -/
  turn7 : Nat
  /-- no bubble of the core before this cycle is free for its background work (01 R15) -/
  bubble : Nat := 0
  wback : Option Nat
  deriving DecidableEq, Repr

/-- A byte's place: a memory key, or an offset of a version. -/
inductive Loc where
  | mem (k : Nat)
  | tile (ver off : Nat)
  deriving DecidableEq, Repr

/-- A store or update on its way: it waits at an edge stage for a module of its route, or at its home for recalls to leave (17 R443).
`die` and `rkey` are its destination and the key of its route (17 R439), `pa` the number under which the caches keep it, `upd` the
operator and the elements of an update. -/
structure Posted where
  key : Nat
  round : BitVec 8
  core : Nat
  rq : Rq
  slice : Option Nat
  loc : Loc
  pa : Option Nat
  die : Nat
  rkey : Nat
  bs : List (Option Byte)
  upd : Option (BitVec 4 × List (Nat × Nat))
  /-- strands with messages to the same package that go before it, one for each message (17 R447) -/
  after : List Nat := []
  deriving DecidableEq, Repr

/-- A piece of a split TCOPY or TFILL: what it writes to one 64 KiB page, and its engine (09 R282). `placed`: it has its place
there. -/
structure Piece where
  engine : Nat
  placed : Bool
  dst : List Loc
  vals : List Byte
  deriving DecidableEq, Repr

/-- A cached leaf (16 R419): of a core's micro-TLB, or of a slice's TLB (4096 + slice). `va` and `size` are its page, `pa` its
frame's first byte, `bits` the PTE, `lines` the table lines it was read through. -/
structure TlbLeaf where
  place : Nat
  ctx : Nat
  va : Nat
  size : Nat
  pte : Word
  lines : List Nat
  deriving DecidableEq, Repr

/-- A cached non-leaf entry of a die's walk cache (16 R419): the entry's PA and its value. -/
structure WalkEntry where
  die : Nat
  at0 : Nat
  pte : Word
  deriving DecidableEq, Repr

/-- A bundle whose matrix step is in a pipe (09 R264, R268; 18 R457): the strand before it, as its A syllable reads it, that syllable,
and whether its effects are still held back. -/
structure Held where
  key : Nat
  before : Strand
  view : Strand
  asyl : Instr
  held : Bool
  deriving DecidableEq, Repr

/-- Command progress (09 R274-R287). -/
inductive CmdSt where
  | onRoute | accepted | held | started | resolved | running | finished
  deriving DecidableEq, Repr

/-- A tile command at its engine (09 R274-R287). `panel` holds what a running TFETCH or TREDUCE has read, each word with the
source granule where it is poisoned; `src` the places of the vectors that a TFETCH has still to read, and `pins` the home slices of
each vector read, a number for each line; `dst` the places a TREDUCE writes; `pieces` what a split copy has still to write; `due`
for each vector delivered the member that got it and how many words it has popped once the vector is popped. A command left behind by a
strand that ended stands on the route; a started one has its sources and destinations resolved before it takes its lines. -/
structure Cmd where
  uid : Nat
  key : Nat
  level : Level
  ctx : Nat
  launch : Option Nat
  file : Option SqFile
  word : BitVec 256
  engine : Nat
  st : CmdSt
  refs : List Nat
  pos : Nat
  status : BitVec 8
  aux : Word
  merged : List Nat
  holdEnd : Nat
  panel : List (List (Word × Option Word))
  src : List (List Loc)
  pins : List (List Nat)
  dst : List (List Loc)
  pieces : List Piece
  due : List (Nat × Nat)
  signalled : Bool
  told : Bool
  /-- the granules whose ownership it has taken (03 R110) -/
  owned : List Nat := []
  /-- addresses of the bytes of `src`, of a TFETCH (18 R457) -/
  vas : List (List Word) := []
  /-- the die it comes from -/
  fromDie : Nat := 0
  deriving DecidableEq, Repr

/-- An umpire frame pool (11 R317, R319): cluster 0-143, or 144 + die for cox cores. -/
structure Pool where
  id : Nat
  used : List Nat
  pend : List Nat
  deriving DecidableEq, Repr

/-- A capability held by firmware (16 R403, R422). -/
structure FwCap where
  handle : Nat
  cap : BitVec 128
  line : Option Nat
  /-- its FRES retry has to wait and is tried again (16 R423) -/
  again : Bool := false
  deriving DecidableEq, Repr

/-- A launch queue of a context (16 R425, 12 R345). -/
structure LQueue where
  id : Nat
  maxClass : Nat
  ring : Option (Nat × Nat)
  cons : Nat
  replayWin : Nat
  replayLeft : Nat
  hashA : Word
  hashB : Word
  deriving DecidableEq, Repr

/-- A context (16 R407-R409). -/
structure Ctx where
  id : Nat
  maxClass : Nat
  root : Nat
  umpvec : Vector Word 32
  umparea : Word
  group : Option (Nat × Nat × Nat)
  queues : List LQueue
  pairing : Bool
  dying : Bool
  /-- strands that CTX_DESTROY has killed -/
  killed : Nat
  /-- 64 GiB entries of its tree that link another context's table, by VA div 2^36 (16 R418) -/
  linked : List Nat
  deriving DecidableEq, Repr

/-- A mailbox (16 R397-R401). -/
structure Mbx where
  cfg : Word
  on : Bool
  base : Nat
  cm : Nat
  en : Nat
  cons : Nat
  prod : Nat
  evq : List (Vector Word 4)
  lostEv : Nat
  deriving DecidableEq, Repr

/-- A link (17 R437-R443). `st` is LNKSTAT.st. -/
structure Link where
  st : BitVec 4
  width : Bool
  half : Bool
  cerr : Bool
  held : Nat
  rb : Nat
  retry : BitVec 32
  win : BitVec 16
  winCount : Nat
  ctlWidth : Bool
  ctlHalf : Bool
  bad : Word
  map : BitVec 28
  thr : BitVec 16
  training : Bool
  /-- width, half and map of the retrain or train under way: what was written when it began (17 R441) -/
  wantWidth : Bool := false
  wantHalf : Bool := false
  wantMap : BitVec 28 := 0
  /-- its service was begun for a command (17 R445) -/
  asked : Bool := false
  serving : Nat
  /-- TICK of the last change of st -/
  since : Nat
  /-- TICK at which the window of LNKERR.win began -/
  wbase : Nat
  /-- inputs of the outside world: data lanes and spares that fail a test, flits the far end does not acknowledge -/
  lanes : Word
  spares : BitVec 4
  stuck : Nat
  deriving DecidableEq, Repr

/-- The sampling pulse (18 R467, R468). -/
structure Sampling where
  period : Nat
  buf : Nat
  sseq : Nat
  abs : Bool
  prev : List (Nat × Word)
  /-- TICK of the last sample -/
  last : Nat
  deriving DecidableEq, Repr

/-- Objects, lines, versions and queues at the homes. -/
structure Homes where
  objs : List Obj
  coh : List (CohKey × Coh)
  parts : List Partial
  collected : List Partial
  lines : List Line
  names : List Name
  vers : List Ver
  resv : List RQueue
  arrive : List Arrive
  /-- counted messages answered BUSY: strand, target slice, round (03 R109) -/
  resend : List (Nat × Nat × BitVec 8)
  /-- stores that wait on their way, oldest first -/
  posted : List Posted
  wframes : List WFrame
  tags : List (Nat × Nat)
  rackAge : List (Nat × Nat)
  /-- arrival notices that wait in the network for a full inbox: strand and word (11 R333) -/
  notices : List (Nat × Word)
  deriving DecidableEq, Repr

/-- An area of local memory in backing memory (12 R365, R367): bytes and poisoned granules, by offset. -/
structure SavedArea where
  core : Nat
  launch : Nat
  base : Nat
  size : Nat
  bytes : List Host.Cell
  bad : List Nat
  deriving DecidableEq, Repr

/-- Crews, launches and what the dispatcher keeps. `cached` lists each cluster's context cache, least recently swapped first;
`chosen` the strand ids that a pre-empting record has had vacated. -/
structure Sched where
  crews : List Crew
  launches : List Launch
  gangs : List Gang
  sets : List HeldSet
  nextStep : Nat
  pre : BitVec 16
  saved : List SavedArea
  cached : List (Nat × List Nat)
  chosen : List (Nat × List Nat)
  /-- the launch placed last (12 R371) -/
  lastPlaced : Nat
  rsv : Option Nat
  rsvWord : Word
  latMax : BitVec 32
  latLast : BitVec 32
  hold : Bool
  nolend : Bool
  nopre : Bool
  deriving DecidableEq, Repr

/-- A checkpoint under way (18 R475-R478): its command, phase, the TICK of its cut, its number, the versions whose sections are
still to be written, and the image so far. -/
structure Ckpt where
  cmd : CmdRec
  phase : Nat
  cut : Nat
  uid : Nat
  vers : List Nat
  out : List Byte
  deriving DecidableEq, Repr

/-- What the sections of kinds 2, 3 and 4 of a written image hold (18 R475). -/
structure Image where
  digest : BitVec 256
  strands : List Strand
  homes : Homes
  crews : List Crew
  launches : List Launch
  gangs : List Gang
  sets : List HeldSet
  saved : List SavedArea
  cmds : List Cmd
  ctxs : List Ctx
  caps : List FwCap
  ptUsed : List (Nat × Nat × Nat)
  fkinds : List (Nat × FrameKind)
  carve : Vector Nat 4
  owners : List CoreRec
  /-- the page tables' bytes and their poisoned granules -/
  tables : List Host.Cell
  badTables : List Nat
  /-- the capabilities that wait for an umpire -/
  capWait : List (BitVec 128 × Nat)
  /-- the versions on which the checkpoint holds a reference of its own -/
  held : List Nat
  deriving DecidableEq, Repr

/-- Firmware, OTP and the port die. -/
structure Firmware where
  ctxs : List Ctx
  caps : List FwCap
  capWait : List (BitVec 128 × Nat)
  /-- page tables in use: number, level and how many entries or contexts point to it (16 R416, R418) -/
  ptUsed : List (Nat × Nat × Nat)
  fkinds : List (Nat × FrameKind)
  carve : Vector Nat 4
  /-- frames on their way: source, destination, command (16 R414) -/
  migrate : List (Nat × Nat × CmdRec)
  /-- UNMAP and PTE_REPAIR commands that wait for the accesses through the entries they changed: code, command, result, and the frames
  of those entries as first frame and count (16 R420) -/
  settling : List (Nat × CmdRec × Nat × List (Nat × Nat))
  blocked : List Nat
  /-- lines and contexts for which PTE_UE was posted (16 R421) -/
  ueSeen : List (Nat × Nat)
  /-- outstanding long commands with their codes (16 R400) -/
  long : List (Nat × CmdRec)
  mbx : Vector Mbx 2
  igbase : Vector Word 2
  bootpatch : Word
  stage : BitVec 8
  bootErr : BitVec 16
  coldBoot : Bool
  patchVer : BitVec 16
  patchDigest : BitVec 256
  staged : Option (BitVec 16 × BitVec 32 × BitVec 256)
  otpRollback : BitVec 32
  otpIndex : Nat
  resetCmd : Option CmdRec
  exports : List (Nat × Nat × Nat × Nat)
  /-- this package's own export window: base and size (17 R445, R449) -/
  window : Option (Nat × Nat) := none
  /-- the link at which the link service routine goes on with its scan (17 R444) -/
  scan : Nat := 0
  joined : List (Nat × Nat)
  routes : List (Nat × Nat)
  colls : List (Nat × BitVec 16)
  sample : Sampling
  ckpt : Option Ckpt
  /-- messages held at the Flezil ports: rank, destination, payload (17 R448) -/
  ports : List (BitVec 16 × Word × Word)
  /-- the checkpoint images this package has written: what their sections of kinds 3 and 4 hold (18 R475; log 27) -/
  images : List Image
  deriving DecidableEq, Repr

/-- Error counters, clocks and black boxes. -/
structure Ras where
  ce : Word
  ue : Word
  ctl : BitVec 4
  divs : Nat
  divTag : Word
  mism : Nat
  mismSid : Nat
  uec : Nat
  uecSid : Nat
  bbSeq : Vector Nat 4
  bbGen : Vector Nat 4
  bbSev : Vector Nat 4
  bbTotal : Nat
  capw : BitVec 16
  pw : BitVec 16
  mhz : BitVec 16
  floor : BitVec 16
  deriving DecidableEq, Repr

/-- A step of the part that no syllable asks for, waiting in the agenda: each names the constructor of `Instr` whose meaning it
runs (log 7). -/
inductive Ev where
  | gangForm (leader : Nat)
  | gangCommit (leader : Nat)
  | noticeEntry (key : Nat)
  | gangNoticeEntry (leader : Nat)
  | windowSpill (key : Nat)
  | windowRefill (key : Nat)
  | remoteAccessComplete (key : Nat)
  | homeAnswer (key : Nat)
  | meshWordArrival (src : Nat) (q : Q4)
  | messageDelivery (src : Nat)
  | dropNotice (src : Nat) (q : Q4)
  | arrivalNotice (key : Nat) (x : BitVec 64)
  | reservationHandoff (addr : Nat)
  | enqueueResend (key : Nat)
  | countedMessageResend (key slice : Nat)
  | releaseQueryAnswer (key : Nat)
  | sequenceCounterIncrement (file : SqFile) (idx inc : BitVec 8)
  | objectRequest (cluster pa : Nat) (req : ObjReq)
  | collectRequest (pa cluster : Nat)
  | mergeFold (pa : Nat)
  | partialEviction (cluster line : Nat)
  | silentEviction (cluster line : Nat)
  | invalidationReceive (cluster line : Nat) (rcl : Bool)
  | versionPublish (ver : Nat)
  | rackStart (ver : Nat)
  | rackComplete (ver : Nat)
  | floatComplete (ver : Nat)
  | taskDispatch (uid : Nat)
  | dispatchRetry (uid : Nat)
  | stealRound (key : Nat)
  | matrixOperandStage (core : Nat)
  | matrixStepStart (core : Nat)
  | matrixStepRetire (core : Nat)
  | tfetch (uid : Nat)
  | tcopy (uid : Nat)
  | tfill (uid : Nat)
  | treduce (uid : Nat)
  | tpost (uid : Nat)
  | tnote (uid : Nat)
  | tfloat (uid : Nat)
  | track (uid : Nat)
  | commandStart (uid : Nat)
  | commandComplete (uid : Nat)
  | combiningHoldExpiry (uid : Nat)
  | collectiveChunkFold (uid chunk : Nat)
  | umpireSpawn (key : Nat)
  | umpirePoolTimeout (key : Nat)
  | strokeSlotReclaim (core : Nat)
  | strokeSlotLend (core : Nat)
  | launchRecordSeal (ctx queue : Nat)
  | dispatcherStep
  | launchWaitHolds (uid : Nat)
  | classAgeing (uid : Nat)
  | rectangleReserve (uid : Nat)
  | localMemoryZeroed (core : Nat)
  | swapOut (key : Nat)
  | strandRestore (key : Nat)
  | launchEnd (uid : Nat)
  | commandAccept (mbx : Nat)
  | eventRingDrain (mbx : Nat)
  | ctxCreate (c : CmdRec)
  | ctxDestroy (c : CmdRec)
  | namespaceCreate (c : CmdRec)
  | map (c : CmdRec)
  | unmap (c : CmdRec)
  | pteRepair (c : CmdRec)
  | frameKindSet (c : CmdRec)
  | frameMigrate (c : CmdRec)
  | carve (c : CmdRec)
  | tierConfig (c : CmdRec)
  | launchWindowConfig (c : CmdRec)
  | queueCreate (c : CmdRec)
  | queuePriority (c : CmdRec)
  | umpireTableSet (c : CmdRec)
  | preempt (c : CmdRec)
  | checkpoint (c : CmdRec)
  | checkpointPhaseEnd
  | restore (c : CmdRec)
  | traceStart (c : CmdRec)
  | traceStop (c : CmdRec)
  | sampleConfig (c : CmdRec)
  | blackboxRead (c : CmdRec)
  | rasQuery (c : CmdRec)
  | linkService (c : CmdRec)
  | pairingSet (c : CmdRec)
  | partitionReplay (c : CmdRec)
  | fwPatchLoad (c : CmdRec)
  | attest (c : CmdRec)
  | resetWarm (c : CmdRec)
  | powerSet (c : CmdRec)
  | capResolve (c : CmdRec)
  | powerOn
  | coldReset
  | mailboxEnable (mbx : Nat)
  | configSpaceWrite (off : Nat) (x : BitVec 64)
  | companionAccess (wr : Bool) (addr : Nat) (bytes : List (BitVec 8))
  | igvosPortDown (p : Nat)
  | powerSample (watts : BitVec 16)
  | thermalLimit (mhz : BitVec 16)
  | linkHold (l : Nat)
  | linkRetrain (l : Nat)
  | linkResume (l : Nat)
  | linkTakeDown (l : Nat)
  | linkTrain (l : Nat)
  | holdDrained (l : Nat)
  | holdTimeout (l : Nat)
  | laneTestDone (l : Nat) (bad : BitVec 64) (badSpare : BitVec 4)
  | flitCrcRetry (l : Nat)
  | errorWindowClose
  | linkServiceRoutine (l : Nat)
  | flezilForward (rank : Nat) (dst : Nat) (x : BitVec 64)
  | flezilPortDown (p : Nat)
  | patrolScrub (key : Nat) (unit : BitVec 4) (uncorrectable : Bool)
  | samplePulse
  | debugStop (core : Nat)
  | debugStep (key : Nat)
  | debugResume (core : Nat)
  | debugAccess (key : Nat) (wr : Bool) (what : DebugItem) (x : BitVec 64)
  | illegalOpcode (cause : BitVec 9) (bsyl : Bool)
  | fetchLineRefill (core : Nat)
  | ownedLineWriteBack (cluster line : Nat)
  | frameMigrateCopyDone
  | areaWriteBackComplete (core : Nat)
  | powerLoss
  | igvosPortUp (p : Nat)
  | debugArm (core : Nat) (on : Bool)
  deriving DecidableEq, Repr

/-- The whole package. -/
structure State where
  power : Bool
  tick : Nat
  /-- the model's counter of free values (log 8) -/
  free : Nat
  /-- the model's next handle -/
  uid : Nat
  /-- the strand whose turn it is -/
  me : Strand
  others : List Strand
  /-- canonical: addresses strictly rising, no byte 0 (log 2) -/
  mem : List Host.Cell
  poison : List Nat
  cores : List CoreRec
  homes : Homes
  sched : Sched
  cmds : List Cmd
  pools : List Pool
  fw : Firmware
  links : Vector Link 114
  /-- micro-TLBs and slice TLBs, and the walk caches, newest first (16 R419) -/
  tlb : List TlbLeaf
  walks : List WalkEntry
  ras : Ras
  /-- accepted commands that wait for a long command, in order of acceptance (16 R400) -/
  waiting : List Ev
  /-- the bundles of the matrix steps in the pipes (09 R268, 18 R457) -/
  undo : List Held
  /-- what the debug port read last (18 R469) -/
  tap : Word
  /-- companion accesses that a checkpoint holds at the ports (18 R477) -/
  parked : List Ev
  /-- hardware events in flight or offered from outside, oldest first (log 7) -/
  agenda : List Ev
  deriving DecidableEq, Repr

/-- A freeze record with nothing in it. -/
def Freeze.zero : Freeze :=
  { cause := 0, bsyl := false, lane := 0, addr := 0, datum := 0, bundle := 0, qa := none, qaNext := 0 }

/-- A strand record before anything sets it: every register 0 (12 R353 starts strands so; log 1). -/
def Strand.blank : Strand :=
  { key := 0, sid := 0, level := .user, ctx := 0, launch := none, crew := none, crewpos := 0, run := .empty,
    park := .none, await := none, woken := false, turn := 0, moveEnd := 0, badEntry := false, pc := 0, lo := Vector.replicate 16 0, inG := Vector.replicate 8 0,
    outG := Vector.replicate 8 0, older := [], spilled := 0, winFault := false, v := Vector.replicate 32 0,
    k := Vector.replicate 8 0, h := Vector.replicate 8 0, fpmode := 0, rngs := 0, ev := Vector.replicate 8 0,
    fmta := 0, fmtb := 0, scla := 0, sclb := 0, mxacc := 0, mxcfg := 0, wsp := 0, wlim := 0, dqbase := 0,
    dqmask := 0, nhvec := 0, nhmask := 0, nhbusy := false, nhsrc := 0, nepc := 0, lstart := 0, lend := 0,
    lcount := 0, armed := false, susp := false, gangcfg := 0, gidx := 0, gang := none, gangReq := none,
    win := Vector.replicate 16 .unmapped, qin := Vector.replicate 4 [], qbad := Vector.replicate 4 [], qout := Vector.replicate 4 [],
    popped := Vector.replicate 4 0, q4 := [],
    q5 := [], q6 := [], q7 := [], q8 := [], q9 := [], q10 := [], lost := Vector.replicate 16 0, ovf := false,
    echo9 := 0, echo10 := 0, frz := Freeze.zero, serial := 0, replay := [], attached := false, subs := [],
    barPhase := false, arrivals := [], barArrived := false, round := 0, counts := [], acks := 0, query := none,
    answer := none, asked := false, askWin := none, xsCount := 0, xs := none, ump := none, caps := Vector.replicate 4 0, heldSet := none, lnksel := 0, inbox := [], out := false,
    borrower := false, entrySlot7 := false, pair := none, pairLead := false, mstep := none, yields := false, crc := 0, fpTurn := none,
    started := false }

/-- A core nobody has used: lend 0, local memory clean, pipe empty (01 R20, 12 R351). -/
def CoreRec.blank (id : Nat) : CoreRec :=
  { id := id, lendOn := false, owner := none, clean := true, zeroing := none, areas := [], pipe := [], mwait := [], ramA := none,
    ramB := none, verdicts := [], stopped := false, armed := false, trcOn := false, trcCtx := 0, trcFrames := 0, trcBase := 0,
    trcSeq := 0, trcLost := 0, trcBusy := 0, line := none, lastPriv := 0, turn7 := 0, wback := none }

/-- A link as it is after boot (17 R441). -/
def Link.up : Link :=
  { st := 2, width := false, half := false, cerr := false, held := 0, rb := 0, retry := 0, win := 0, winCount := 0,
    ctlWidth := false, ctlHalf := false, bad := 0, map := 0, thr := 64, training := false, serving := 0,
    since := 0, wbase := 0, lanes := 0, spares := 0, stuck := 0 }

/-- A mailbox after cold reset (16 R397). -/
def Mbx.blank : Mbx :=
  { cfg := 0, on := false, base := 0, cm := 0, en := 0, cons := 0, prod := 0, evq := [], lostEv := 0 }

/-- The machine right after cold reset: no strand resident, memory with nothing listed, boot at stage 0x01
(16 R426, R427), every register at the value of its rule or of the log. -/
def State.reset : State :=
  { power := true, tick := 0, free := 0, uid := 1, me := Strand.blank, others := [], mem := [], poison := [],
    cores := [],
    homes := { objs := [], coh := [], parts := [], collected := [], lines := [], names := [], vers := [], resv := [],
               arrive := [], resend := [], posted := [], wframes := [], tags := [], rackAge := [], notices := [] },
    sched := { crews := [], launches := [], gangs := [], sets := [], nextStep := 108, pre := 0, saved := [],
               cached := [], chosen := [], lastPlaced := 0, rsv := none, rsvWord := 0, latMax := 0, latLast := 0, hold := false, nolend := false,
               nopre := false },
    cmds := [], pools := [],
    fw := { ctxs := [], caps := [], capWait := [], ptUsed := [], fkinds := [], carve := Vector.replicate 4 0,
            migrate := [], settling := [], blocked := [], ueSeen := [], long := [], mbx := Vector.replicate 2 Mbx.blank,
            igbase := Vector.replicate 2 0, bootpatch := 0, stage := 1, bootErr := 0, coldBoot := true, patchVer := 0,
            patchDigest := 0, staged := none, otpRollback := 0, otpIndex := 0, resetCmd := none, exports := [],
            joined := [], routes := [], colls := [], images := [],
            sample := { period := 0, buf := 0, sseq := 0, abs := false, prev := [], last := 0 }, ckpt := none, ports := [] },
    links := Vector.replicate 114 Link.up, tlb := [], walks := [],
    ras := { ce := 0, ue := 0, ctl := 15, divs := 0, divTag := 0, mism := 0, mismSid := 0, uec := 0, uecSid := 0,
             bbSeq := Vector.replicate 4 1, bbGen := Vector.replicate 4 0, bbSev := Vector.replicate 4 0, bbTotal := 0,
             capw := 2100, pw := 0, mhz := 3600, floor := 1800 },
    waiting := [], undo := [], tap := 0, parked := [], agenda := [] }

end Sys2Proof.Machine
end

