-- ==== Sys2Proof/Machine/Ops.lean ====
section
/-! DEFINITION. The named operations over registers, memory, cores and strands; taking a freeze, parking, completing a
bundle and resuming, each written once. -/

namespace Sys2Proof.Machine

open Sys2Proof

/-- What one step answers. -/
abbrev Out := Host.Outcome State Fault Refusal

/-! ## Bytes -/

/-- The little-endian number of a byte list (00 R6). -/
def leNat : List Byte → Nat
  | [] => 0
  | b :: t => b.toNat + 256 * leNat t

/-- The n low bytes of a number, lowest address first (00 R6). -/
def natLE : Nat → Nat → List Byte
  | 0, _ => []
  | n + 1, x => BitVec.ofNat 8 (x % 256) :: natLE n (x / 256)

/-- A 64-bit word from bytes. -/
def leWord (l : List Byte) : Word := BitVec.ofNat 64 (leNat l)

/-- Read one byte; an unlisted address reads 0 (log 2). -/
def mget : List Host.Cell → Nat → Byte
  | [], _ => 0
  | (k, b) :: t, a => if a = k then b else if a < k then 0 else mget t a

/-- Write one byte, keeping the list sorted and without zeros. -/
def mset : List Host.Cell → Nat → Byte → List Host.Cell
  | [], a, b => if b = 0 then [] else [(a, b)]
  | (k, c) :: t, a, b =>
    if a = k then (if b = 0 then t else (k, b) :: t)
    else if a < k then (if b = 0 then (k, c) :: t else (a, b) :: (k, c) :: t)
    else (k, c) :: mset t a b

/-- Every key of the list is above a. -/
def above (a : Nat) : List Host.Cell → Bool
  | [] => true
  | (k, _) :: _ => decide (a < k)

/-- The canonical form of a memory: addresses strictly rising, no byte 0. -/
def Memory.wf : List Host.Cell → Bool
  | [] => true
  | (k, b) :: t => !decide (b = 0) && above k t && Memory.wf t

/-- Read n bytes upward from a. -/
def mgetN (m : List Host.Cell) (a : Nat) : Nat → List Byte
  | 0 => []
  | n + 1 => mget m a :: mgetN m (a + 1) n

/-- Write bytes upward from a. -/
def msetN (m : List Host.Cell) (a : Nat) : List Byte → List Host.Cell
  | [] => m
  | b :: t => msetN (mset m a b) (a + 1) t

/-- Put a byte into a version's data: sorted, one entry per offset, zeros kept. -/
def tset : List Host.Cell → Nat → Byte → List Host.Cell
  | [], a, b => [(a, b)]
  | (k, c) :: t, a, b =>
    if a = k then (k, b) :: t
    else if a < k then (a, b) :: (k, c) :: t
    else (k, c) :: tset t a b

/-- The byte of a version at an offset; an offset nothing wrote is a free value (02 R73, log 8). -/
def tget (uid : Nat) : List Host.Cell → Nat → Byte
  | [], a => Config.freshTileByte uid a
  | (k, b) :: t, a => if a = k then b else tget uid t a

/-! ## Places (00 R3, R4) -/

/-- Core of a strand id. -/
def coreOf (sid : Nat) : Nat := sid / 8

/-- Slot of a strand id. -/
def slotOf (sid : Nat) : Nat := sid % 8

/-- A compute core (00 R4). -/
def isCompute (core : Nat) : Bool := decide (core < 2304)

/-- A cox core (00 R4). -/
def isCox (core : Nat) : Bool := decide (2304 ≤ core) && decide (core < 2560)

/-- Die of a core; 4 is the port die (01 R34). -/
def dieOf (core : Nat) : Nat := if core < 2304 then core / 576 else if core < 2560 then (core - 2304) / 64 else 4

/-- Column of a compute core on its die, X of 01 R14; 0 elsewhere. -/
def colOf (core : Nat) : Nat := if core < 2304 then core % 576 % 24 else 0

/-- Row of a compute core on its die, Y of 01 R14; 0 elsewhere. -/
def rowOf (core : Nat) : Nat := if core < 2304 then core % 576 / 24 else 0

/-- The compute core at a place. -/
def coreAt (die row col : Nat) : Nat := die * 576 + row * 24 + col

/-- Cluster of a core, 0xFFFF on cox and management cores (01 R34). -/
def clusterOf (core : Nat) : Nat :=
  if core < 2304 then dieOf core * 36 + rowOf core / 4 * 6 + colOf core / 4 else 0xFFFF

/-- The slice that stands for a core's bank in the counts of 03 R108: its cluster, or its die's first. -/
def bankSlice (core : Nat) : Nat := if core < 2304 then clusterOf core else if core < 2560 then dieOf core * 36 else 0

/-- The umpire pool of a core (11 R317). -/
def poolOf (core : Nat) : Nat := if core < 2304 then clusterOf core else 144 + dieOf core

/-- The compute core that a mesh channel faces: 0 north, 1 east, 2 south, 3 west (01 R26, 00 R3); none at an edge. -/
def facing (core q : Nat) : Option Nat :=
  if core < 2304 then
    let d := dieOf core
    let r := rowOf core
    let c := colOf core
    match q with
    | 0 => if r = 0 then (if d ≥ 2 then some (coreAt (d - 2) 23 c) else none) else some (coreAt d (r - 1) c)
    | 1 => if c = 23 then (if d % 2 = 0 then some (coreAt (d + 1) r 0) else none) else some (coreAt d r (c + 1))
    | 2 => if r = 23 then (if d < 2 then some (coreAt (d + 2) 0 c) else none) else some (coreAt d (r + 1) c)
    | _ => if c = 0 then (if d % 2 = 1 then some (coreAt (d - 1) r 23) else none) else some (coreAt d r (c - 1))
  else none

/-- The first turn of a slot at or after a cycle (01 R14). -/
def alignTurn (sid t : Nat) : Nat :=
  let p := (slotOf sid + colOf (coreOf sid) + rowOf (coreOf sid)) % 8
  t + (p + 8 - t % 8) % 8

/-- Memory key of a byte of local memory. -/
def lkey (core off : Nat) : Nat := 2 ^ 60 + core * 2 ^ 17 + off

/-- Memory key of a byte of companion memory. -/
def ckey (a : Nat) : Nat := 2 ^ 61 + a

/-- Memory key of a byte of another package's memory. -/
def rkey (rank pa : Nat) : Nat := 2 ^ 62 + rank * 2 ^ 44 + pa

/-- Home slice of a physical address (02 R54). -/
def homeSlice (pa : Nat) : Nat := pa / 4096 % 144

/-- Hash of a name over n slices: its index (02 R69). -/
def nameIndex (n space name : Nat) : Nat := (name * 0x9E3779B1 + space * 0x85EBCA77) % 2 ^ 32 * n / 2 ^ 32

/-- Name of a stacked-SRAM address (16 R410). -/
def sram (die off : Nat) : Nat := 0x80000000000 + die * 2 ^ 30 + off

/-! ## Registers -/

/-- Read a g register: g0 reads 0, g16-g23 the in group, g24-g31 the out group (01 R21). -/
def Strand.g (o : Strand) (r : R5) : Word :=
  if r.toNat = 0 then 0
  else if r.toNat < 16 then o.lo.getD r.toNat 0
  else if r.toNat < 24 then o.inG.getD (r.toNat - 16) 0
  else o.outG.getD (r.toNat - 24) 0

/-- Write a g register; a write to g0 is discarded (01 R21). -/
def Strand.setG (o : Strand) (r : R5) (x : Word) : Strand :=
  if r.toNat = 0 then o
  else if r.toNat < 16 then { o with lo := o.lo.setIfInBounds r.toNat x }
  else if r.toNat < 24 then { o with inG := o.inG.setIfInBounds (r.toNat - 16) x }
  else { o with outG := o.outG.setIfInBounds (r.toNat - 24) x }

/-- Read a vector register. -/
def Strand.vr (o : Strand) (r : R5) : Vec := o.v.getD r.toNat 0

/-- Write a vector register. -/
def Strand.setV (o : Strand) (r : R5) (x : Vec) : Strand := { o with v := o.v.setIfInBounds r.toNat x }

/-- Read a mask: k0 reads all ones (01 R21). -/
def Strand.kr (o : Strand) (r : K3) : Word := if r.toNat = 0 then BitVec.allOnes 64 else o.k.getD r.toNat 0

/-- Write a mask; a write to k0 is discarded (01 R21). -/
def Strand.setK (o : Strand) (r : K3) (x : Word) : Strand :=
  if r.toNat = 0 then o else { o with k := o.k.setIfInBounds r.toNat x }

/-- Add to a saturating 32-bit event counter (04 R135): 0 EVINV, 1 EVDZ, 2 EVOVF, 3 EVUNF, 4 EVINX, 5 EVSUB, 6 EVSAT,
7 EVNAN. -/
def Strand.count (o : Strand) (i n : Nat) : Strand :=
  { o with ev := o.ev.setIfInBounds i (BitVec.ofNat 32 (Nat.min 0xFFFFFFFF ((o.ev.getD i 0).toNat + n))) }

/-- Bit i of a mask. -/
def kbit (k : Word) (i : Nat) : Bool := k.getLsbD i

/-- Is mask bit i of register k set. -/
def Strand.active (o : Strand) (k : K3) (i : Nat) : Bool := kbit (o.kr k) i

/-- The strand's core. -/
def Strand.core (o : Strand) : Nat := coreOf o.sid

/-- The strand's cluster. -/
def Strand.cluster (o : Strand) : Nat := clusterOf (coreOf o.sid)

/-- In a standing gang (01 R35 GANGCFG.act). -/
def Strand.ganged (o : Strand) : Bool := o.gang.isSome

/-- WDEPTH.res (01 R35). -/
def Strand.res (o : Strand) : Nat := 2 + o.older.length

/-- Frozen, or frozen pending. -/
def Strand.isFrozen (o : Strand) : Bool := decide (o.run = .frozen) || decide (o.run = .frozenPending)

/-! ## Finding and changing records -/

/-- Change the issuing strand. -/
def State.setMe (s : State) (f : Strand → Strand) : State := { s with me := f s.me }

/-- All strands, the issuing one first. -/
def State.strands (s : State) : List Strand := s.me :: s.others

/-- The strand of a handle, unless its slot is empty. -/
def State.strand (s : State) (key : Nat) : Option Strand :=
  s.strands.find? fun o => decide (o.key = key) && !decide (o.run = .empty)

/-- Change the strand of a handle. -/
def State.upd (s : State) (key : Nat) (f : Strand → Strand) : State :=
  { s with
    me := if s.me.key = key ∧ s.me.run ≠ .empty then f s.me else s.me,
    others := s.others.map fun o => if o.key = key then f o else o }

/-- Change every strand. -/
def State.updAll (s : State) (f : Strand → Strand) : State := { s with me := f s.me, others := s.others.map f }

/-- Make another strand the issuing one; the former one goes back among the others unless its slot is empty. -/
def State.focus (s : State) (key : Nat) : State :=
  if s.me.key = key ∧ s.me.run ≠ .empty then s
  else
    match s.others.find? fun o => decide (o.key = key) with
    | none => s
    | some o =>
      let rest := s.others.filter fun x => !decide (x.key = key)
      { s with me := o, others := if s.me.run = .empty then rest else s.me :: rest }

/-- Add a strand. -/
def State.addStrand (s : State) (o : Strand) : State := { s with others := s.others ++ [o] }

/-- End a strand: its slot becomes Empty. -/
def State.dropStrand (s : State) (key : Nat) : State :=
  { s with
    me := if s.me.key = key then { Strand.blank with key := 0, run := .empty } else s.me,
    others := s.others.filter fun o => !decide (o.key = key) }

/-- The record of a core. -/
def State.core (s : State) (id : Nat) : CoreRec := (s.cores.find? fun c => decide (c.id = id)).getD (CoreRec.blank id)

/-- Change the record of a core. -/
def State.setCore (s : State) (id : Nat) (f : CoreRec → CoreRec) : State :=
  { s with cores := f (s.core id) :: s.cores.filter fun c => !decide (c.id = id) }

/-- The resident strand of a slot (not swapped out). -/
def State.resident (s : State) (sid : Nat) : Option Strand :=
  s.strands.find? fun o => decide (o.sid = sid) && !decide (o.run = .empty) && !o.out && o.ump.isNone

/-- The trailer of a strand pair: it reaches no memory, queue or task by itself (18 R461). -/
def Strand.trailer (o : Strand) : Bool := o.pair.isSome && !o.pairLead

/-- The strand of a context that belongs to a slot, resident or swapped out from it (01 R26). -/
def State.slotStrand (s : State) (sid ctx : Nat) : Option Strand :=
  s.strands.find? fun o => decide (o.sid = sid) && !decide (o.run = .empty) && decide (o.ctx = ctx) && o.ump.isNone && !o.trailer

/-- A fresh handle. -/
def State.fresh (s : State) : Nat × State := (s.uid, { s with uid := s.uid + 1 })

/-- Offer a hardware event to happen next, after those already in flight. -/
def State.later (s : State) (i : Ev) : State := { s with agenda := s.agenda ++ [i] }

/-- The context of an id. -/
def State.ctxOf (s : State) (id : Nat) : Option Ctx := s.fw.ctxs.find? fun c => decide (c.id = id)

/-- Change a context. -/
def State.updCtx (s : State) (id : Nat) (f : Ctx → Ctx) : State :=
  { s with fw := { s.fw with ctxs := s.fw.ctxs.map fun c => if c.id = id then f c else c } }

/-- The launch of a handle. -/
def State.launch (s : State) (uid : Nat) : Option Launch := s.sched.launches.find? fun l => decide (l.uid = uid)

/-- Change a launch. -/
def State.updLaunch (s : State) (uid : Nat) (f : Launch → Launch) : State :=
  { s with sched := { s.sched with launches := s.sched.launches.map fun l => if l.uid = uid then f l else l } }

/-- The crew of a handle. -/
def State.crew (s : State) (uid : Nat) : Option Crew := s.sched.crews.find? fun c => decide (c.uid = uid)

/-- Change a crew. -/
def State.updCrew (s : State) (uid : Nat) (f : Crew → Crew) : State :=
  { s with sched := { s.sched with crews := s.sched.crews.map fun c => if c.uid = uid then f c else c } }

/-- The version of a handle. -/
def State.ver (s : State) (uid : Nat) : Option Ver := s.homes.vers.find? fun v => decide (v.uid = uid)

/-- Change a version. -/
def State.updVer (s : State) (uid : Nat) (f : Ver → Ver) : State :=
  { s with homes := { s.homes with vers := s.homes.vers.map fun v => if v.uid = uid then f v else v } }

/-- Change the homes. -/
def State.setHomes (s : State) (f : Homes → Homes) : State := { s with homes := f s.homes }

/-- Change the firmware's state. -/
def State.setFw (s : State) (f : Firmware → Firmware) : State := { s with fw := f s.fw }

/-- Change the scheduler's state. -/
def State.setSched (s : State) (f : Sched → Sched) : State := { s with sched := f s.sched }

/-- Change the error and clock state. -/
def State.setRas (s : State) (f : Ras → Ras) : State := { s with ras := f s.ras }

/-- A free value number. -/
def State.freeNo (s : State) : Nat × State := (s.free, { s with free := s.free + 1 })

/-! ## Memory -/

/-- The place n bytes on. -/
def Loc.add : Loc → Nat → Loc
  | .mem k, n => .mem (k + n)
  | .tile v o, n => .tile v (o + n)

/-- Read one byte. -/
def State.byte (s : State) : Loc → Byte
  | .mem k => mget s.mem k
  | .tile v o =>
    match s.ver v with
    | some r => tget v r.data o
    | none => Config.freshTileByte v o

/-- Read n bytes. -/
def State.bytes (s : State) (l : Loc) : Nat → List Byte
  | 0 => []
  | n + 1 => s.byte l :: s.bytes (l.add 1) n

/-- Read n bytes as a number. -/
def State.loadNat (s : State) (l : Loc) (n : Nat) : Nat := leNat (s.bytes l n)

/-- Is the 8-byte granule of a place poisoned (18 R455). -/
def State.poisonedAt (s : State) : Loc → Bool
  | .mem k => s.poison.contains (k / 8)
  | .tile v o => s.poison.contains (2 ^ 63 + v * 2 ^ 20 + o / 8)

/-- Granule number of a place. -/
def granule : Loc → Nat
  | .mem k => k / 8
  | .tile v o => 2 ^ 63 + v * 2 ^ 20 + o / 8

/-- Position of a place inside its granule. -/
def inGranule : Loc → Nat
  | .mem k => k % 8
  | .tile _ o => o % 8

/-- Which of the n bytes from a place consume poison first. -/
def State.poisonIn (s : State) (l : Loc) : Nat → Option Nat
  | 0 => none
  | n + 1 =>
    match s.poisonIn l n with
    | some i => some i
    | none => if s.poisonedAt (l.add n) then some n else none

/-- A store that covers whole granules clears their poison (18 R455). -/
def clearPoison (p : List Nat) (l : Loc) (n : Nat) : List Nat :=
  p.filter fun g =>
    !((List.range (n / 8 + 1)).any fun i =>
        decide (granule (l.add (i * 8)) = g) && decide (inGranule (l.add (i * 8)) = 0) && decide (i * 8 + 8 ≤ n))

/-- A store to a byte of a loaded image makes the decode RAM reload (04 R122). -/
def staleRam (k n : Nat) (r : Option DecRam) : Option DecRam :=
  r.map fun d => if k < d.base + 1024 ∧ d.base < k + n then { d with stale := true } else d

/-- The kept order verdicts that a store of n bytes leaves standing: those of images it does not touch (04 R130). -/
def keptVerdicts (k n : Nat) (l : List (Nat × Bool)) : List (Nat × Bool) :=
  l.filter fun v => !(decide (k < v.1 + 1024) && decide (v.1 < k + n))

/-- Mark decode RAMs and drop order verdicts after a store. -/
def State.touchRams (s : State) (l : Loc) (n : Nat) : State :=
  match l with
  | .mem k =>
    if 2 ^ 60 ≤ k ∧ k < 2 ^ 61 then
      { s with cores := s.cores.map fun c =>
          { c with ramA := staleRam k n c.ramA, ramB := staleRam k n c.ramB, verdicts := keptVerdicts k n c.verdicts } }
    else s
  | .tile _ _ => s

/-- Put bytes into a version's data. -/
def tsetN (d : List Host.Cell) (o : Nat) : List Byte → List Host.Cell
  | [] => d
  | b :: t => tsetN (tset d o b) (o + 1) t

/-- Store bytes at a place. -/
def State.put (s : State) (l : Loc) (bs : List Byte) : State :=
  let s1 := { s with poison := clearPoison s.poison l bs.length }
  match l with
  | .mem k => State.touchRams { s1 with mem := msetN s1.mem k bs } l bs.length
  | .tile v o => s1.updVer v fun r => { r with data := tsetN r.data o bs }

/-- Store the present bytes of a list, 8 at a time: only a granule stored whole loses its poison (02 R57, 18 R455). `n`
bounds the chunks. -/
def State.putMask (s : State) (l : Loc) (bs : List (Option Byte)) : Nat → State
  | 0 => s
  | n + 1 =>
    let c := bs.take 8
    let s1 :=
      if c.all (·.isSome) then s.put l (c.map (·.getD 0))
      else (c.zipIdx).foldl (fun s x => match x.1 with
        | some b => s.put (l.add x.2) [b]
        | none => s) s
    s1.putMask (l.add 8) (bs.drop 8) n

/-- Store the n low bytes of a number. -/
def State.putNat (s : State) (l : Loc) (n x : Nat) : State := s.put l (natLE n x)

/-- Read a 64-bit word of physical or local memory by key. -/
def State.word (s : State) (k : Nat) : Word := BitVec.ofNat 64 (s.loadNat (.mem k) 8)

/-- Write a 64-bit word by key. -/
def State.setWord (s : State) (k : Nat) (x : Word) : State := s.putNat (.mem k) 8 x.toNat

/-! ## Frames and translation (16 R410-R421) -/

/-- Is a PA one of HBM4 or stacked SRAM (16 R410). -/
def paExists (pa : Nat) : Bool :=
  decide (pa / 65536 ≤ 7812351) || (decide (0x80000000000 ≤ pa) && decide (pa < 0x80000000000 + 4 * 2 ^ 30))

/-- The kind of a frame when nothing set it (16 R411, R367): backing frames firmware, other HBM4 plain; of each SRAM
gigabyte the top frame and the 64 below it firmware, then the carved units, the rest none. -/
def defaultKind (carve : Vector Nat 4) (frame : Nat) : FrameKind :=
  if frame ≤ 7812351 then (if frame / 256 ≥ 30485 then .firmware else .plain)
  else if 0x8000000 ≤ frame ∧ frame < 0x8000000 + 65536 then
    let die := (frame - 0x8000000) / 16384
    let fromTop := 16383 - (frame - 0x8000000) % 16384
    if fromTop < 65 then .firmware
    else if fromTop < 65 + 1024 * carve.getD die 0 then .carved
    else .none
  else .none

/-- The kind of a frame (02 R88). -/
def State.kindOf (s : State) (frame : Nat) : FrameKind :=
  match s.fw.fkinds.find? fun p => decide (p.1 = frame) with
  | some p => p.2
  | none => defaultKind s.fw.carve frame

/-- Kind codes (02 R88). -/
def kindCode : FrameKind → Nat
  | .plain => 0 | .tile => 1 | .carved => 2 | .trace => 3 | .firmware => 4 | .none => 7

/-- Kind of a code; the reserved codes name no kind (02 R88). -/
def kindOfCode (x : Nat) : FrameKind :=
  match x with
  | 0 => .plain | 1 => .tile | 2 => .carved | 3 => .trace | 4 => .firmware | _ => .none

/-- A cause with the data of the freeze record. `ueLine` names a poisoned table line a walk met (16 R421). -/
structure Raise where
  cause : Cause
  lane : Nat
  addr : Word
  datum : Word
  ueLine : Option (Nat × Nat)
  deriving DecidableEq, Repr

/-- A cause with no address. -/
def Raise.of (c : Cause) : Raise := { cause := c, lane := 0, addr := 0, datum := 0, ueLine := none }

/-- A cause at an address and lane. -/
def Raise.at' (c : Cause) (lane : Nat) (a : Word) : Raise := { cause := c, lane := lane, addr := a, datum := 0, ueLine := none }

/-- The rights of a leaf (16 R417). -/
inductive Right where
  | r | w | x
  deriving DecidableEq, Repr

/-- A leaf: PA, PTE kind and rights. -/
structure Leaf where
  pa : Nat
  kind : FrameKind
  r : Bool
  w : Bool
  x : Bool
  deriving DecidableEq, Repr

/-- What a walk ends with. -/
inductive Walk where
  | leaf (l : Leaf)
  | bad (c : Cause) (ue : Option (Nat × Nat))
  deriving DecidableEq, Repr

/-- VA bits indexed at a level (16 R416). -/
def levelIndex (level va : Nat) : Nat := va / 2 ^ (16 + 10 * level) % 1024

/-- A PA reached by a leaf exists: memory, or an aperture of 17 R449. -/
def leafPaOk (pa : Nat) : Bool := paExists pa || decide (pa / 2 ^ 42 = 1) || decide (pa / 2 ^ 42 = 3)

/-- What one table entry says. -/
inductive Entry where
  | leaf (l : Leaf)
  | table (pa : Nat)
  | bad (c : Cause) (ue : Option (Nat × Nat))
  deriving DecidableEq, Repr

/-- The leaf that an entry gives for a VA in its page. -/
def leafOf (e level va : Nat) : Leaf :=
  { pa := fld e 16 28 * 65536 + va % 2 ^ (16 + 10 * level), kind := kindOfCode (fld e 9 3), r := bit e 2, w := bit e 3, x := bit e 4 }

/-- What a table entry of a level says about a VA (16 R417). -/
def entryOf (e level va : Nat) : Entry :=
  if !bit e 0 || fld e 44 20 ≠ 0 || bit e 12 || fld e 5 4 ≠ 0 then .bad Cause.pageNotPresent none
  else if bit e 1 then
    if level = 3 ∨ fld e 13 3 ≠ 0 ∨ (fld e 16 28 * 65536) % 2 ^ (16 + 10 * level) ≠ 0 then
      .bad Cause.pageNotPresent none
    else if leafPaOk (leafOf e level va).pa then .leaf (leafOf e level va)
    else .bad Cause.pageNotPresent none
  else if fld e 9 3 ≠ 0 then .bad Cause.pageNotPresent none
  else .table (fld e 13 31 * 8192)

/-- The value a die's walk cache holds of a non-leaf entry (16 R419). -/
def State.walkHit (s : State) (die a : Nat) : Option Word :=
  (s.walks.find? fun w => decide (w.die = die) && decide (w.at0 = a)).map (·.pte)

/-- Read one table entry on behalf of a die: its walk cache first, else the line, unless it is blocked or has an uncorrectable error
(16 R419, R421). -/
def readEntry (s : State) (die va level table : Nat) : Entry :=
  let a := table + 8 * levelIndex level va
  let line := a / 64 * 64
  match s.walkHit die a with
  | some e => entryOf e.toNat level va
  | none =>
    if s.fw.blocked.contains line || (s.poisonIn (.mem line) 64).isSome then .bad Cause.pteUncorrectable (some (line, level))
    else entryOf (s.loadNat (.mem a) 8) level va

/-- The walk from a level down (16 R416). -/
def walkFrom (s : State) (die va : Nat) : Nat → Nat → Walk
  | 0, t =>
    match readEntry s die va 0 t with
    | .leaf l => .leaf l
    | .table _ => .bad Cause.pageNotPresent none
    | .bad c u => .bad c u
  | n + 1, t =>
    match readEntry s die va (n + 1) t with
    | .leaf l => .leaf l
    | .table t' => walkFrom s die va n t'
    | .bad c u => .bad c u

/-- The entries that a walk reads, top first: level, PA and value. -/
def walkPath (s : State) (die va : Nat) : Nat → Nat → List (Nat × Nat × Word)
  | 0, t => [(0, t + 8 * levelIndex 0 va, s.word (t + 8 * levelIndex 0 va))]
  | n + 1, t =>
    let a := t + 8 * levelIndex (n + 1) va
    (n + 1, a, (s.walkHit die a).getD (s.word a)) :: match readEntry s die va (n + 1) t with
      | .table t' => walkPath s die va n t'
      | _ => []

/-- Translate a VA of a context without a TLB, as firmware does. Context 0 uses no page tables: its addresses are physical (16 R407). -/
def translate (s : State) (ctx va : Nat) : Walk :=
  if ctx = 0 then
    if leafPaOk va then .leaf { pa := va, kind := s.kindOf (va / 65536), r := true, w := true, x := true }
    else .bad Cause.pageNotPresent none
  else
    match s.ctxOf ctx with
    | none => .bad Cause.pageNotPresent none
    | some c => walkFrom s 4 va 3 c.root

/-- The slice TLB of an engine or of a core's cluster (16 R419). -/
def sliceTlb (slice : Nat) : Nat := 4096 + slice

/-- The leaf that a TLB holds for a VA: the page's size and its entry. -/
def State.tlbHit (s : State) (place ctx va : Nat) : Option TlbLeaf :=
  s.tlb.find? fun e => decide (e.place = place) && decide (e.ctx = ctx) && decide (e.va = va / e.size * e.size)

/-- The level of the leaf of a page size. -/
def sizeLevel (size : Nat) : Nat := if size = 65536 then 0 else if size = 2 ^ 26 then 1 else 2

/-- Translate a VA through TLBs in order, then a walk by the die (16 R419). A cached leaf is used whatever has become of its table line
(16 R421). -/
def translateAt (s : State) (places : List Nat) (die ctx va : Nat) : Walk :=
  if ctx = 0 then translate s ctx va
  else
    match places.findSome? fun p => s.tlbHit p ctx va with
    | some e => .leaf (leafOf e.pte.toNat (sizeLevel e.size) va)
    | none =>
      match s.ctxOf ctx with
      | none => .bad Cause.pageNotPresent none
      | some c => walkFrom s die va 3 c.root

/-- The TLBs of a core: its micro-TLB, then its cluster's slice (16 R419). -/
def tlbsOf (core : Nat) : List Nat := [core, sliceTlb (bankSlice core)]

/-- Leaves that a TLB holds. -/
def tlbRoom (place : Nat) : Nat := if place < 4096 then 32 else 1024

/-- A TLB takes a leaf; the oldest goes where it is full (16 R419 gives no choice; log 48). -/
def addLeaf (e : TlbLeaf) (l : List TlbLeaf) : List TlbLeaf :=
  e :: ((l.filter fun x => decide (x.place = e.place)).take (tlbRoom e.place - 1) ++ l.filter fun x => !decide (x.place = e.place))

/-- A walk cache takes an entry. -/
def addWalk (e : WalkEntry) (l : List WalkEntry) : List WalkEntry :=
  e :: ((l.filter fun x => decide (x.die = e.die) && !decide (x.at0 = e.at0)).take 511 ++ l.filter fun x => !decide (x.die = e.die))

/-- What a translation leaves in the TLBs it went through and in the die's walk cache (16 R419). Entries without a leaf are never
cached (16 R420). -/
def State.noteWalk (s : State) (places : List Nat) (die ctx va : Nat) : State :=
  if ctx = 0 then s
  else
    match places.findSome? fun p => s.tlbHit p ctx va with
    | some e =>
      { s with tlb := (places.takeWhile fun p => (s.tlbHit p ctx va).isNone).foldl (fun l p => addLeaf { e with place := p } l) s.tlb }
    | none =>
      match s.ctxOf ctx with
      | none => s
      | some c =>
        match walkFrom s die va 3 c.root with
        | .bad _ _ => s
        | .leaf _ =>
          let path := walkPath s die va 3 c.root
          match path.getLast? with
          | none => s
          | some (level, _, e) =>
            let size := 2 ^ (16 + 10 * level)
            let leaf := fun (p : Nat) => ({ place := p, ctx := ctx, va := va / size * size, size := size, pte := e,
                                            lines := path.map fun x => x.2.1 / 64 * 64 } : TlbLeaf)
            { s with tlb := places.foldl (fun l p => addLeaf (leaf p) l) s.tlb
                     walks := path.dropLast.foldl (fun l x => addWalk { die := die, at0 := x.2.1, pte := x.2.2 } l) s.walks }

/-! ## Routes between dies (03 R107; 17 R439, R442, R443) -/

/-- Die of a slice (00 R3). -/
def dieOfSlice (i : Nat) : Nat := i / 36

/-- The record of a link. -/
def State.link (s : State) (l : Nat) : Link := s.links.getD l Link.up

/-- The edge between two dies that share one: its first link id, and the bits of a module's number (17 R437). Die 4 is the port
die. -/
def edgeOf (a b : Nat) : Option (Nat × Nat) :=
  match Nat.min a b, Nat.max a b with
  | 0, 1 => some (0, 4)
  | 0, 2 => some (16, 4)
  | 1, 3 => some (32, 4)
  | 2, 3 => some (48, 4)
  | a, 4 => if a < 4 then some (64 + 8 * a, 3) else none
  | _, _ => none

/-- The die east or west of a compute die (00 R3). -/
def besideDie (a : Nat) : Nat := if a % 2 = 0 then a + 1 else a - 1

/-- The hops of a route: a diagonal one passes through the die east or west of its source (03 R107, 00 R3). -/
def hops (a b : Nat) : List (Nat × Nat) :=
  if a = b then [] else if (edgeOf a b).isSome then [(a, b)] else [(a, besideDie a), (besideDie a, b)]

/-- The module a key names first, of 2^bits (17 R439). -/
def moduleIndex (bits key : Nat) : Nat := key * 0x9E3779B1 % 2 ^ 32 / 2 ^ (32 - bits)

/-- A module that carries no route: down, or on its way up from there (17 R439, R442). -/
def routeless (x : Link) : Bool := decide (x.st = 0) || decide (x.st = 1)

/-- The link of a hop: the first module that is not down from the key's on; the key's own when all are, since its messages wait at that
edge stage (17 R439, R442). -/
def State.hopLink (s : State) (key : Nat) (h : Nat × Nat) : Option Nat :=
  (edgeOf h.1 h.2).map fun e =>
    let n := 2 ^ e.2
    let ls := (List.range n).map fun i => e.1 + (moduleIndex e.2 key + i) % n
    (ls.find? fun l => !routeless (s.link l)).getD (e.1 + moduleIndex e.2 key)

/-- The link at whose edge stage a message from die a to die b waits: the first of its route that is not up (17 R443). -/
def State.heldAt (s : State) (a b key : Nat) : Option Nat :=
  ((hops a b).filterMap (s.hopLink key)).find? fun l => !decide ((s.link l).st = 2)

/-- A walk that no TLB spares has to read a table line behind a module that holds messages (17 R443). -/
def State.walkHeld (s : State) (places : List Nat) (die ctx va : Nat) : Bool :=
  !decide (ctx = 0) && (places.all fun p => (s.tlbHit p ctx va).isNone) &&
    match s.ctxOf ctx with
    | none => false
    | some c => (walkPath s die va 3 c.root).any fun x =>
        (s.walkHit die x.2.1).isNone && (s.heldAt die (dieOfSlice (homeSlice x.2.1)) (x.2.1 / 4096)).isSome

/-- Nothing read through a table line stays cached (16 R420, R423). -/
def State.dropCached (s : State) (line : Nat) : State :=
  { s with tlb := s.tlb.filter fun e => !e.lines.contains line, walks := s.walks.filter fun w => !decide (w.at0 / 64 * 64 = line) }

/-- The name space of a name in a context: names with bit 31 set are global in a grouped context (16 R409). A local space
is the context's id, a global one 2^16 + the group's id. -/
def State.spaceOf (s : State) (ctx name : Nat) : Nat :=
  match (s.ctxOf ctx).bind (·.group) with
  | some (gid, _, _) => if 2 ^ 31 ≤ name then 2 ^ 16 + gid else ctx
  | none => ctx

/-- The home slice of a name, within its package (02 R69). -/
def State.nameSlice (s : State) (space name : Nat) : Nat :=
  if space < 2 ^ 16 then nameIndex 144 space name
  else
    let p := (s.fw.ctxs.findSome? fun c => match c.group with
      | some (g, p, _) => if g = space - 2 ^ 16 then some p else none
      | none => none).getD 1
    nameIndex (144 * p) (space - 2 ^ 16) name % 144

/-- The rank of the package that homes a global name, where it is not this one (02 R69, 17 R450). -/
def State.nameRank (s : State) (space name : Nat) : Option Nat :=
  if space < 2 ^ 16 then none
  else
    (s.fw.ctxs.findSome? fun c => match c.group with
      | some (g, p, r) => if g = space - 2 ^ 16 then some (nameIndex (144 * p) (space - 2 ^ 16) name / 144, r) else none
      | none => none).bind fun x => if x.1 = x.2 then none else some x.1

/-! ## Address checks (07 R197) -/

/-- The regions of 02 R48 that an address can lie in. -/
inductive Region where
  | plain
  | mine (off : Nat)
  | bank (core off : Nat)
  | window (w off : Nat)
  deriving DecidableEq, Repr

/-- Steps 1 and 2 of 07 R197. -/
def regionOf (va : Word) : Cause ⊕ Region :=
  let a := va.toNat
  if a / 2 ^ 56 ≠ 0 ∨ a / 2 ^ 48 = 0xFF then .inl Cause.addressReserved
  else if a / 2 ^ 48 = 0xFC then
    let o := a % 2 ^ 48
    if o / 2 ^ 17 < 2568 then .inr (.bank (o / 2 ^ 17) (o % 2 ^ 17)) else .inl Cause.localRange
  else if a / 2 ^ 48 = 0xFD then
    let o := a % 2 ^ 48
    if o < 2 ^ 17 then .inr (.mine o) else .inl Cause.localRange
  else if a / 2 ^ 48 = 0xFE then
    let o := a % 2 ^ 48
    if o / 2 ^ 22 < 16 then .inr (.window (o / 2 ^ 22) (o % 2 ^ 22)) else .inl Cause.tileWindowRange
  else .inr .plain

/-- What an access needs: read and write rights, whether R89 takes it as a write, whether step 4 takes it as a store, causes for
regions it does not accept (step 5), and whether step 7 applies. -/
structure Acc where
  r : Bool
  w : Bool
  write : Bool
  st : Bool
  noLocal : Option Cause
  noWindow : Option Cause
  noRemote : Option Cause
  replay : Bool
  deriving DecidableEq, Repr

/-- A load. -/
def Acc.load : Acc := { r := true, w := false, write := false, st := false, noLocal := none, noWindow := none, noRemote := none, replay := true }

/-- A deferrable store: step 7 does not apply, it queues instead (03 R114). -/
def Acc.store : Acc := { Acc.load with r := false, w := true, write := true, st := true, replay := false }

/-- An atomic: read and write side (07 R215). -/
def Acc.atomic : Acc := { Acc.load with w := true, write := true, st := true, noWindow := some Cause.reservationRegion }

/-- LRW: the read side alone. -/
def Acc.lrw : Acc := { Acc.load with noWindow := some Cause.reservationRegion }

/-- SCH: the write side alone. -/
def Acc.sch : Acc := { Acc.atomic with r := false }

/-- RLS neither reads nor writes. -/
def Acc.rls : Acc := { Acc.lrw with r := false }

/-- An update (02 R63, 17 R449). -/
def Acc.update : Acc :=
  { Acc.load with w := true, write := true, noLocal := some Cause.uopRegion, noWindow := some Cause.uopRegion,
                  noRemote := some Cause.uopRegion }

/-- The outcome of the checks. `pa` is set for plain memory of this package; `page` is the VA page. -/
inductive Chk where
  | ok (l : Loc) (rg : Region) (pa : Option Nat)
  | bad (r : Raise)
  | defer (r : Raise)
  | wait (ver : Option Nat)
  deriving DecidableEq, Repr

/-- The context an umpire acts for: that of the strand which its current cap0 names (02 R51, 11 R316). -/
def wardCtx (o : Strand) : Option Nat :=
  let c := o.caps.getD 0 0
  if o.level = .umpire ∧ c.getLsbD 127 = true then some (c.toNat / 2 ^ 16 % 2 ^ 16) else none

/-- May the strand reach the local memory of a core through the global local-memory space: firmware, a strand of the owning context,
or an umpire that acts for one of its strands (02 R51). -/
def localAllowed (s : State) (o : Strand) (core : Nat) : Bool :=
  decide (o.level = .firmware) ||
    (decide (core < 2560) && (s.core core).owner.any fun c => decide (c = o.ctx) || decide (wardCtx o = some c))

/-- Step 6 for a leaf: rights, then the kinds of 02 R88 and R89. A PTE of a reserved kind matches no frame. No access writes a tile
frame through a PTE at any level, since such a PTE gives read-only access. Context 0 has no PTE whose kind could differ (16 R407):
only the write to a tile frame is shut out there, which R76 makes impossible (log 36). -/
def leafCheck (s : State) (o : Strand) (a : Acc) (x : Bool) (l : Leaf) : Option Cause :=
  if (a.r && !l.r) || (a.w && !l.w) || (x && !l.x) then some Cause.pageProtection
  else if a.write && decide (l.kind = .tile) then some Cause.frameKindMismatch
  else if o.ctx = 0 then none
  else if paExists l.pa then
    if s.kindOf (l.pa / 65536) ≠ l.kind ∨ l.kind = .none then some Cause.frameKindMismatch
    else if a.write && decide (o.level = .user) && decide (l.kind = .trace) then some Cause.frameKindMismatch
    else if decide (l.kind = .firmware) && !decide (o.level = .firmware) then some Cause.frameKindMismatch
    else if x && !decide (l.kind = .plain) && !decide (o.level = .firmware) then some Cause.frameKindMismatch
    else none
  else if l.kind ≠ .plain then some Cause.frameKindMismatch
  else none

/-- The version whose frames hold a physical tile byte, for a read through a PTE of kind tile (02 R88). -/
def tileAt (s : State) (pa : Nat) : Option Loc :=
  s.homes.vers.findSome? fun v =>
    (v.frames.zipIdx ++ v.hbm.zipIdx).findSome? fun (f, i) =>
      let unit := v.cls.size.min 65536
      if f ≤ pa ∧ pa < f + unit then some (.tile v.uid (i * unit + (pa - f))) else none

/-- The place a PA names: memory of this package, another package's, or the companion's (17 R449). What an aperture reaches, of the own
package too, is no physical address to the caches: its home serves it. -/
def placeOf (s : State) (o : Strand) (l : Leaf) : Option (Loc × Option Nat) :=
  if paExists l.pa then
    if l.kind = .tile then some ((tileAt s l.pa).getD (.mem l.pa), none) else some (.mem l.pa, some l.pa)
  else if l.pa / 2 ^ 42 = 3 then
    if (s.links.getD 112 Link.up).st = 2 ∨ (s.links.getD 113 Link.up).st = 2 then some (.mem (ckey (l.pa % 2 ^ 42)), none)
    else none
  else
    let t := l.pa / 2 ^ 38 % 16
    let off := l.pa % 2 ^ 38
    match (s.ctxOf o.ctx).bind (·.group) with
    | none => none
    | some (gid, _, rank) =>
      match s.fw.exports.find? fun e => decide (e.1 = gid) && decide (e.2.1 = t) with
      | none => none
      | some (_, _, base, size) =>
        if off < size then
          if t = rank then some (.mem (base + off), none)
          else if s.fw.routes.any fun p => decide (p.1 = t) then some (.mem (rkey t (base + off)), none)
          else none
        else none

/-- A queued replay entry holds the page of an address (03 R115). -/
def replayHolds (o : Strand) (va : Nat) : Bool := o.replay.any fun e => e.pages.contains (va / 65536)

/-- Places that a running command has still to write: while they stand, an access by another agent to their lines waits for the recall
(03 R110, 09 R275). -/
def Cmd.toWrite (c : Cmd) : List Loc := if c.st = .running then c.dst.flatten ++ c.pieces.flatMap (·.dst) else []

/-- A running command owns the line of an address. -/
def State.engineOwns (s : State) (pa : Nat) : Bool :=
  s.cmds.any fun c => c.toWrite.any fun p => match p with
    | .mem k => decide (k / 64 = pa / 64)
    | .tile _ _ => false

/-- Is the frame of a PA on its way to another (16 R414). -/
def State.frameMoving (s : State) (pa : Nat) : Bool := s.fw.migrate.any fun m => decide (m.1 = pa / 65536)

/-- An access to a PA has to wait: its frame moves, or an engine owns its line. -/
def State.heldPa (s : State) (pa : Nat) : Bool := s.frameMoving pa || s.engineOwns pa

/-- Companion accesses that waited at the ports are offered again, in order (16 R414, 18 R477). -/
def State.unpark (s : State) : State := { s with agenda := s.parked ++ s.agenda, parked := [] }

/-- Step 6 for plain memory: the walk, the place, the rights, the kinds, in this order (07 R197; 17 R449). -/
def plainCheck (s : State) (o : Strand) (a : Acc) (lane : Nat) (va : Word) : Raise ⊕ (Leaf × Loc × Option Nat) :=
  match translateAt s (tlbsOf o.core) (dieOf o.core) o.ctx va.toNat with
  | .bad c ue => .inl { Raise.at' c lane va with ueLine := ue }
  | .leaf l =>
    match placeOf s o l with
    | none => .inl (Raise.at' Cause.pageNotPresent lane va)
    | some (p, pa) =>
      match leafCheck s o a false l with
      | some c => .inl (Raise.at' c lane va)
      | none => .inr (l, p, pa)

/-- All checks of 07 R197 on one element. A window whose mapping is still pending counts as unmapped, which the spec does not say
(DESIGN CHOICE, log 36). A draft window whose version was published and has died can still be read, as free bytes, and
not written (log 36). -/
def check (s : State) (o : Strand) (a : Acc) (size lane : Nat) (va : Word) : Chk :=
  match regionOf va with
  | .inl c => .bad (Raise.at' c lane va)
  | .inr rg =>
    if va.toNat % size ≠ 0 then .bad (Raise.at' Cause.misaligned lane va)
    else
      match rg with
      | .mine off =>
        match a.noLocal with
        | some c => .bad (Raise.at' c lane va)
        | none => .ok (.mem (lkey o.core off)) rg none
      | .bank core off =>
        if !localAllowed s o core then .bad (Raise.at' Cause.localContext lane va)
        else
          match a.noLocal with
          | some c => .bad (Raise.at' c lane va)
          | none => .ok (.mem (lkey core off)) rg none
      | .window w off =>
        match o.win.getD w .unmapped with
        | .unmapped => .bad (Raise.at' Cause.tileWindowUnmapped lane va)
        | .released => .bad (Raise.at' (if a.st then Cause.tileReadonly else Cause.tileWindowUnmapped) lane va)
        | .pending _ _ => .bad (Raise.at' Cause.tileWindowUnmapped lane va)
        | .cancelled c _ => .bad (Raise.at' c lane va)
        | .ro v cls =>
          if off ≥ cls.size then .bad (Raise.at' Cause.tileWindowRange lane va)
          else if a.st then .bad (Raise.at' Cause.tileReadonly lane va)
          else
            match a.noWindow with
            | some c => .bad (Raise.at' c lane va)
            | none =>
              match s.ver v with
              | some r => if r.st = .racked ∨ r.st = .floating then .wait (some v) else .ok (.tile v off) rg none
              | none => .ok (.tile v off) rg none
        | .draft v cls =>
          if off ≥ cls.size then .bad (Raise.at' Cause.tileWindowRange lane va)
          else
            match a.noWindow with
            | some c => .bad (Raise.at' c lane va)
            | none =>
              match s.ver v with
              | some r =>
                if a.write && !decide (r.st = .drafted) then .bad (Raise.at' Cause.tileReadonly lane va)
                else if r.st = .racked ∨ r.st = .floating then .wait (some v)
                else .ok (.tile v off) rg none
              | none => if a.write then .bad (Raise.at' Cause.tileReadonly lane va) else .ok (.tile v off) rg none
      | .plain =>
        if s.walkHeld (tlbsOf o.core) (dieOf o.core) o.ctx va.toNat then .wait none else
        match plainCheck s o a lane va with
        | .inl r => .defer r
        | .inr (l, p, pa) =>
          if a.replay && replayHolds o va.toNat then .bad (Raise.at' Cause.replayPage lane va)
          else if pa.isNone && !decide (l.kind = .tile) && a.noRemote.isSome then .bad (Raise.at' (a.noRemote.getD 0) lane va)
          else if s.heldPa l.pa then .wait none
          else .ok p rg pa

/-! ## Evidence: black box, trace, events -/

/-- Box types kept in the severe ring (18 R465). -/
def bbSevere (typ : Nat) : Bool := typ = 2 || typ = 3 || typ = 4 || typ = 5 || typ = 7 || typ = 8

/-- Write a black-box record in a die's top stacked-SRAM frame; port-die events go to die 0 (18 R465). -/
def State.blackBox (s : State) (die typ code who ctx : Nat) (data : Word) : State :=
  let d := if die < 4 then die else 0
  let sev := bbSevere typ
  let seq := s.ras.bbSeq.getD d 1
  let slot := if sev then 1536 + s.ras.bbSev.getD d 0 % 512 else s.ras.bbGen.getD d 0 % 1536
  let at0 := sram d (2 ^ 30 - 65536) + slot * 32
  let bytes := natLE 8 s.tick ++ natLE 1 typ ++ natLE 1 die ++ natLE 2 code ++ natLE 4 who ++ natLE 2 ctx ++ natLE 2 0
    ++ natLE 8 data.toNat ++ natLE 4 seq
  let s1 := s.put (.mem at0) bytes
  s1.setRas fun r =>
    { r with
      bbSeq := r.bbSeq.setIfInBounds d (if seq = 0xFFFFFFFF then 1 else seq + 1)
      bbGen := if sev then r.bbGen else r.bbGen.setIfInBounds d (r.bbGen.getD d 0 + 1)
      bbSev := if sev then r.bbSev.setIfInBounds d (r.bbSev.getD d 0 + 1) else r.bbSev
      bbTotal := r.bbTotal + 1 }

/-- A 32-byte record of a core's encoder, at its place in the buffer, a .nc store at the home of its frame; it takes four cycles
(18 R471). -/
def State.traceRecord (s : State) (core slot ctx typ : Nat) (pc datum : Word) (start : Nat) : State :=
  let c := s.core core
  let at0 := c.trcBase * 65536 + (c.trcSeq * 32) % (c.trcFrames * 65536)
  let bytes := natLE 8 s.tick ++ natLE 8 pc.toNat ++ natLE 8 datum.toNat ++ natLE 1 typ ++ natLE 1 slot ++ natLE 2 ctx
    ++ natLE 4 c.trcSeq
  ((s.put (.mem at0) bytes).setCore core fun c => { c with trcSeq := c.trcSeq + 1, trcBusy := start + 4 }).later
    (.objectRequest (poolOf core) at0 .storeNc)

/-- The lost record, once there is room for it (18 R471; its PC, slot and context are not given: log 44). -/
def State.traceLost (s : State) (core : Nat) : State :=
  let c := s.core core
  if c.trcLost = 0 then s
  else (s.traceRecord core 0 0 8 0 (BitVec.ofNat 64 c.trcLost) c.trcBusy).setCore core fun c => { c with trcLost := 0 }

/-- A trace record of a core: under the filter only; one that comes while the encoder still writes another is dropped and
counted (18 R470, R471). -/
def State.trace (s : State) (core slot ctx typ : Nat) (pc datum : Word) : State :=
  let c := s.core core
  if c.trcOn && (decide (c.trcCtx = 0) || decide (c.trcCtx = ctx)) then
    let s1 := if c.trcBusy ≤ s.tick then s.traceLost core else s
    if s.tick < (s1.core core).trcBusy then s1.setCore core fun c => { c with trcLost := c.trcLost + 1 }
    else s1.traceRecord core slot ctx typ pc datum s.tick
  else s

/-- A trace record of a strand. -/
def State.traceOf (s : State) (o : Strand) (typ : Nat) (datum : Word) : State :=
  s.trace o.core (slotOf o.sid) o.ctx typ o.pc datum

/-- Post an event to the driver (16 R401, R402): to mailbox 1 when only it is on, else to mailbox 0 (log 17). Beyond 256
waiting entries an event is dropped and counted, and EV_LOST goes before the next one that is written. -/
def State.event (s : State) (code : Nat) (res0 res1 : Word) (aux : Nat) : State :=
  let m := if (s.fw.mbx.getD 0 Mbx.blank).on || !(s.fw.mbx.getD 1 Mbx.blank).on then 0 else 1
  let b := s.fw.mbx.getD m Mbx.blank
  let entry := fun (code : Nat) (x y : Word) (z : Nat) => #v[BitVec.ofNat 64 (1 + code * 256), x, y, BitVec.ofNat 64 z]
  let e : Vector Word 4 := entry code res0 res1 aux
  let b' : Mbx :=
    if 256 ≤ b.evq.length then { b with lostEv := b.lostEv + 1 }
    else if b.lostEv = 0 then { b with evq := b.evq ++ [e] }
    else
      let q := b.evq ++ [entry 9 (BitVec.ofNat 64 b.lostEv) 0 0]
      if 256 ≤ q.length then { b with evq := q, lostEv := 1 } else { b with evq := q ++ [e], lostEv := 0 }
  s.setFw fun f => { f with mbx := f.mbx.setIfInBounds m b' }

/-- Post the reply of a command (16 R401): never dropped. -/
def State.reply (s : State) (c : CmdRec) (code status : Nat) (res0 res1 : Word) : State :=
  let b := s.fw.mbx.getD c.mbx Mbx.blank
  let e : Vector Word 4 :=
    #v[BitVec.ofNat 64 (status * 256 + code * 65536 + c.seq.toNat * 2 ^ 32), res0, res1, 0]
  s.setFw fun f => { f with mbx := f.mbx.setIfInBounds c.mbx { b with evq := b.evq ++ [e] } }

/-- Record an uncorrectable error: event, black box, RASUE (18 R455, R458). -/
def State.reportUe (s : State) (unit : Nat) (pa : Nat) (die : Nat) : State :=
  let s1 := (s.event 4 (BitVec.ofNat 64 pa) (BitVec.ofNat 64 unit) 0).blackBox die 3 unit 0 0 (BitVec.ofNat 64 pa)
  s1.setRas fun r =>
    { r with ue := BitVec.ofNat 64 (Nat.min 0xFFFF (r.ue.toNat / 2 ^ 48 + 1) * 2 ^ 48 + unit % 16 * 2 ^ 44 + pa % 2 ^ 44) }

/-- Enter a table line in the block list and post one event per line and context (16 R421). -/
def State.blockLine (s : State) (line level ctx : Nat) : State :=
  let s1 := s.setFw fun f =>
    if f.blocked.contains line then f
    else { f with blocked := (if f.blocked.length ≥ 256 then f.blocked.drop 1 else f.blocked) ++ [line] }
  if s1.fw.ueSeen.contains (line, ctx) then s1
  else (s1.setFw fun f => { f with ueSeen := (line, ctx) :: f.ueSeen }).event 3 (BitVec.ofNat 64 line) (BitVec.ofNat 64 level) ctx

/-! ## Queue registers and places in a crew (01 R25, R46) -/

/-- The causes of using a queue register for a pop or a push, in the order of 08 R233 (01 R25, R26; 10 R290). -/
def queueCause (o : Strand) (push : Bool) (q : Q4) : Option Cause :=
  let n := q.toNat
  if 11 ≤ n then some Cause.queueReserved
  else if (push && decide (4 ≤ n) && decide (n ≤ 8)) || (!push && (decide (n = 4) || decide (n = 6))) then
    some Cause.queueDirection
  else if 9 ≤ n && !o.ganged then some Cause.gangQueue
  else if push && decide (n < 4) && (facing o.core n).isNone then some Cause.queueEdge
  else none

/-- The leader of a standing gang. -/
def Strand.isLead (o : Strand) : Bool := o.ganged && decide (o.gidx = 0)

/-- A pop that returns the member's echo instead of popping (10 R291). -/
def popsEcho (o : Strand) (q : Q4) : Bool :=
  (decide (q.toNat = 9) && o.isLead) || (decide (q.toNat = 10) && !o.isLead)

/-- Words that a pop of a queue finds (01 R25); q8 notices are words here. -/
def inWords (o : Strand) (q : Q4) : List Word :=
  match q.toNat with
  | 5 => o.q5
  | 7 => o.q7
  | 8 => o.q8
  | 9 => o.q9
  | 10 => o.q10
  | n => if n < 4 then o.qin.getD n [] else []

/-- Take the first n words of a queue away. -/
def dropWords (q : Q4) (n : Nat) (o : Strand) : Strand :=
  match q.toNat with
  | 5 => { o with q5 := o.q5.drop n }
  | 7 => { o with q7 := o.q7.drop n }
  | 8 => { o with q8 := o.q8.drop n }
  | 9 => { o with q9 := o.q9.drop n }
  | 10 => { o with q10 := o.q10.drop n }
  | i =>
    if i < 4 then
      { o with qin := o.qin.setIfInBounds i ((o.qin.getD i []).drop n), qbad := o.qbad.setIfInBounds i ((o.qbad.getD i []).drop n),
               popped := o.popped.setIfInBounds i (o.popped.getD i 0 + n) }
    else o

/-- Words popped for a matrix step that did not start stand in their queue again; `bad` is the poison among them (09 R268). -/
def unpopWords (q : Q4) (ws : List Word) (bad : Option Word) (o : Strand) : Strand :=
  match q.toNat with
  | 5 => { o with q5 := ws ++ o.q5 }
  | 7 => { o with q7 := ws ++ o.q7 }
  | 8 => { o with q8 := ws ++ o.q8 }
  | 9 => { o with q9 := if popsEcho o q then o.q9 else ws ++ o.q9 }
  | 10 => { o with q10 := if popsEcho o q then o.q10 else ws ++ o.q10 }
  | i =>
    if i < 4 ∧ ws ≠ [] then
      { o with qin := o.qin.setIfInBounds i (ws ++ o.qin.getD i []),
               qbad := o.qbad.setIfInBounds i (bad :: (List.replicate (ws.length - 1) none ++ o.qbad.getD i [])),
               popped := o.popped.setIfInBounds i (o.popped.getD i 0 - ws.length) }
    else o

/-- Crew column of CREWPOS (01 R46). -/
def crewCol (o : Strand) : Nat := fld o.crewpos.toNat 8 8
/-- Crew row. -/
def crewRow (o : Strand) : Nat := fld o.crewpos.toNat 16 8
/-- Crew width. -/
def crewW (o : Strand) : Nat := fld o.crewpos.toNat 24 8
/-- Crew height. -/
def crewH (o : Strand) : Nat := fld o.crewpos.toNat 32 8

/-- Members of a gang of code nc. -/
def gangSize (nc : BitVec 2) : Nat := 2 ^ nc.toNat

/-- The strand ids of the members of the gang that a strand asks for, in order (01 R40). -/
def gangSids (o : Strand) (nc : BitVec 2) (south : Bool) : List Nat :=
  let n := gangSize nc
  let c := if south then crewRow o else crewCol o
  let c0 := n * (c / n)
  (List.range n).map fun i =>
    let core := if south then o.core + (c0 + i) * 24 - c * 24 else o.core + (c0 + i) - c
    core * 8 + slotOf o.sid

/-- A step as it leaves the pipe: nothing staged, nothing computed (09 R268). What it has forwarded is not forwarded again. -/
def unstaged (m : MStep) : MStep := { m with started := false, opA := [], opB := [], result := [], ovf := 0, nan := 0, poison := none }

/-- The words that a step had popped stand in their queues again (09 R268). -/
def unpopStep (m : MStep) (o : Strand) : Strand :=
  let back := fun (src : MSrc) (ws : List Word) (bad : Option Word) (o : Strand) =>
    match src with
    | .que q => unpopWords q ws bad o
    | .regs _ => o
  match m.qa with
  | .que _ => back m.qb m.opB none (back m.qa m.opA m.poison o)
  | .regs _ => back m.qb m.opB m.poison o

/-! ## Taking a freeze (11 R315, R329), parking, completing -/

/-- Causes that leave no black-box record (18 R465). -/
def quietCause (c : Cause) : Bool :=
  decide (c = Cause.subnormalOperand) || decide (c = Cause.serviceCall) || decide (c = Cause.breakpoint)

/-- Freeze one strand: run state, record and serial; nothing else of it changes (11 R315), but that a GANG it waited at waits no more
(01 R41). The serial of a strand attached to
an umpire through its replay queue has advanced already (11 R332). -/
def frozenStrand (o : Strand) (r : Raise) (bsyl : Bool) (bundle : Word) (qa : Option Q4) : Strand :=
  { o with
    run := .frozen
    park := .none
    await := none
    woken := false
    gangReq := none
    query := none
    serial := if o.attached then o.serial else o.serial + 1
    frz := { cause := r.cause, bsyl := bsyl, lane := BitVec.ofNat 6 r.lane, addr := r.addr, datum := r.datum,
             bundle := bundle, qa := qa, qaNext := 0 } }

/-- The frozen bundle's 64 bits as stored in memory (11 R325 item 2); 0 where the PC cannot be read. -/
def bundleAt (s : State) (o : Strand) : Word :=
  match regionOf o.pc with
  | .inr (.mine off) => s.word (lkey o.core off)
  | .inr .plain =>
    match translateAt s (tlbsOf o.core) (dieOf o.core) o.ctx o.pc.toNat with
    | .leaf l => if paExists l.pa then s.word l.pa else 0
    | .bad _ _ => 0
  | _ => 0

/-- Records every freeze leaves: black box, trace, the RAS counts of 18 R459, the block list of 16 R421. -/
def freezeRecords (s : State) (o : Strand) (r : Raise) : State :=
  let s1 := if quietCause r.cause then s else s.blackBox (dieOf o.core) 1 r.cause.toNat o.sid o.ctx r.addr
  let s2 := if r.cause = Cause.redundancyMismatch then
      (s1.blackBox (dieOf o.core) 7 0x1E1 o.sid o.ctx r.addr).setRas fun x => { x with mism := x.mism + 1, mismSid := o.sid }
    else s1
  let s3 := if r.cause = Cause.ueConsumed then s2.setRas fun x => { x with uec := x.uec + 1, uecSid := o.sid } else s2
  let s4 := s3.traceOf o 2 (BitVec.ofNat 64 r.cause.toNat)
  match r.ueLine with
  | none => s4
  | some (line, level) => s4.blockLine line level o.ctx

/-- The queue of a bundle's QA source whose 8 words have arrived: a freeze keeps them for FRQ and FRES skip, whichever syllable and, in a
gang, whichever member froze (08 R232, 11 R326). -/
def heldQa (s : State) (o : Strand) : Option Q4 :=
  let w := (bundleAt s o).toNat
  match decodeBundle (isCompute o.core) (isCox o.core) (w % 2 ^ 32) (w / 2 ^ 32) with
  | .good _ b => (qaOf b).filter fun q => decide (queueCause o false q = none) && decide (8 ≤ (inWords o q).length)
  | .bad _ _ => none

/-- A strand as it freezes; one whose umpire still waits for a frame is Frozen, pending, and its time there begins (11 R319, R332). -/
def freezeRec (s : State) (o : Strand) (r : Raise) (bsyl : Bool) (qa : Option Q4) (x : Strand) : Strand :=
  let f := frozenStrand x r bsyl (bundleAt s o) (qa.orElse fun _ => heldQa s o)
  if o.attached && s.pools.any fun p => p.pend.contains o.key then { f with run := .frozenPending, since := s.tick } else f

/-- Freeze the strand of a handle alone and call for an umpire, unless one is attached already (11 R315, R317, R332). The trailer of a
pair stops with its leader (18 R463). -/
def State.freezeOne (s : State) (key : Nat) (r : Raise) (bsyl : Bool) (qa : Option Q4) : State :=
  match s.strand key with
  | none => s
  | some o =>
    let s0 := s.upd key (freezeRec s o r bsyl qa)
    let s1 := freezeRecords (match o.pair with
      | some t => if o.pairLead then s0.upd t fun x => frozenStrand x r bsyl (bundleAt s o) none else s0
      | none => s0) o r
    if o.attached then s1 else s1.later (.umpireSpawn key)

/-- The strands that wait at GANG for a strand of their crew, resident or swapped out (01 R40, R41). -/
def gangWaiters (s : State) (o : Strand) : List Nat :=
  if o.crew.isNone then []
  else (s.strands.filter fun x => !decide (x.key = o.key) && decide (x.crew = o.crew) && !decide (x.run = .empty) && x.gang.isNone &&
    x.ump.isNone && x.gangReq.any fun r => (gangSids x r.1 r.2).contains o.sid).map (·.key)

/-- Strands that wait at GANG freeze with GANG_FORM_FAILED, and with each of them those that wait for it (01 R41, 10 R307); `n` bounds
the rounds. -/
def State.failFormers : Nat → List Nat → State → State
  | 0, _, s => s
  | n + 1, keys, s => keys.foldl (fun s k => match s.strand k with
      | none => s
      | some x =>
        if x.gangReq.isNone then s
        else State.failFormers n (gangWaiters s x) (s.freezeOne k (Raise.of Cause.gangFormFailed) false none)) s

/-- Freeze the strand of a handle; whoever waits at GANG for it freezes with it (11 R315, 01 R41). -/
def State.freezeKey (s : State) (key : Nat) (r : Raise) (bsyl : Bool) (qa : Option Q4) : State :=
  match s.strand key with
  | none => s
  | some o => (s.freezeOne key r bsyl qa).failFormers 8 (gangWaiters s o)

/-- Break up a standing gang: no member is ganged any more; what is left in q9 and q10 is discarded (01 R44, 10 R291). The words that a
frozen bundle holds for a QA source q9 or q10 go with the rest: 08 R232 would keep them, and the spec does not say which holds
(DESIGN CHOICE, log 49). -/
def ungangStrand (o : Strand) : Strand :=
  { o with gang := none, gangcfg := 0, gidx := 0, q9 := [], q10 := [], echo9 := 0, echo10 := 0,
           run := if o.run = .follower then .ready else o.run }

/-- The gang of a strand. -/
def State.gangOf (s : State) (o : Strand) : Option Gang := o.gang.bind fun g => s.sched.gangs.find? fun x => decide (x.uid = g)

/-- Dissolve a gang. -/
def State.dissolve (s : State) (g : Gang) : State :=
  let s1 := s.setSched fun d => { d with gangs := d.gangs.filter fun x => !decide (x.uid = g.uid) }
  s1.updAll fun o => if o.gang = some g.uid then ungangStrand o else o

/-- A strand with the registers and state words of another. -/
def withRegs (a b : Strand) : Strand :=
  { a with
    pc := b.pc, lo := b.lo, inG := b.inG, outG := b.outG, older := b.older, spilled := b.spilled, v := b.v, k := b.k, h := b.h,
    fpmode := b.fpmode, rngs := b.rngs, ev := b.ev, fmta := b.fmta, fmtb := b.fmtb, scla := b.scla, sclb := b.sclb,
    mxacc := b.mxacc, mxcfg := b.mxcfg, wsp := b.wsp, wlim := b.wlim, dqbase := b.dqbase, dqmask := b.dqmask, nhvec := b.nhvec,
    nhmask := b.nhmask, nepc := b.nepc, lstart := b.lstart, lend := b.lend, lcount := b.lcount, armed := b.armed, susp := b.susp }

/-- A bundle whose matrix step has not retired is undone: the step leaves its pipe with no word written, what it had popped stands in its
queues again, and the strand's registers and state words are those before the bundle, whose A syllable is discarded with it (01 R28, R43;
09 R268, 18 R457; log 34). -/
def State.undoStep (s : State) (key : Nat) : State :=
  match s.undo.find? fun p => decide (p.key = key) with
  | none => s
  | some p =>
    let step := (s.cores.findSome? fun c => c.pipe.find? fun m => decide (m.key = key)).orElse fun _ => (s.strand key).bind (·.mstep)
    let s1 : State := { s with
      undo := s.undo.filter fun q => !decide (q.key = key)
      cores := s.cores.map fun c => { c with pipe := c.pipe.filter fun m => !decide (m.key = key) } }
    s1.upd key fun o =>
      let x := step.elim o fun m => unpopStep m o
      { (if p.held then x else withRegs x p.before) with mstep := none }

/-- What the other members of a gang freeze with: GANG_TASK where the bundle is one that no gang may execute (10 R306, R313),
else GANG_DISBANDED (11 R329). -/
def otherCause (c : Cause) : Cause := if c = Cause.gangTask then c else Cause.gangDisbanded

/-- A fault in a gang member: the gang dissolves and every member freezes at the same boundary, the others with
GANG_DISBANDED; 2 or 4 of them form a held set (01 R43, 11 R329, R330). Matrix steps that have not retired are discarded (09 R268).
One umpire is called, for the faulting member, or the one attached to it gets the others' capabilities; the record of a gang
of 8 lasts until its members' capabilities are given out. -/
def State.freezeGang (s : State) (g : Gang) (key : Nat) (r : Raise) (bsyl : Bool) (qa : Option Q4) : State :=
  let (u, s0) := (g.members.foldl State.undoStep s).fresh
  let s1 := s0.dissolve g
  let held := decide (g.members.length ≤ 4)
  let s2 := s1.setSched fun d =>
    { d with sets := { uid := u, nc := g.nc, south := g.south, members := g.members, marked := [] } :: d.sets }
  let s3 := s2.updAll fun o =>
    if g.members.contains o.key ∧ o.key ≠ key ∧ o.run ≠ .empty then
      { freezeRec s o (Raise.of (otherCause r.cause)) false none o with heldSet := if held then some u else none }
    else if o.key = key ∧ o.run ≠ .empty then { o with heldSet := if held then some u else none } else o
  let s3 := g.members.foldl (fun s k => match s0.strand k with
    | some m => if k = key then s else freezeRecords s m (Raise.of (otherCause r.cause))
    | none => s) s3
  let s4 := s3.freezeKey key r bsyl qa
  if (s3.strand key).any (·.attached) then s4.later (.umpireSpawn key) else s4

/-- Freeze a strand, its gang with it. -/
def State.freezeAny (s : State) (key : Nat) (r : Raise) : State :=
  match s.strand key with
  | none => s
  | some o =>
    match s.gangOf o with
    | some g => s.freezeGang g key r false none
    | none => s.freezeKey key r false none

/-- Taking a freeze at the issuing strand: the bundle has no effect, the strand stops at its PC with the cause recorded and
the serial advanced, and an umpire is called (11 R315, R317, R329). -/
def State.freezeMe (s : State) (r : Raise) (bsyl : Bool) (qa : Option Q4) : State :=
  match s.gangOf s.me with
  | some g => s.freezeGang g s.me.key r bsyl qa
  | none => s.freezeKey s.me.key r bsyl qa

/-- A parked bundle that is tried again at the strand's turns. -/
def Park.retries (p : Park) : Bool :=
  match p with
  | .poll | .turn | .entry | .steal => true
  | _ => false

/-- A parked strand that tries again in turns of its own: after a turn of waiting (08 R239), or in the steal loop (10 R300). -/
def Park.inTurns (p : Park) : Bool := decide (p = .turn) || decide (p = .steal)

/-- Park the issuing strand: its bundle completes when its condition holds (01 R16, R17). Its next turn is a bubble. A stop before BRK
leaves the trace record of a stop (18 R471). -/
def State.parkMe (s : State) (p : Park) : State :=
  (if p = .brk then s.traceOf s.me 9 0 else s).setMe fun o =>
    { o with run := if p = .brk then .stopped else if o.run = .follower then .follower else .parked, park := p, turn := s.tick + 8 }

/-- What the issuing strand's parked bundle waits for. -/
def State.awaits (s : State) (c : Cond) : State := s.setMe fun o => { o with await := some c }

/-- How a completed bundle moves the PC. -/
inductive Ctl where
  /-- the next bundle, with the clause end of 01 R36 -/
  | next
  /-- a taken branch or jump -/
  | jump (t : Word)
  | wcall (t : Word)
  | wret (t : Word)
  | rep (count : Word) (len : Nat)
  /-- the instruction completes the bundle itself, after both syllables have acted -/
  | finish (f : State → State)
  /-- the bundle completes, then something more happens -/
  | after (f : State → State)
  /-- the bundle completes later: nothing of it is done yet but what `f` does, which is told the A syllable and the strand as that reads
  it (09 R264) -/
  | hold (f : Instr → Strand → State → State)

/-- What one syllable does. -/
inductive SylOut where
  | ok (s : State) (c : Ctl)
  | freeze (s : State) (r : Raise) (qa : Option Q4)
  | park (s : State) (p : Park)

/-- The meaning of a syllable: it reads the strand as it stood before the bundle, and acts on the state (05 R142). -/
abbrev Syl := Strand → State → SylOut

/-- A freeze with no data. -/
def frz (s : State) (c : Cause) : SylOut := .freeze s (Raise.of c) none

/-- Advance past the bundle, ending an iteration at LEND; `o` is the strand before the bundle (01 R36, R37). -/
def clauseEnd (o x : Strand) : Strand :=
  if o.armed && !o.susp && decide (o.pc = o.lend) then
    if o.lcount.toNat ≤ 1 then { x with pc := o.lend + 8, lcount := 0, armed := false }
    else { x with pc := o.lstart, lcount := o.lcount - 1 }
  else { x with pc := o.pc + 8 }

/-- Where a bundle is fetched from: own local memory, or plain memory through a plain page with the right to fetch (06 R188). An
address of the own-local region beyond its end is in no region to fetch from: it takes R188's cause, not the LOCAL_RANGE of a data
access (log 49). No bundle stands at an address that is no multiple of 8: a PC that a task frame set so freezes at the fetch with
PC_MISALIGNED (05 R141; log 49). -/
def fetchPlace (s : State) (o : Strand) (t : Word) : Nat ⊕ Raise :=
  if t.toNat % 8 ≠ 0 then .inr (Raise.at' Cause.pcMisaligned 0 t)
  else
  match regionOf t with
  | .inr (.mine off) => .inl (lkey o.core off)
  | .inr .plain =>
    match translateAt s (tlbsOf o.core) (dieOf o.core) o.ctx t.toNat with
    | .bad c ue => .inr { Raise.at' c 0 t with ueLine := ue }
    | .leaf l =>
      match placeOf s o l with
      | some (.mem k, _) =>
        match leafCheck s o { Acc.load with r := false } true l with
        | some c => .inr (Raise.at' c 0 t)
        | none =>
          if l.kind ≠ .plain ∧ o.ctx ≠ 0 then .inr (Raise.at' Cause.frameKindMismatch 0 t)
          else if paExists l.pa then .inl k else .inr (Raise.at' Cause.fetchRegion 0 t)
      | some (.tile _ _, _) =>
        .inr (Raise.at' (if l.x then Cause.frameKindMismatch else Cause.pageProtection) 0 t)
      | none => .inr (Raise.at' Cause.pageNotPresent 0 t)
  | _ => .inr (Raise.at' Cause.fetchRegion 0 t)

/-- Drop the core's fetch line when it holds a jump's target (06 R188). -/
def State.dropLine (s : State) (o : Strand) (t : Word) : State :=
  match (s.core o.core).line, fetchPlace s o t with
  | some (a, _), .inl k => if a = k / 64 then s.setCore o.core fun c => { c with line := none } else s
  | _, _ => s

/-- The window turn of WCALL: caller out group becomes the in group, g23 takes the return address, the fresh out group is
undefined (01 R22, 06 R189; log 8). -/
def wcallWindow (pc : Word) (n : Nat) (x : Strand) : Strand :=
  { x with
    inG := x.outG.setIfInBounds 7 (pc + 8)
    older := x.inG :: x.older
    outG := Vector.ofFn fun i : Fin 8 => Config.freshWindow n i.val }

/-- The window turn of WRET (01 R22, 06 R190). -/
def wretWindow (x : Strand) : Strand :=
  match x.older with
  | [] => x
  | g :: t => { x with outG := x.inG, inG := g, older := t }

/-- Leave the parked state after a bundle: nothing waits any more, the next turn is 8 cycles on (01 R14). -/
def settle (t : Nat) (x : Strand) : Strand :=
  { x with run := if x.run = .follower then .follower else .ready, park := .none, await := none, woken := false, turn := t + 8, answer := none, asked := false, askWin := none,
           query := none, barArrived := false }

/-- Complete a bundle of the strand `o`: move the PC, end an iteration, turn the window (01 R36, 05 R142). -/
def State.complete (s : State) (o : Strand) (c : Ctl) : State :=
  match c with
  | .next => s.setMe fun x => settle s.tick (clauseEnd o x)
  | .jump t =>
    let s1 := (s.dropLine o t).traceOf o 1 t
    s1.setMe fun x => settle s.tick { x with pc := t }
  | .wcall t =>
    let (n, s0) := s.freeNo
    let s1 := (s0.dropLine o t).traceOf o 1 t
    s1.setMe fun x => settle s.tick { wcallWindow o.pc n x with pc := t }
  | .wret t =>
    let s1 := (s.dropLine o t).traceOf o 1 t
    s1.setMe fun x => settle s.tick { wretWindow x with pc := t }
  | .rep count len =>
    s.setMe fun x =>
      settle s.tick
        (if count = 0 then { x with pc := o.pc + 8 + BitVec.ofNat 64 (8 * len) }
         else { x with pc := o.pc + 8, lstart := o.pc + 8, lend := o.pc + BitVec.ofNat 64 (8 * len), lcount := count,
                       armed := true })
  | .finish f => f s
  | .after f => f (s.setMe fun x => settle s.tick (clauseEnd o x))
  | .hold f => f .anop o s

/-- The first bundle of a launch sets its start tick and the dispatch latency of SCHLAT (12 R359, R371). -/
def State.noteStart (s : State) : State :=
  match s.me.launch.bind s.launch with
  | none => s
  | some l =>
    if l.start.isSome then s
    else
      let lat := BitVec.ofNat 32 (Nat.min 0xFFFFFFFF (s.tick - l.ready.getD s.tick))
      (s.updLaunch l.uid fun l => { l with start := some s.tick }).setSched fun d =>
        { d with latLast := if d.lastPlaced = l.uid then lat else d.latLast, latMax := if d.latMax.toNat < lat.toNat then lat else d.latMax }

/-- The start of a bundle of the issuing strand. -/
def State.begin (s : State) : State := s.noteStart

/-- What a finished syllable does to the state: complete, freeze or park. -/
def State.finish (s0 : State) (bsyl : Bool) : SylOut → State
  | .ok s1 c => s1.complete s0.me c
  | .freeze s1 r qa => s1.freezeMe r bsyl qa
  | .park s1 p => s1.parkMe p

/-- Issue a bundle whose other syllable does nothing. A failed background spill or refill freezes it first (01 R24). -/
def runSyl (bsyl : Bool) (f : Syl) (s : State) : State :=
  let s0 := s.begin
  if s0.me.winFault then
    (s0.setMe fun o => { o with winFault := false }).freezeMe (Raise.of Cause.windowLimit) false none
  else s0.finish bsyl (f s0.me s0)

/-- An A syllable beside VNOP. -/
def issueA (f : Syl) (s : State) : Out := .next (runSyl false f s)

/-- A B syllable beside ANOP. -/
def issueB (f : Syl) (s : State) : Out := .next (runSyl true f s)

/-- Write a g register of the issuing strand. -/
def State.wg (s : State) (r : R5) (x : Word) : State := s.setMe fun o => o.setG r x

/-- Write a vector register of the issuing strand. -/
def State.wv (s : State) (r : R5) (x : Vec) : State := s.setMe fun o => o.setV r x

/-- Write a mask of the issuing strand. -/
def State.wk (s : State) (r : K3) (x : Word) : State := s.setMe fun o => o.setK r x

/-- A syllable that writes one g register. -/
def retG (s : State) (d : R5) (x : Word) : SylOut := .ok (s.wg d x) .next

/-- A command with nothing to answer: the machine as it stands. -/
def done (s : State) : Out := .next s

/-- Resume a strand at most one cycle after now, at its next turn (01 R17, 11 R326). -/
def readyAt (t : Nat) (o : Strand) : Strand :=
  { o with run := .ready, park := .none, await := none, woken := false, turn := alignTurn o.sid (t + 1) }

end Sys2Proof.Machine
end

