-- ==== Sys2Proof/Machine/Conds.lean ====
section
/-! DEFINITION. What a strand, a task frame or a launch waits for: its test, and the moment at which it is kept (02 R92; 10 R301,
R302; 12 R349). -/

namespace Sys2Proof.Machine

open Sys2Proof

/-! ## Counters and names -/

/-- A counter's value. -/
def State.seqGet (s : State) (f : SqFile) (i : BitVec 8) : Word :=
  match f with
  | .crew u => ((s.crew u).map fun c => c.sq.getD i.toNat 0).getD 0
  | .launch u => ((s.launch u).map fun l => l.sq.getD i.toNat 0).getD 0

/-- The wait test of 02 R92. -/
def seqHolds (sq : Word) (t : Nat) : Bool := decide ((sq.toNat % 2 ^ 32 + 2 ^ 32 - t % 2 ^ 32) % 2 ^ 32 < 2 ^ 31)

/-- The record of a name. -/
def State.nameRec (s : State) (space name : Nat) : Name :=
  (s.homes.names.find? fun n => decide (n.space = space) && decide (n.name = name)).getD
    { space := space, name := name, cls := none, latest := 0, retain := 1, subs := [], trigs := [], dropped := false }

/-! ## The wait of a launch record (12 R338, R342, R349) -/

/-- A field of a record's dword. -/
def rfld (r : Vector Word 16) (i lo len : Nat) : Nat := fld (r.getD i 0).toNat lo len

/-- Wait kind (12 R342). -/
def rWkind (r : Vector Word 16) : Nat := rfld r 8 60 4
/-- Wait threshold. -/
def rWt (r : Vector Word 16) : Nat := rfld r 8 0 32
/-- The place of a user address of a context, if it can be written. -/
def userPlace (s : State) (ctx : Nat) (wr : Bool) (va : Word) : Option Loc :=
  let o : Strand := { Strand.blank with ctx := ctx }
  match regionOf va with
  | .inr .plain =>
    match translate s ctx va.toNat with
    | .bad _ _ => none
    | .leaf l =>
      match leafCheck s o (if wr then Acc.store else Acc.load) false l with
      | some _ => none
      | none => (placeOf s o l).map (·.1)
  | _ => none

/-- A user address of a context has to wait: its frame moves, or an engine owns its line (16 R414, 03 R110). -/
def userHeld (s : State) (ctx : Nat) (va : Word) : Bool :=
  match userPlace s ctx false va with
  | some (.mem k) => paExists k && s.heldPa k
  | _ => false

/-- The word of a counter wait: a user address, or a word of local memory that belongs to the context (12 R349, 10 R302, 02 R51). -/
def waitPlace (s : State) (ctx : Nat) (va : Word) : Option Loc :=
  match regionOf va with
  | .inr (.bank core off) => if (s.core core).owner = some ctx then some (.mem (lkey core off)) else none
  | _ => if userHeld s ctx va then none else userPlace s ctx false va

/-- The wait of a record holds now (12 R342, R349). -/
def launchWait (s : State) (l : Launch) : Bool :=
  let a := l.rcd.getD 9 0
  match rWkind l.rcd with
  | 1 =>
    match waitPlace s l.ctx a with
    | some p => seqHolds (BitVec.ofNat 64 (s.loadNat p 8)) (rWt l.rcd)
    | none => false
  | 2 => decide (rWt l.rcd ≤ (s.nameRec (s.spaceOf l.ctx (a.toNat % 2 ^ 32)) (a.toNat % 2 ^ 32)).latest)
  | _ => true

/-! ## Tests (10 R302) -/

/-- A condition holds (10 R302). -/
def condHolds (s : State) (c : Cond) : Bool :=
  match c with
  | .counter k t => seqHolds (s.word k) t.toNat
  | .seq f i t => seqHolds (s.seqGet f i) t.toNat
  | .ver space name t => decide (t.toNat ≤ (s.nameRec space name).latest)
  | .zero k => decide (s.word k = 0)

/-- What holds now is kept: a parked bundle whose condition holds is woken, in its slot or in the context cache, and a frame all of
whose conditions hold leaves its pool as soon as there is room, and the wait of a record has held (01 R47; 10 R301, R302; 02 R92; 12 R349). Each store calls it, and each step at its end: what holds between two
stores of one bundle has held. -/
def State.noteConds (s : State) : State :=
  ((s.updAll fun o => if o.await.any (condHolds s) then { o with woken := true } else o).setHomes fun h =>
      { h with wframes := h.wframes.map fun w => if w.conds.all (condHolds s) then { w with fired := true } else w }).setSched fun d =>
        { d with launches := d.launches.map fun l =>
            if l.st = .accepted ∧ l.waitHeld = false ∧ launchWait s l = true then { l with met := true } else l }

end Sys2Proof.Machine
end

