-- ==== Sys2Proof/Machine/Flags.lean ====
section
/-! DEFINITION. The event counters of a strand (04 R135): what one bundle adds to them, and the rounding modes of 04 R124
resolved against FPMODE and RNGS. -/

namespace Sys2Proof.Machine

open Sys2Proof

/-- Events of one element or of a whole instruction (04 R135). -/
structure Evs where
  inv : Nat
  dz : Nat
  ovf : Nat
  unf : Nat
  inx : Nat
  sub : Nat
  sat : Nat
  nan : Nat
  deriving DecidableEq, Repr

/-- No event. -/
def Evs.zero : Evs := { inv := 0, dz := 0, ovf := 0, unf := 0, inx := 0, sub := 0, sat := 0, nan := 0 }

/-- Both sets of events. -/
def Evs.add (a b : Evs) : Evs :=
  { inv := a.inv + b.inv, dz := a.dz + b.dz, ovf := a.ovf + b.ovf, unf := a.unf + b.unf, inx := a.inx + b.inx,
    sub := a.sub + b.sub, sat := a.sat + b.sat, nan := a.nan + b.nan }

/-- One invalid operation. -/
def Evs.invalid : Evs := { Evs.zero with inv := 1 }

/-- One division by zero. -/
def Evs.divZero : Evs := { Evs.zero with dz := 1 }

/-- One clamp under .sat. -/
def Evs.clamp : Evs := { Evs.zero with sat := 1 }

/-- One NaN table entry, NaN scale or accumulator NaN. -/
def Evs.nanUse : Evs := { Evs.zero with nan := 1 }

/-- One inexact result. -/
def Evs.inexact : Evs := { Evs.zero with inx := 1 }

/-- One flushed element. -/
def Evs.flushed : Evs := { Evs.zero with sub := 1 }

/-- Add events to the counters, each saturating at 0xFFFF_FFFF (04 R135). -/
def Strand.tally (o : Strand) (e : Evs) : Strand :=
  ((((((((o.count 0 e.inv).count 1 e.dz).count 2 e.ovf).count 3 e.unf).count 4 e.inx).count 5 e.sub).count 6
    e.sat).count 7 e.nan)

/-- Add events to the issuing strand's counters. -/
def State.tally (s : State) (e : Evs) : State := s.setMe fun o => o.tally e

/-- FPMODE.sub: true when subnormals are flushed (04 R125). -/
def Strand.flush (o : Strand) : Bool := o.fpmode.getLsbD 4

/-- FPMODE.sre (04 R125). -/
def Strand.sre (o : Strand) : Bool := o.fpmode.getLsbD 5

/-- A rounding mode with its draw (04 R124, R126). -/
inductive RMode where
  | near | zero | down | up | away
  | stoch (draw : Nat)
  deriving DecidableEq, Repr

/-- The mode of a code 0-5; `draw` is the step a stochastic rounding uses, none where it is performed as rne. -/
def modeOf (code : Nat) (draw : Option Nat) : RMode :=
  match code with
  | 1 => .zero
  | 2 => .down
  | 3 => .up
  | 4 => .away
  | 5 => match draw with
    | some d => .stoch d
    | none => .near
  | _ => .near

/-- Code of an rm field; dyn takes FPMODE.rm (04 R124). -/
def rmCode (fpmode : Word) : Rm → Nat
  | .rne => 0 | .rtz => 1 | .rdn => 2 | .rup => 3 | .rna => 4 | .sr => 5 | .dyn => fld fpmode.toNat 0 3

/-- The mode of instructions without an rm field: FPMODE.rm, stochastic performed as rne (04 R124, 08 R238). -/
def Strand.mode (o : Strand) : RMode := modeOf (fld o.fpmode.toNat 0 3) none

/-- One xorshift step: the new RNGS and its 24-bit draw (04 R126). -/
def rngStep (r : Word) : Word × Nat :=
  let r0 := if r = 0 then 0x9E3779B97F4A7C15 else r
  let r1 := r0 ^^^ (r0 <<< 13)
  let r2 := r1 ^^^ (r1 >>> 7)
  let r3 := r2 ^^^ (r2 <<< 17)
  (r3, fld r3.toNat 0 24)

end Sys2Proof.Machine
end

