-- ==== Sys2Proof/Machine/Float.lean ====
section
/-! DEFINITION. Floating-point formats and their arithmetic (04 R118, R119, R127-R134, R137), computed exactly on dyadic
numbers m * 2^e and rounded once. A quotient, root, power or logarithm that is not dyadic is carried to well over twice the
target's precision with a last bit set for the part cut off, which rounds as the exact value does. -/

namespace Sys2Proof.Machine

open Sys2Proof

/-- A binary format: exponent and fraction bits (04 R118). -/
structure FF where
  eb : Nat
  fb : Nat
  deriving DecidableEq, Repr

/-- fp64. -/
def ff64 : FF := { eb := 11, fb := 52 }
/-- fp32. -/
def ff32 : FF := { eb := 8, fb := 23 }
/-- fp16. -/
def ff16 : FF := { eb := 5, fb := 10 }
/-- bf16. -/
def ffb : FF := { eb := 8, fb := 7 }
/-- x19. -/
def ffx : FF := { eb := 8, fb := 10 }

/-- Exponent bias, which is also the exponent of the largest finite numbers. -/
def FF.bias (f : FF) : Nat := 2 ^ (f.eb - 1) - 1

/-- Exponent of the smallest normal number. -/
def FF.emin (f : FF) : Int := 1 - (f.bias : Int)

/-- Width in bits. -/
def FF.width (f : FF) : Nat := 1 + f.eb + f.fb

/-- Sign bit of a pattern. -/
def FF.neg (f : FF) (x : Nat) : Bool := bit x (f.eb + f.fb)

/-- A sign in its bit place. -/
def FF.sgn (f : FF) (neg : Bool) : Nat := if neg then 2 ^ (f.eb + f.fb) else 0

/-- The canonical quiet NaN (04 R118). -/
def FF.cnan (f : FF) : Nat := (2 ^ f.eb - 1) * 2 ^ f.fb + 2 ^ (f.fb - 1)

/-- An infinity. -/
def FF.inf (f : FF) (neg : Bool) : Nat := f.sgn neg + (2 ^ f.eb - 1) * 2 ^ f.fb

/-- The largest finite number of a sign. -/
def FF.maxFin (f : FF) (neg : Bool) : Nat := f.inf neg - 1

/-- A decoded value: a NaN (signalling or quiet), an infinity, or sign and magnitude m * 2^e. -/
inductive Fx where
  | nan (sig : Bool)
  | inf (neg : Bool)
  | num (neg : Bool) (m : Nat) (e : Int)
  deriving DecidableEq, Repr

/-- Decode a pattern (04 R118). -/
def FF.unpack (f : FF) (x : Nat) : Fx :=
  let fr := fld x 0 f.fb
  let ex := fld x f.fb f.eb
  if ex = 2 ^ f.eb - 1 then
    if fr = 0 then .inf (f.neg x) else .nan (!bit x (f.fb - 1))
  else if ex = 0 then .num (f.neg x) fr (f.emin - f.fb)
  else .num (f.neg x) (2 ^ f.fb + fr) (f.emin - f.fb + (ex - 1 : Nat))

/-- A subnormal pattern (04 R118). -/
def FF.isSub (f : FF) (x : Nat) : Bool := decide (fld x f.fb f.eb = 0) && !decide (fld x 0 f.fb = 0)

/-- A source element in flush mode: a subnormal becomes zero of its sign, counted (04 R132). -/
def FF.source (f : FF) (flush : Bool) (x : Nat) : Nat × Evs :=
  if flush && f.isSub x then (f.sgn (f.neg x), Evs.flushed) else (x, Evs.zero)

/-- Is m1 * 2^e1 < m2 * 2^e2. -/
def dyLt (m1 : Nat) (e1 : Int) (m2 : Nat) (e2 : Int) : Bool :=
  if e1 ≤ e2 then decide (m1 < m2 * 2 ^ (e2 - e1).toNat) else decide (m1 * 2 ^ (e1 - e2).toNat < m2)

/-- Is m1 * 2^e1 = m2 * 2^e2. -/
def dyEq (m1 : Nat) (e1 : Int) (m2 : Nat) (e2 : Int) : Bool :=
  if e1 ≤ e2 then decide (m1 = m2 * 2 ^ (e2 - e1).toNat) else decide (m1 * 2 ^ (e1 - e2).toNat = m2)

/-- Round the magnitude n + rem / den to an integer (04 R124, R126; a stochastic draw compares with the fraction of the way
from the lower signed neighbour). -/
def roundUp (md : RMode) (neg : Bool) (n rem den : Nat) : Bool :=
  if rem = 0 then false
  else
    match md with
    | .near => decide (den < 2 * rem) || (decide (2 * rem = den) && decide (n % 2 = 1))
    | .zero => false
    | .down => neg
    | .up => !neg
    | .away => decide (den ≤ 2 * rem)
    | .stoch d => if neg then !decide (d * den < (den - rem) * 2 ^ 24) else decide (d * den < rem * 2 ^ 24)

/-- Round m * 2^e to a whole number of quanta 2^q. -/
def roundAt (md : RMode) (neg : Bool) (m : Nat) (e q : Int) : Nat :=
  if q ≤ e then m * 2 ^ (e - q).toNat
  else
    let d := 2 ^ (q - e).toNat
    m / d + if roundUp md neg (m / d) (m % d) d then 1 else 0

/-- Does a mode deliver an overflow as infinity (04 R127). -/
def overflowInf (md : RMode) (neg : Bool) : Bool :=
  match md with
  | .near | .away | .stoch _ => true
  | .zero => false
  | .down => neg
  | .up => !neg

/-- Round m * 2^e into a format (04 R124, R127, R132, R135). -/
def FF.round (f : FF) (md0 : RMode) (sat flush neg : Bool) (m : Nat) (e : Int) : Nat × Evs :=
  if m = 0 then (f.sgn neg, Evs.zero)
  else
    let top := e + (Nat.log2 m : Int)
    let big := dyLt (2 ^ (f.fb + 1) - 1) ((f.bias : Int) - f.fb) m e
    let md := match md0 with
      | .stoch _ => if big then RMode.near else md0
      | _ => md0
    let q := (max top f.emin) - f.fb
    let n := roundAt md neg m e q
    if 2 ^ ((f.bias : Int) + 1 - q).toNat ≤ n then
      if sat then (f.maxFin neg, Evs.clamp)
      else (if overflowInf md neg then f.inf neg else f.maxFin neg, { Evs.zero with ovf := 1, inx := 1 })
    else
      let inexact := !dyEq n q m e
      let q2 := top - f.fb
      let tiny := decide (top < f.emin) && inexact && decide (roundAt md neg m e q2 < 2 ^ (f.emin - q2).toNat)
      let subn := decide (n < 2 ^ f.fb) && !decide (n = 0)
      if flush && subn then (f.sgn neg, { Evs.zero with sub := 1, unf := 1, inx := 1 })
      else
        (f.sgn neg + (q - (f.emin - f.fb)).toNat * 2 ^ f.fb + n,
          { Evs.zero with unf := if tiny then 1 else 0, inx := if inexact then 1 else 0 })

/-- Events of signalling operands (04 R134). -/
def sigs (l : List Fx) : Evs := if l.any fun x => decide (x = .nan true) then Evs.invalid else Evs.zero

/-- Any NaN operand. -/
def anyNan (l : List Fx) : Bool := l.any fun x => decide (x = .nan true) || decide (x = .nan false)

/-- The canonical NaN made from operands that hold none (04 R134). -/
def FF.invalid (f : FF) : Nat × Evs := (f.cnan, Evs.invalid)

/-- A signed dyadic as an integer at exponent q ≤ e. -/
def scaled (neg : Bool) (m : Nat) (e q : Int) : Int :=
  let x : Int := ((m * 2 ^ (e - q).toNat : Nat) : Int)
  if neg then -x else x

/-- The rounded sum of two finite values (08 R238: a zero sum of opposite signs is +0, or -0 under rdn). -/
def FF.sum (f : FF) (md : RMode) (flush : Bool) (n1 : Bool) (m1 : Nat) (e1 : Int) (n2 : Bool) (m2 : Nat) (e2 : Int) :
    Nat × Evs :=
  let q := min e1 e2
  let x := scaled n1 m1 e1 q + scaled n2 m2 e2 q
  if x = 0 then (f.sgn (if n1 = n2 then n1 else decide (md = .down)), Evs.zero)
  else f.round md false flush (decide (x < 0)) x.natAbs q

/-- Addition of decoded values (08 R240). -/
def FF.addFx (f : FF) (md : RMode) (flush : Bool) (a b : Fx) : Nat × Evs :=
  match a, b with
  | .num n1 m1 e1, .num n2 m2 e2 => f.sum md flush n1 m1 e1 n2 m2 e2
  | .inf n1, .inf n2 => if n1 = n2 then (f.inf n1, Evs.zero) else f.invalid
  | .inf n, .num _ _ _ => (f.inf n, Evs.zero)
  | .num _ _ _, .inf n => (f.inf n, Evs.zero)
  | _, _ => (f.cnan, sigs [a, b])

/-- Change the sign of a decoded value. -/
def Fx.negate : Fx → Fx
  | .nan s => .nan s
  | .inf n => .inf (!n)
  | .num n m e => .num (!n) m e

/-- The exact product of decoded values; none for 0 * Inf. -/
def mulFx (a b : Fx) : Option Fx :=
  match a, b with
  | .num n1 m1 e1, .num n2 m2 e2 => some (.num (xor n1 n2) (m1 * m2) (e1 + e2))
  | .inf n1, .inf n2 => some (.inf (xor n1 n2))
  | .inf n1, .num n2 m _ => if m = 0 then none else some (.inf (xor n1 n2))
  | .num n1 m _, .inf n2 => if m = 0 then none else some (.inf (xor n1 n2))
  | .nan s, _ => some (.nan s)
  | _, .nan s => some (.nan s)

/-- Round a decoded value that is not a NaN. -/
def FF.roundFx (f : FF) (md : RMode) (flush : Bool) (x : Fx) : Nat × Evs :=
  match x with
  | .num n m e => f.round md false flush n m e
  | .inf n => (f.inf n, Evs.zero)
  | .nan _ => (f.cnan, Evs.zero)

/-- Multiplication (08 R240). -/
def FF.mulOp (f : FF) (md : RMode) (flush : Bool) (a b : Fx) : Nat × Evs :=
  if anyNan [a, b] then (f.cnan, sigs [a, b])
  else
    match mulFx a b with
    | none => f.invalid
    | some p => f.roundFx md flush p

/-- Fused multiply-add round(a * b + c) (08 R241); an invalid product counts even when c is a NaN. -/
def FF.fmaOp (f : FF) (md : RMode) (flush : Bool) (a b c : Fx) : Nat × Evs :=
  if anyNan [a, b] then (f.cnan, sigs [a, b, c])
  else
    match mulFx a b with
    | none => f.invalid
    | some p => if anyNan [c] then (f.cnan, sigs [c]) else f.addFx md flush p c

/-- The integer root of x below 2^n, bit by bit. -/
def isqrtFrom (x : Nat) : Nat → Nat → Nat
  | 0, r => r
  | n + 1, r => isqrtFrom x n (if (r + 2 ^ n) * (r + 2 ^ n) ≤ x then r + 2 ^ n else r)

/-- Floor of the square root. -/
def isqrt (x : Nat) : Nat := isqrtFrom x (Nat.log2 x / 2 + 1) 0

/-- A magnitude with a last bit set when something was cut off. -/
def jam (m : Nat) (cut : Bool) : Nat := 2 * m + if cut then 1 else 0

/-- Division (08 R240). -/
def FF.divOp (f : FF) (md : RMode) (flush : Bool) (a b : Fx) : Nat × Evs :=
  match a, b with
  | .num n1 m1 e1, .num n2 m2 e2 =>
    let n := xor n1 n2
    if m2 = 0 then (if m1 = 0 then f.invalid else (f.inf n, Evs.divZero))
    else if m1 = 0 then (f.sgn n, Evs.zero)
    else
      let sh := 170 + Nat.log2 m2
      let x := m1 * 2 ^ sh
      f.round md false flush n (jam (x / m2) (!decide (x % m2 = 0))) (e1 - e2 - sh - 1)
  | .inf _, .inf _ => f.invalid
  | .inf n1, .num n2 _ _ => (f.inf (xor n1 n2), Evs.zero)
  | .num n1 _ _, .inf n2 => (f.sgn (xor n1 n2), Evs.zero)
  | _, _ => (f.cnan, sigs [a, b])

/-- The value 1. -/
def Fx.one : Fx := .num false 1 0

/-- Square root (08 R240). -/
def FF.sqrtOp (f : FF) (md : RMode) (flush : Bool) (a : Fx) : Nat × Evs :=
  match a with
  | .nan _ => (f.cnan, sigs [a])
  | .inf n => if n then f.invalid else (f.inf false, Evs.zero)
  | .num n m e =>
    if m = 0 then (f.sgn n, Evs.zero)
    else if n then f.invalid
    else
      let sh : Nat := if e % 2 = 0 then 340 else 341
      let x := m * 2 ^ sh
      let r := isqrt x
      f.round md false flush false (jam r (!decide (r * r = x))) ((e - sh) / 2 - 1)

/-- Reciprocal square root (08 R240). -/
def FF.rsqOp (f : FF) (md : RMode) (flush : Bool) (a : Fx) : Nat × Evs :=
  match a with
  | .nan _ => (f.cnan, sigs [a])
  | .inf n => if n then f.invalid else (f.sgn false, Evs.zero)
  | .num n m e =>
    if m = 0 then (f.inf n, Evs.divZero)
    else if n then f.invalid
    else
      let k : Nat := 400 + 2 * Nat.log2 m + (if e % 2 = 0 then 0 else 1)
      let r := isqrt (2 ^ k / m)
      f.round md false flush false (jam r (!decide (r * r * m = 2 ^ k))) (-(((k : Int) + e) / 2) - 1)

/-- Fixed-point bits of the series below. -/
def fxp : Nat := 400

/-- Sum of z^(2i+1)/(2i+1) for the next n terms: `p` is the current power, `z2` the square. -/
def atanhSum (z2 : Nat) : Nat → Nat → Nat → Nat
  | 0, _, _ => 0
  | n + 1, p, i => p / (2 * i + 1) + atanhSum z2 n (p * z2 / 2 ^ fxp) (i + 1)

/-- 2 * atanh(num / den), in units of 2^-400. -/
def ln2x (num den : Nat) : Nat :=
  let z := num * 2 ^ fxp / den
  2 * atanhSum (z * z / 2 ^ fxp) 140 z 0

/-- The natural logarithm of 2, in units of 2^-400. -/
def ln2fx : Nat := ln2x 1 3

/-- Sum of x^i / i! from the i-th term on: `t` is the current term. -/
def expSum (x : Nat) : Nat → Nat → Nat → Nat
  | 0, _, _ => 0
  | n + 1, t, i => t + expSum x n (t * x / 2 ^ fxp / (i + 1)) (i + 1)

/-- 2^a of a finite non-zero a (08 R240): exact for integers; otherwise the value is irrational and is carried to 340 bits. -/
def exp2Num (neg : Bool) (m : Nat) (e : Int) : Nat × Int :=
  if 0 ≤ e ∨ m % 2 ^ (-e).toNat = 0 then
    let k : Nat := if 0 ≤ e then m * 2 ^ (min e 20).toNat else m / 2 ^ (-e).toNat
    let c : Nat := min k 5000
    (1, if neg then -(c : Int) else (c : Int))
  else if e + (Nat.log2 m : Int) < -300 then
    (if neg then 2 ^ 301 - 1 else 2 ^ 301 + 1, -301)
  else
    let d := (-e).toNat
    let whole := m / 2 ^ d
    let frac := m % 2 ^ d
    let k : Int := if neg then -(min whole 5000 : Nat) - 1 else (min whole 5000 : Nat)
    let fr := (if neg then 2 ^ d - frac else frac) * 2 ^ fxp / 2 ^ d
    let v := expSum (fr * ln2fx / 2 ^ fxp) 100 (2 ^ fxp) 0
    (jam (v / 2 ^ 60) true, k - 341)

/-- Power of two (08 R240). -/
def FF.exp2Op (f : FF) (md : RMode) (flush : Bool) (a : Fx) : Nat × Evs :=
  match a with
  | .nan _ => (f.cnan, sigs [a])
  | .inf n => (if n then f.sgn false else f.inf false, Evs.zero)
  | .num n m e =>
    if m = 0 then f.round md false flush false 1 0
    else
      let (m', e') := exp2Num n m e
      f.round md false flush false m' e'

/-- Binary logarithm of a positive finite value (08 R240): exact for powers of two; otherwise irrational, in units of
2^-400 before the cut. -/
def log2Num (m : Nat) (e : Int) : Int × Int :=
  let t := Nat.log2 m
  if m = 2 ^ t then (e + t, 0)
  else
    let y := ln2x (m - 2 ^ t) (m + 2 ^ t) * 2 ^ fxp / ln2fx
    let l : Int := (e + t) * ((2 ^ fxp : Nat) : Int) + (y : Int)
    let a := jam (l.natAbs / 2 ^ 60) true
    (if l < 0 then -(a : Int) else (a : Int), -341)

/-- Binary logarithm (08 R240). -/
def FF.log2Op (f : FF) (md : RMode) (flush : Bool) (a : Fx) : Nat × Evs :=
  match a with
  | .nan _ => (f.cnan, sigs [a])
  | .inf n => if n then f.invalid else (f.inf false, Evs.zero)
  | .num n m e =>
    if m = 0 then (f.inf true, Evs.divZero)
    else if n then f.invalid
    else
      let (x, q) := log2Num m e
      f.round md false flush (decide (x < 0)) x.natAbs q

/-- Order of two values that are not NaN: is a below b; +0 = -0 unless `zeros` orders -0 first (04 R134, 08 R242). -/
def ltFx (zeros : Bool) (a b : Fx) : Bool :=
  match a, b with
  | .inf n1, .inf n2 => n1 && !n2
  | .inf n, _ => n
  | _, .inf n => !n
  | .num n1 m1 e1, .num n2 m2 e2 =>
    if m1 = 0 ∧ m2 = 0 then zeros && n1 && !n2
    else
      let q := min e1 e2
      decide (scaled n1 m1 e1 q < scaled n2 m2 e2 q)
  | _, _ => false

/-- VFMIN and VFMAX of two patterns (08 R242). -/
def FF.minmax (f : FF) (isMax : Bool) (a b : Nat) : Nat × Evs :=
  let x := f.unpack a
  let y := f.unpack b
  if decide (x = .nan true) || decide (y = .nan true) then (f.cnan, Evs.invalid)
  else if x = .nan false then ((if y = .nan false then f.cnan else b), Evs.zero)
  else if y = .nan false then (a, Evs.zero)
  else if (if isMax then ltFx true x y else ltFx true y x) then (b, Evs.zero)
  else (a, Evs.zero)

/-- The comparisons of VFCMP (08 R242). -/
inductive FCond where
  | eq | lt | le | un
  deriving DecidableEq, Repr

/-- Compare two patterns (08 R242). -/
def FF.cmp (f : FF) (c : FCond) (a b : Nat) : Bool × Evs :=
  let x := f.unpack a
  let y := f.unpack b
  let n := anyNan [x, y]
  let r := match c with
    | .eq => !n && !ltFx false x y && !ltFx false y x
    | .lt => !n && ltFx false x y
    | .le => !n && !ltFx false y x
    | .un => n
  (r, sigs [x, y])

/-- VFCLASS (08 R242). -/
def FF.classOf (f : FF) (a : Nat) : Nat :=
  match f.unpack a with
  | .nan s => if s then 2 ^ 8 else 2 ^ 9
  | .inf n => if n then 1 else 2 ^ 7
  | .num n m _ =>
    if m = 0 then (if n then 2 ^ 3 else 2 ^ 4)
    else if f.isSub a then (if n then 2 ^ 2 else 2 ^ 5)
    else (if n then 2 else 2 ^ 6)

/-- The operations of major 0x10 that round (08 R240). -/
inductive FOp where
  | add | sub | mul | div | sqrt | rcp | rsq | exp2 | log2
  deriving DecidableEq, Repr

/-- One lane of a rounding operation, its sources judged in flush mode (04 R132, 08 R240). -/
def FF.lane (f : FF) (op : FOp) (md : RMode) (flush : Bool) (a b : Nat) : Nat × Evs :=
  let (a1, ea) := f.source flush a
  let x := f.unpack a1
  let (b1, eb) := f.source flush b
  let y := f.unpack b1
  let both := ea.add eb
  match op with
  | .add => let (r, e) := f.addFx md flush x y; (r, e.add both)
  | .sub => let (r, e) := f.addFx md flush x y.negate; (r, e.add both)
  | .mul => let (r, e) := f.mulOp md flush x y; (r, e.add both)
  | .div => let (r, e) := f.divOp md flush x y; (r, e.add both)
  | .sqrt => let (r, e) := f.sqrtOp md flush x; (r, e.add ea)
  | .rcp => let (r, e) := f.divOp md flush Fx.one x; (r, e.add ea)
  | .rsq => let (r, e) := f.rsqOp md flush x; (r, e.add ea)
  | .exp2 => let (r, e) := f.exp2Op md flush x; (r, e.add ea)
  | .log2 => let (r, e) := f.log2Op md flush x; (r, e.add ea)

/-- One lane of VFMA, or of VFNMA (`negate`: round(c - a * b)) (08 R241). -/
def FF.laneFma (f : FF) (negate : Bool) (md : RMode) (flush : Bool) (a b c : Nat) : Nat × Evs :=
  let (a1, ea) := f.source flush a
  let (b1, eb) := f.source flush b
  let (c1, ec) := f.source flush c
  let x := f.unpack a1
  let (r, e) := f.fmaOp md flush (if negate then x.negate else x) (f.unpack b1) (f.unpack c1)
  (r, ((e.add ea).add eb).add ec)

/-- One lane of VTSUM: sum, exact error and events (04 R137, 08 R243). A flushed error is +0, by R137's last line, where 04 R132
alone would keep its sign (log 51). Whether e is taken against the sum before or after its own flush is not stated: the model takes the
flushed sum, so that e of a flushed subnormal sum is subnormal, is flushed too and counts its events again (DESIGN CHOICE, log 51). -/
def FF.laneTsum (f : FF) (flush : Bool) (a b : Nat) : Nat × Nat × Evs :=
  let (s, es) := f.lane .add .near flush a b
  let (a1, _) := f.source flush a
  let (b1, _) := f.source flush b
  match f.unpack s, f.unpack a1, f.unpack b1 with
  | .num ns ms xs, .num na ma xa, .num nb mb xb =>
    let q := min xs (min xa xb)
    let d := scaled na ma xa q + scaled nb mb xb q - scaled ns ms xs q
    if d = 0 then (s, 0, es)
    else
      let (e, ee) := f.round .near false flush (decide (d < 0)) d.natAbs q
      if ee.sub = 0 then (s, e, es) else (s, 0, es.add { Evs.zero with sub := 1, unf := 1, inx := 1 })
  | _, _, _ => (s, 0, es)

/-! ## Formats and conversion (04 R117, R127-R129; 08 R244, R245) -/

/-- Width in bits of a format (08 R244). -/
def Fmt.width : Fmt → Nat
  | .int8 | .uint8 | .c8 => 8
  | .int16 | .uint16 | .fp16 | .bf16 => 16
  | .int32 | .uint32 | .fp32 | .x19 => 32
  | .int64 | .uint64 | .fp64 => 64
  | .c4 => 4

/-- The binary format of an fp format. -/
def Fmt.ff : Fmt → Option FF
  | .fp16 => some ff16 | .bf16 => some ffb | .fp32 => some ff32 | .fp64 => some ff64 | .x19 => some ffx
  | _ => none

/-- A two's complement format (04 R117). -/
def Fmt.signed : Fmt → Bool
  | .int8 | .int16 | .int32 | .int64 => true
  | _ => false

/-- The least value of an integer format. -/
def Fmt.lo (t : Fmt) : Int := if Fmt.signed t then -((2 ^ (Fmt.width t - 1) : Nat) : Int) else 0

/-- The greatest value of an integer format. -/
def Fmt.hi (t : Fmt) : Int := if Fmt.signed t then ((2 ^ (Fmt.width t - 1) : Nat) : Int) - 1 else ((2 ^ Fmt.width t : Nat) : Int) - 1

/-- The value of an integer pattern. -/
def intVal (t : Fmt) (x : Nat) : Int :=
  if Fmt.signed t ∧ 2 ^ (Fmt.width t - 1) ≤ x then (x : Int) - ((2 ^ Fmt.width t : Nat) : Int) else (x : Int)

/-- An integer as a pattern of w bits. -/
def wrapInt (w : Nat) (x : Int) : Nat := (x % ((2 ^ w : Nat) : Int)).toNat

/-- Clamp to a range. -/
def clampInt (lo hi x : Int) : Int := if x < lo then lo else if hi < x then hi else x

/-- A conversion to an integer format (04 R128). -/
def toIntFmt (t : Fmt) (md : RMode) (sat : Bool) (x : Fx) : Nat × Evs :=
  let w := Fmt.width t
  match x with
  | .nan _ => (0, Evs.invalid)
  | .inf n => (if sat then wrapInt w (if n then Fmt.lo t else Fmt.hi t) else 0, Evs.invalid)
  | .num n m e =>
    let k := roundAt md n m e 0
    let v : Int := if n then -(k : Int) else (k : Int)
    if v < Fmt.lo t ∨ Fmt.hi t < v then (wrapInt w (if sat then clampInt (Fmt.lo t) (Fmt.hi t) v else v), Evs.invalid)
    else (wrapInt w v, if dyEq k 0 m e then Evs.zero else { Evs.zero with inx := 1 })

/-- One lane of VCVT (08 R245). An x19 container's bits [31:19] are ignored and written as zero (04 R119). A source subnormal is judged in flush mode before anything else (04 R133). -/
def convert (src dst : Fmt) (md : RMode) (sat flush : Bool) (x : Nat) : Nat × Evs :=
  match Fmt.ff src, Fmt.ff dst with
  | none, none =>
    let v := intVal src x
    let c := clampInt (Fmt.lo dst) (Fmt.hi dst) v
    if sat then (wrapInt (Fmt.width dst) c, if c = v then Evs.zero else Evs.clamp) else (wrapInt (Fmt.width dst) v, Evs.zero)
  | none, some g =>
    let v := intVal src x
    g.round md sat flush (decide (v < 0)) v.natAbs 0
  | some f, none =>
    let (x1, e1) := f.source flush (fld x 0 f.width)
    let (r, e) := toIntFmt dst md sat (f.unpack x1)
    (r, e.add e1)
  | some f, some g =>
    let (x1, e1) := f.source flush (fld x 0 f.width)
    if src = dst then (x1, e1)
    else
      let (r, e) :=
        match f.unpack x1 with
        | .nan s => (g.cnan, if s then Evs.invalid else Evs.zero)
        | .inf n => (if sat then g.maxFin n else g.inf n, Evs.zero)
        | .num n m e => g.round md sat flush n m e
      (r, e.add e1)

/-! ## Decode tables and block scales (04 R120-R123, R130, R131; 08 R246-R248) -/

/-- The value of a table entry: NaN, infinity or an x19 number (04 R120, R121). -/
def tableValue (e : BitVec 32) : Fx :=
  let v := ffx.unpack (fld e.toNat 0 19)
  if e.getLsbD 31 then .nan false
  else
    match v with
    | .nan _ => .nan false
    | .inf n => .inf n
    | .num n m x => if e.getLsbD 30 then .inf n else .num n m x

/-- An s9 scale as a dyadic number; none for the NaN scale (04 R123). -/
def s9 (code : Nat) : Option (Nat × Int) :=
  let c := code % 512
  if c = 0x1FF then none else some (2 + c % 2, ((c / 2 : Nat) : Int) - 128)

/-- A code's value in a table of entries. -/
def codeValue (tbl : List (BitVec 32)) (c : Nat) : Fx := tableValue (tbl.getD c 0)

/-- Codes of a half of a coded format: first code and how many (04 R130). -/
def halfBase (c4 neg : Bool) : Nat := if neg then (if c4 then 8 else 128) else 0

/-- Codes in a half. -/
def halfLen (c4 : Bool) : Nat := if c4 then 8 else 128

/-- The number of finite codes at the start of a half, from code c on. -/
def finiteRun (tbl : List (BitVec 32)) (c : Nat) : Nat → Nat
  | 0 => 0
  | n + 1 =>
    match codeValue tbl c with
    | .num _ _ _ => 1 + finiteRun tbl (c + 1) n
    | _ => 0

/-- Magnitudes strictly rise along the n codes after c, each of the half's sign (04 R130). -/
def risesFrom (tbl : List (BitVec 32)) (neg : Bool) (c : Nat) : Nat → Bool
  | 0 => true
  | n + 1 =>
    match codeValue tbl c, codeValue tbl (c + 1) with
    | .num _ m1 e1, .num s m2 e2 => decide (s = neg) && dyLt m1 e1 m2 e2 && risesFrom tbl neg (c + 1) n
    | _, _ => false

/-- One half is ordered (04 R130): zero of its sign first, then rising magnitudes, then at the end nothing, an infinity, a
NaN, or an infinity and a NaN. -/
def halfOrdered (tbl : List (BitVec 32)) (c4 neg : Bool) : Bool :=
  let b := halfBase c4 neg
  let len := halfLen c4
  let n := finiteRun tbl b len
  let first := match codeValue tbl b with
    | .num s m _ => decide (m = 0) && decide (s = neg)
    | _ => false
  let at' := codeValue tbl (b + n)
  let tail :=
    if n = len then true
    else if n + 1 = len then decide (at' = .nan false) || decide (at' = .inf neg)
    else if n + 2 = len then decide (at' = .inf neg) && decide (codeValue tbl (b + n + 1) = .nan false)
    else false
  first && risesFrom tbl neg b (n - 1) && tail

/-- A table is ordered for a coded format (04 R130). -/
def tableOrdered (tbl : List (BitVec 32)) (c4 : Bool) : Bool := halfOrdered tbl c4 false && halfOrdered tbl c4 true

/-- The NaN codes among the first n of a table: the order check's decoding counts each (04 R121, R130). -/
def nanCodes (tbl : List (BitVec 32)) (n : Nat) : Nat :=
  ((List.range n).filter fun c => decide (codeValue tbl c = .nan false)).length

/-- The lowest NaN code from c on. -/
def nanCode (tbl : List (BitVec 32)) (c : Nat) : Nat → Option Nat
  | 0 => none
  | n + 1 => if codeValue tbl c = .nan false then some c else nanCode tbl (c + 1) n

/-- The magnitude of a code times the scale. -/
def codeMag (tbl : List (BitVec 32)) (sm : Nat) (se : Int) (c : Nat) : Nat × Int :=
  match codeValue tbl c with
  | .num _ m e => (m * sm, e + se)
  | _ => (0, 0)

/-- Binary search of R131: the last of `len` codes from `lo` whose scaled magnitude is at most m * 2^e; `fuel` bounds the
halvings. -/
def searchCode (tbl : List (BitVec 32)) (sm : Nat) (se : Int) (m : Nat) (e : Int) : Nat → Nat → Nat → Nat
  | 0, lo, _ => lo
  | fuel + 1, lo, len =>
    if len ≤ 1 then lo
    else
      let h := len / 2
      let (cm, ce) := codeMag tbl sm se (lo + h)
      if dyLt m e cm ce then searchCode tbl sm se m e fuel lo h else searchCode tbl sm se m e fuel (lo + h) (len - h)

/-- enc of R131 for the finite or infinite x of a sign, x = m * 2^e with the table's values scaled by sm * 2^se (so that no
division is made); `isInf` for an infinite x. Answers the code and its events. -/
def encMag (tbl : List (BitVec 32)) (c4 : Bool) (md : RMode) (sat : Bool) (sm : Nat) (se : Int) (neg isInf : Bool)
    (m : Nat) (e : Int) : Nat × Evs :=
  let b := halfBase c4 neg
  let len := halfLen c4
  let n := finiteRun tbl b len
  let (tm, te) := codeMag tbl sm se (b + n - 1)
  let infc : Option Nat := if n < len ∧ codeValue tbl (b + n) = .inf neg then some (b + n) else none
  if isInf || dyLt tm te m e then
    let toward := match md with
      | .zero => true
      | .down => !neg
      | .up => neg
      | _ => false
    let code := if sat || toward then b + n - 1 else infc.getD (b + n - 1)
    (code, { Evs.clamp with inx := if isInf && decide (some code = infc) then 0 else 1 })
  else
    let c := searchCode tbl sm se m e 8 b n
    let (lm, le) := codeMag tbl sm se c
    if dyEq lm le m e then (c, Evs.zero)
    else
      let (hm, he) := codeMag tbl sm se (c + 1)
      let q := min e (min le he)
      let x := m * 2 ^ (e - q).toNat
      let lo := lm * 2 ^ (le - q).toNat
      let hi := hm * 2 ^ (he - q).toNat
      let up := match md with
        | .near => decide (hi + lo < 2 * x) || (decide (2 * x = hi + lo) && decide (c % 2 = 1))
        | _ => roundUp md neg 0 (x - lo) (hi - lo)
      (if up then c + 1 else c, { Evs.zero with inx := 1 })

/-- One active lane of VENC or VENC.s (08 R247, 04 R131-R134). `scale` is none for the NaN scale. EVINX counts a code that does not
decode, scaled, to x: a NaN encoded as 0x00, a number under the NaN scale, a flushed source (log 51). -/
def encLane (tbl : List (BitVec 32)) (c4 : Bool) (md : RMode) (sat flush : Bool) (scale : Option (Nat × Int)) (x : Nat) :
    Nat × Evs :=
  let nan : Nat × Evs :=
    match nanCode tbl 0 (if c4 then 16 else 256) with
    | some c => (c, Evs.zero)
    | none => (0, Evs.nanUse)
  match scale with
  | none =>
    let e := (nan.2.add Evs.nanUse).add (sigs [ff32.unpack x])
    (nan.1, if anyNan [ff32.unpack x] then e else e.add Evs.inexact)
  | some (sm, se) =>
    match ff32.unpack x with
    | .nan s => (nan.1, (nan.2.add (sigs [.nan s])).add (if nan.2 = Evs.zero then Evs.zero else Evs.inexact))
    | .inf n => encMag tbl c4 md sat sm se n true 0 0
    | .num n m e =>
      if m = 0 then (halfBase c4 n, Evs.zero)
      else if flush && dyLt m e sm (se - 126) then (halfBase c4 n, Evs.flushed.add Evs.inexact)
      else encMag tbl c4 md sat sm se n false m e

/-- Is the quotient of an fp32 source by a scale subnormal (04 R133, 08 R247). -/
def encSub (scale : Option (Nat × Int)) (x : Nat) : Bool :=
  match scale, ff32.unpack x with
  | some (sm, se), .num _ m e => !decide (m = 0) && dyLt m e sm (se - 126)
  | _, _ => false

/-- One active code of VDEC or VDEC.s (08 R248). -/
def decLane (tbl : List (BitVec 32)) (md : RMode) (sat flush : Bool) (scale : Option (Nat × Int)) (c : Nat) : Nat × Evs :=
  let d := codeValue tbl c
  let e0 := if d = .nan false then Evs.nanUse else Evs.zero
  match scale with
  | none => (ff32.cnan, e0.add Evs.nanUse)
  | some (sm, se) =>
    match d with
    | .nan _ => (ff32.cnan, e0)
    | .inf n => (if sat then ff32.maxFin n else ff32.inf n, e0)
    | .num n m e => ff32.round md sat flush n (m * sm) (e + se)

end Sys2Proof.Machine
end

