-- ==== Sys2Proof/Machine/Operands.lean ====
section
/-! DEFINITION. Operand forms: immediates and literals (05 R143, R148), lanes and masks (08 R231), queue registers
(01 R25-R29, 10 R290, R291) and vector sources mapped to a queue (08 R232). -/

namespace Sys2Proof.Machine

open Sys2Proof

/-! ## Immediates -/

/-- The sign-extended immediate or literal (06 R180). -/
def immVal {n : Nat} : Imm n → Word
  | .fld x => sextNat x.toNat n
  | .lit x => sextNat x.toNat 32

/-- An offset in units of `u` bytes (06 R186, 07 R198). -/
def immScaled {n : Nat} (u : Nat) (i : Imm n) : Word := BitVec.ofNat 64 u * immVal i

/-- A zero-extended immediate or literal (06 R192). -/
def immZext {n : Nat} : Imm n → Word
  | .fld x => BitVec.ofNat 64 x.toNat
  | .lit x => BitVec.ofNat 64 x.toNat

/-! ## Lanes -/

/-- Lane i of width w (01 R21). -/
def laneOf (w : Nat) (v : Vec) (i : Nat) : Nat := fld v.toNat (i * w) w

/-- The first n lanes. -/
def lanesOf (w n : Nat) (v : Vec) : List Nat := (List.range n).map (laneOf w v)

/-- The number with given lanes, the first lowest. -/
def packNat (w : Nat) : List Nat → Nat
  | [] => 0
  | x :: t => x % 2 ^ w + 2 ^ w * packNat w t

/-- A vector from lanes. -/
def packLanes (w : Nat) (l : List Nat) : Vec := BitVec.ofNat 512 (packNat w l)

/-- A vector with one lane replaced. -/
def setLane (w : Nat) (v : Vec) (i x : Nat) : Vec :=
  BitVec.ofNat 512 (v.toNat % 2 ^ (i * w) + x % 2 ^ w * 2 ^ (i * w) + v.toNat / 2 ^ ((i + 1) * w) * 2 ^ ((i + 1) * w))

/-- A mask from bits, the first lowest. -/
def packMask (l : List Bool) : Word := BitVec.ofNat 64 (packNat 1 (l.map fun b => if b then 1 else 0))

/-- The signed reading of a w-bit pattern. -/
def sintW (w x : Nat) : Int := if 2 ^ (w - 1) ≤ x then (x : Int) - ((2 ^ w : Nat) : Int) else (x : Int)

/-- Sum of events. -/
def sumEvs : List Evs → Evs
  | [] => Evs.zero
  | e :: t => e.add (sumEvs t)

/-- Compute the active lanes; an inactive lane keeps the old value and counts nothing (08 R231). `f` answers a lane's value
and events. -/
def overLanes (w n : Nat) (act : Nat → Bool) (old : Vec) (f : Nat → Nat × Evs) : Vec × Evs :=
  let l := (List.range n).map fun i => if act i then f i else (laneOf w old i, Evs.zero)
  (packLanes w (l.map (·.1)), sumEvs (l.map (·.2)))

/-! ## Queue registers -/

/-- Popping n words consumes a poisoned one (18 R456). -/
def poisonedPop (o : Strand) (q : Q4) (n : Nat) : Option Raise :=
  (((o.qbad.getD q.toNat []).take n).findSome? id).map fun a => Raise.at' Cause.ueConsumed 0 a

/-- The channel of the facing core that feeds or takes a mesh channel: north and south, east and west (10 R290). -/
def oppositeQ (q : Nat) : Nat := (q + 2) % 4

/-- After a pop of a mesh channel made room, the neighbour's waiting outbound word may arrive (10 R290). -/
def State.pullMesh (s : State) (o : Strand) (q : Q4) : State :=
  if q.toNat < 4 then
    match (facing o.core q.toNat).bind fun c => s.slotStrand (c * 8 + slotOf o.sid) o.ctx with
    | some n =>
      if (n.qout.getD (oppositeQ q.toNat) []).isEmpty then s
      else s.later (.meshWordArrival n.key (BitVec.ofNat 4 (oppositeQ q.toNat)))
    | none => s
  else if q.toNat = 7 then
    (s.strands.filter fun n => n.q6.any fun p => decide (p.1.toNat % 32768 = o.sid)).foldl
      (fun s n => s.later (.messageDelivery n.key)) s
  else s

/-- Pop n words of a queue by the issuing strand: value of 64 n bits as words, and the state after; none while too few are
there. A pop of an echo gives the last push, one of the same bundle's A syllable too (05 R142 program order, 10 R291). -/
def State.popQ (s : State) (o : Strand) (q : Q4) (n : Nat) : Option (List Word × State) :=
  if popsEcho o q then
    let e := if q.toNat = 9 then s.me.echo9 else s.me.echo10
    some ((lanesOf 64 n e).map (BitVec.ofNat 64), s)
  else
    let l := inWords o q
    if l.length < n then none
    else some (l.take n, (s.setMe (dropWords q n)).pullMesh o q)

/-- Set a member's echo from a push (10 R291). -/
def setEcho (q : Q4) (ws : List Word) (o : Strand) : Strand :=
  let e : Vec := packLanes 64 (ws.map (·.toNat))
  if q.toNat = 9 then { o with echo9 := e } else { o with echo10 := e }

/-- The followers of the issuing strand's gang. -/
def followersOf (s : State) (o : Strand) : List Nat :=
  match s.gangOf o with
  | some g => g.members.drop 1
  | none => []

/-- The leader of the issuing strand's gang. -/
def leaderOf (s : State) (o : Strand) : Nat :=
  match s.gangOf o with
  | some g => g.members.headD o.key
  | none => o.key

/-- Push words into a queue by the issuing strand as one unit; none while there is no room (01 R25, R26; 10 R289-R291). -/
def State.pushQ (s : State) (o : Strand) (q : Q4) (ws : List Word) : Option State :=
  match q.toNat with
  | 9 =>
    if o.isLead then
      let fs := followersOf s o
      if fs.any fun k => match s.strand k with
          | some f => decide (16 < f.q9.length + ws.length)
          | none => false then none
      else some ((fs.foldl (fun s k => s.upd k fun f => { f with q9 := f.q9 ++ ws }) s).setMe (setEcho q ws))
    else some s
  | 10 =>
    let l := leaderOf s o
    match s.strand l with
    | some f =>
      if 16 < f.q10.length + ws.length then none
      else some ((s.upd l fun f => { f with q10 := f.q10 ++ ws }).setMe (setEcho q ws))
    | none => some s
  | n =>
    let l := s.me.qout.getD n []
    if 16 < l.length + ws.length then none
    else
      let s1 := s.setMe fun x => { x with qout := x.qout.setIfInBounds n (l ++ ws) }
      some (ws.foldl (fun s _ => s.later (.meshWordArrival o.key q)) s1)

/-! ## Vector sources -/

/-- Use the value of a first vector source (08 R232, R233): a register, or 8 words of a queue popped as one unit. A freeze of
the instruction pops nothing and records the queue for the umpire. -/
def withSrc (va : VSrc) (o : Strand) (s : State) (k : Vec → State → SylOut) : SylOut :=
  match va with
  | .reg r => k (o.vr r) s
  | .que q =>
    match queueCause o false q with
    | some c => frz s c
    | none =>
      match s.popQ o q 8 with
      | none => .park s .poll
      | some (ws, s1) =>
        match poisonedPop o q 8 with
        | some r => .freeze s r (some q)
        | none =>
        match k (packLanes 64 (ws.map (·.toNat))) s1 with
        | .ok s2 c => .ok s2 c
        | .park _ p => .park s p
        | .freeze _ r _ => .freeze s r (some q)

/-- Write a vector register and count. -/
def retV (s : State) (d : R5) (x : Vec × Evs) : SylOut := .ok ((s.wv d x.1).tally x.2) .next

/-- Write a mask register and count. -/
def retK (s : State) (d : K3) (x : Word) (e : Evs) : SylOut := .ok ((s.wk d x).tally e) .next

end Sys2Proof.Machine
end

