-- ==== Sys2Proof/Machine/Routes.lean ====
section
/-! DEFINITION. The fixed routes between dies: the modules they cross, and whether they are open (03 R107; 17 R439, R442, R443, R448). -/

namespace Sys2Proof.Machine

open Sys2Proof

/-- The edge stages of its own die that a message passes (03 R107): their numbers in the arrival tables. -/
def State.firstStage (s : State) (a b key : Nat) : List Nat :=
  match (hops a b).head?.bind (s.hopLink key) with
  | some l => [144 + a * 96 + l]
  | none => []

/-- The port that leads to a rank (17 R447): Flezil port p is link 96 + p. -/
def portOf (s : State) (rank : Nat) : Option Nat := (s.fw.routes.find? fun p => decide (p.1 = rank)).map (·.2)

/-- The port of a rank's route is up. -/
def portUp (s : State) (rank : Nat) : Bool := (portOf s rank).any fun p => decide ((s.link (96 + p)).st = 2)

/-- The port of a place outside the package is up; a port that is not holds its messages (17 R448). -/
def State.portOpen (s : State) (l : Loc) : Bool :=
  match l with
  | .mem k => if 2 ^ 62 ≤ k ∧ k < 2 ^ 63 then portUp s ((k - 2 ^ 62) / 2 ^ 44) else true
  | .tile _ _ => true

/-- A message from die a can reach a place behind die b now. -/
def State.wayOpen (s : State) (a b key : Nat) (l : Loc) : Bool := (s.heldAt a b key).isNone && s.portOpen l

/-- No module between two dies holds messages: what has no address of its own, such as a gathered query, may have to cross any of
them (17 R443; log 50). -/
def State.edgesQuiet (s : State) (a b : Nat) : Bool :=
  (hops a b).all fun h => match edgeOf h.1 h.2 with
    | some e => (List.range (2 ^ e.2)).all fun i => decide ((s.link (e.1 + i)).st.toNat < 3)
    | none => true

/-- The port of the package that homes a name is up; its publications reach this package in order once it is (17 R448, R450). -/
def rankOpen (s : State) (space name : Nat) : Bool := (s.nameRank space name).all (portUp s)

/-- The home of a name can be reached from a die now: over the port of its package, or over the edges to its slice (17 R443, R447,
R450). -/
def State.homeOpen (s : State) (die space name : Nat) : Bool :=
  match s.nameRank space name with
  | some r => s.edgesQuiet die 4 && portUp s r
  | none => s.edgesQuiet die (dieOfSlice (s.nameSlice space name))

/-- The key of a core's local memory and mesh channels (17 R439). -/
def coreKey (core off : Nat) : Nat := core * 32 + off / 4096

/-- A word of a mesh channel can cross to the facing core (17 R439, R443). -/
def State.meshOpen (s : State) (a b : Nat) : Bool := (s.heldAt (dieOf a) (dieOf b) (coreKey b 0)).isNone

end Sys2Proof.Machine
end

