-- ==== Sys2Proof/Machine/Coherence.lean ====
section
/-! DEFINITION. Objects and their states (02 R54-R68), release counts and queries (03 R106-R109), and the shared loads and
stores of every instruction (07 R197-R200, 03 R114, R115). Values stand at their home at once; states, sharers, masks and
partials are kept as the spec gives them (log 3, log 4). -/

namespace Sys2Proof.Machine

open Sys2Proof

/-! ## Object states -/

/-- The cache of a core: its cluster, or one of its die for cox and management cores (log 18). -/
def cacheOf (core : Nat) : Nat := poolOf core

/-- The object of a physical address (02 R58). -/
def State.keyAt (s : State) (pa : Nat) : CohKey :=
  match s.homes.objs.find? fun b => b.granules.contains (pa / 256) with
  | some b => .obj b.id
  | none => .gran (pa / 256)

/-- The declared object of a key. -/
def State.objOf (s : State) : CohKey → Option Obj
  | .obj id => s.homes.objs.find? fun b => decide (b.id = id)
  | .gran _ => none

/-- State of an object; I when nothing is recorded (02 R60). -/
def State.coh (s : State) (k : CohKey) : Coh :=
  match s.homes.coh.find? fun p => decide (p.1 = k) with
  | some p => p.2
  | none => .i

/-- Record a state; I needs no record. -/
def State.setCoh (s : State) (k : CohKey) (c : Coh) : State :=
  s.setHomes fun h =>
    let rest := h.coh.filter fun p => !decide (p.1 = k)
    { h with coh := if c = .i then rest else (k, c) :: rest }

/-- Is an address of an object. -/
def inKey (s : State) (k : CohKey) (pa : Nat) : Bool := decide (s.keyAt pa = k)

/-- Invalidate the tracked copies of an object's lines in all clusters but some (02 R60). The home sends none for untracked copies
(02 R56). -/
def State.dropLines (s : State) (k : CohKey) (keep : Nat → Bool) : State :=
  s.setHomes fun h => { h with lines := h.lines.filter fun l => keep l.cluster || l.si || !inKey s k (l.line * 64) }

/-- A recall leaves the owner's copy clean and shared. -/
def State.cleanLines (s : State) (k : CohKey) (cl : Nat) : State :=
  s.setHomes fun h =>
    { h with lines := h.lines.map fun l => if l.cluster = cl ∧ inKey s k (l.line * 64) then { l with dirty := 0 } else l }

/-- Word mask of n bytes at an address inside its line (02 R57). -/
def wordMask (pa n : Nat) : BitVec 16 :=
  let a := pa % 64 / 4
  let b := (pa % 64 + n - 1) / 4
  BitVec.ofNat 16 (2 ^ (b + 1) - 2 ^ a)

/-- Word mask of the bytes that are present from an address on, inside its line (02 R57). -/
def presentMask (pa : Nat) (bs : List (Option Byte)) : BitVec 16 :=
  (bs.zipIdx).foldl (fun m x => if x.1.isSome then m ||| BitVec.ofNat 16 (2 ^ ((pa % 64 + x.2) / 4 % 16)) else m) 0

/-- The number that stands for a tile byte among the addresses of lines and objects: request types apply to tile windows as they do
to plain memory (02 R50). -/
def tilePa (v off : Nat) : Nat := 2 ^ 64 + v * 2 ^ 20 + off

/-- The place of a line's first byte. -/
def lineLoc (line : Nat) : Loc :=
  if line * 64 < 2 ^ 64 then .mem (line * 64) else .tile ((line * 64 - 2 ^ 64) / 2 ^ 20) ((line * 64 - 2 ^ 64) % 2 ^ 20)

/-- The old bytes of valid words, the new bytes of the others: a fetch brings the missing words only (02 R57). -/
def fillWords (valid : BitVec 16) (old new : List Byte) : List Byte :=
  (new.zipIdx).map fun x => if valid.getLsbD (x.2 / 4) then old.getD x.2 0 else x.1

/-- The copy of a line after its cluster has read or written some words: a tracked access leaves nothing of an untracked copy, and
an untracked one leaves a tracked copy tracked (02 R55-R57). -/
def touchedLine (l : Line) (m : BitVec 16) (dirty si : Bool) (now : List Byte) : Line :=
  if l.si && !si then { l with valid := m, dirty := if dirty then m else 0, si := false, data := [] }
  else
    { l with valid := l.valid ||| m, dirty := if dirty then l.dirty ||| m else l.dirty,
             data := if l.si then fillWords l.valid l.data now else [] }

/-- Mark words of a cluster's line (02 R57). -/
def State.markLine (s : State) (cl pa : Nat) (m : BitVec 16) (dirty si : Bool) : State :=
  let line := pa / 64
  let now := s.bytes (lineLoc line) 64
  s.setHomes fun h =>
    match h.lines.find? fun l => decide (l.cluster = cl) && decide (l.line = line) with
    | some l =>
      { h with lines := touchedLine l m dirty si now :: h.lines.filter fun x => !(decide (x.cluster = cl) && decide (x.line = line)) }
    | none =>
      { h with lines := { cluster := cl, line := line, valid := m, dirty := if dirty then m else 0, si := si,
                          data := if si then now else [] } :: h.lines }

/-- The untracked copy of a line in a cluster (02 R56). -/
def State.siLine (s : State) (cl line : Nat) : Option Line :=
  s.homes.lines.find? fun l => decide (l.cluster = cl) && decide (l.line = line) && l.si

/-- Bytes written over others from an offset on. -/
def overlay (at0 : Nat) (bs : List (Option Byte)) (old : List Byte) : List Byte :=
  (old.zipIdx).map fun x => if at0 ≤ x.2 then ((bs[x.2 - at0]?).bind id).getD x.1 else x.1

/-- A store updates the untracked copy of its own cluster (02 R55, R56). -/
def State.updateCopy (s : State) (cl pa : Nat) (bs : List (Option Byte)) : State :=
  s.setHomes fun h =>
    { h with lines := h.lines.map fun l =>
        if l.cluster = cl ∧ l.line = pa / 64 ∧ l.si = true then { l with data := overlay (pa % 64) bs l.data } else l }

/-- A load served beyond the cluster's cache brings the words it read into the cluster's untracked copy of their line (03 R102). -/
def State.refreshCopy (s : State) (cl pa : Nat) (m : BitVec 16) : State :=
  let now := s.bytes (lineLoc (pa / 64)) 64
  s.setHomes fun h =>
    { h with lines := h.lines.map fun l =>
        if l.cluster = cl ∧ l.line = pa / 64 ∧ l.si = true then { l with data := fillWords (~~~m) l.data now } else l }

/-! ## U arithmetic (02 R61, R62) -/

/-- Bytes of an operator's element in memory. -/
def uBytes (tag : BitVec 4) : Nat :=
  match tag.toNat with
  | 0 | 9 | 11 | 12 => 4
  | 13 => 2
  | _ => 8

/-- Identity of an operator, as held in a partial (02 R61). -/
def uIdentity (tag : BitVec 4) : Nat :=
  match tag.toNat with
  | 2 => 0x7FFFFFFFFFFFFFFF
  | 3 => 0x8000000000000000
  | 4 => 0xFFFFFFFFFFFFFFFF
  | 6 => 0xFFFFFFFFFFFFFFFF
  | 9 => 0x80000000
  | 10 => 0x8000000000000000
  | 11 => 0xFF800000
  | 12 => 0x7F800000
  | 13 => 0x80000000
  | _ => 0

/-- Minimum or maximum of U arithmetic: a NaN gives the canonical NaN (02 R62). -/
def uMinmax (isMax : Bool) (a b : Nat) : Nat :=
  if anyNan [ff32.unpack a, ff32.unpack b] then ff32.cnan else (ff32.minmax isMax a b).1

/-- Combine (02 R61, R62); `update` for the update step of popadd. -/
def uCombine (tag : BitVec 4) (update : Bool) (a b : Nat) : Nat :=
  match tag.toNat with
  | 0 => (a + b) % 2 ^ 32
  | 1 => (a + b) % 2 ^ 64
  | 2 => if sintW 64 b < sintW 64 a then b else a
  | 3 => if sintW 64 a < sintW 64 b then b else a
  | 4 => Nat.min a b
  | 5 => Nat.max a b
  | 6 => a &&& b
  | 7 => a ||| b
  | 8 => a ^^^ b
  | 9 => (ff32.lane .add .near false a b).1
  | 10 => (ff64.lane .add .near false a b).1
  | 11 => uMinmax true a b
  | 12 => uMinmax false a b
  | 13 => (ff32.lane .add .near false a b).1
  | _ => (a + (if update then popcNat b else b)) % 2 ^ 64
where
  popcNat (x : Nat) : Nat := ((List.range 64).filter fun i => bit x i).length

/-- The home value as the fold takes it: bf16 widened to fp32 (02 R62). -/
def uWiden (tag : BitVec 4) (x : Nat) : Nat := if tag = 13 then x * 2 ^ 16 else x

/-- The folded value as home stores it: bf16add rounded once (02 R62). -/
def uNarrow (tag : BitVec 4) (x : Nat) : Nat := if tag = 13 then (convert .fp32 .bf16 .near false false x).1 else x

/-- Write bytes without clearing poison (18 R456: a fold of poisoned values stays poisoned). -/
def State.putKeep (s : State) (pa : Nat) (bs : List Byte) : State := { s with mem := msetN s.mem pa bs }

/-- A holder's collect: its partials go to the home and it starts again from the identity (02 R66 step 1). -/
def State.collect (s : State) (k : CohKey) (tag : BitVec 4) (cl : Nat) : State :=
  s.setHomes fun h =>
    let mine := h.parts.filter fun p => decide (p.key = k) && decide (p.cluster = cl)
    { h with
      parts := h.parts.map fun p =>
        if p.key = k ∧ p.cluster = cl then { p with val := BitVec.ofNat 64 (uIdentity tag), bad := false } else p
      collected := h.collected ++ mine }

/-- Insert into an ascending list without repeats. -/
def insertCl (x : Nat) : List Nat → List Nat
  | [] => [x]
  | y :: t => if x = y then y :: t else if x < y then x :: y :: t else y :: insertCl x t

/-- A granule becomes poisoned (18 R455). -/
def State.poisonAt (s : State) (g : Nat) : State := if s.poison.contains g then s else { s with poison := s.poison ++ [g] }

/-- The fold of collected partials into the home's value of one element, holders ascending (02 R66 step 3); a poisoned partial poisons the
merged value (18 R456). -/
def State.foldElement (s : State) (tag : BitVec 4) (pa : Nat) (ps : List Partial) : State :=
  let n := uBytes tag
  let cls := ps.foldl (fun l p => insertCl p.cluster l) []
  let v0 := uWiden tag (s.loadNat (.mem pa) n)
  let v := cls.foldl (fun v c =>
    (ps.filter fun p => decide (p.cluster = c)).foldl (fun v p => uCombine tag false v p.val.toNat) v) v0
  let s1 := s.putKeep pa (natLE n (uNarrow tag v))
  if ps.any (·.bad) then s1.poisonAt (granule (.mem pa)) else s1

/-- The addresses of a list of partials, each once. -/
def partAddrs : List Partial → List Nat
  | [] => []
  | p :: t => insertCl p.pa (partAddrs t)

/-- Fold everything collected for an object (02 R66 step 3). -/
def State.foldMerge (s : State) (k : CohKey) (tag : BitVec 4) : State :=
  let ps := s.homes.collected.filter fun p => decide (p.key = k)
  let s1 := (partAddrs ps).foldl (fun s a => s.foldElement tag a (ps.filter fun p => decide (p.pa = a))) s
  s1.setHomes fun h => { h with collected := h.collected.filter fun p => !decide (p.key = k) }

/-- A merge: collect from every holder, then fold (02 R66). The holders stay, with identity partials. -/
def State.merge (s : State) (k : CohKey) : State :=
  match s.coh k with
  | .u tag hs => (hs.foldl (fun s c => s.collect k tag c) s).foldMerge k tag
  | _ => s

/-- Release every holder: no partial is left (02 R67). -/
def State.releaseHolders (s : State) (k : CohKey) : State :=
  s.setHomes fun h => { h with parts := h.parts.filter fun p => !decide (p.key = k) }

/-- A request of a cluster for an object: served in its own cache where it owns the object, else at the object's home (02 R60). A
sharer that has evicted its copies silently still counts as one (02 R94). -/
def State.request (s : State) (cl pa : Nat) (r : ObjReq) : State :=
  let k := s.keyAt pa
  let others := fun (c : Nat) => decide (c = cl)
  match r, s.coh k with
  | .loadOwn, .i => s.setCoh k (.s [cl])
  | .loadOwn, .s l => s.setCoh k (.s (insertCl cl l))
  | .loadOwn, .o c => if c = cl then s else (s.cleanLines k c).setCoh k (.s (insertCl cl [c]))
  | .loadOwn, .u _ _ => s.merge k
  | .loadSi, .o c => if c = cl then s else (s.cleanLines k c).setCoh k (.s [c])
  | .loadSi, .u _ _ => s.merge k
  | .loadSi, _ => s
  | .storeOwn, .o c => if c = cl then s else (s.dropLines k others).setCoh k (.o cl)
  | .storeOwn, .u _ _ => ((s.merge k).releaseHolders k).setCoh k (.o cl)
  | .storeOwn, _ => (s.dropLines k others).setCoh k (.o cl)
  | .storeWt, .o c => if c = cl then s else (s.dropLines k others).setCoh k .i
  | .storeWt, .u _ _ => ((s.merge k).releaseHolders k).setCoh k .i
  | .storeWt, .i => s
  | .storeWt, .s l => (s.dropLines k others).setCoh k (if l.contains cl then .s [cl] else .i)
  | .storeNc, .o c => if c = cl then s else (s.dropLines k fun _ => false).setCoh k .i
  | .storeNc, .u _ _ => ((s.merge k).releaseHolders k).setCoh k .i
  | .storeNc, .i => s
  | .storeNc, .s _ => (s.dropLines k fun _ => false).setCoh k .i
  | .atomic, .u _ _ => s.merge k
  | .atomic, _ => (s.dropLines k fun _ => false).setCoh k .i
  | .update tag, .u t hs =>
    if t = tag then s.setCoh k (.u t (insertCl cl hs))
    else ((s.merge k).releaseHolders k).setCoh k (.u tag [cl])
  | .update tag, c => if c = .o cl then s else (s.dropLines k fun _ => false).setCoh k (.u tag [cl])

/-- The request a plain load makes (02 R55). -/
def loadReq : Rq → ObjReq
  | .own | .wt => .loadOwn
  | .si | .nc => .loadSi

/-- The request a plain store makes (02 R55). -/
def storeReq : Rq → ObjReq
  | .own => .storeOwn
  | .wt | .si => .storeWt
  | .nc => .storeNc

/-- Coherence of a load of some words at a physical address, and the copy it leaves (02 R55, R57, R60). A load under .si that finds
its words in an untracked copy sends no request (02 R56). DESIGN CHOICE: R55 has a .si load fill an untracked copy and R60's U row is
silent on it; a load of an object in U leaves none (log 36). -/
def State.cohLoad (s : State) (cl : Nat) (rq : Rq) (pa : Nat) (m : BitVec 16) : State :=
  if rq = .si ∧ ((s.siLine cl (pa / 64)).any fun l => decide (l.valid &&& m = m)) = true then s
  else
    let s1 := s.request cl pa (loadReq rq)
    match rq with
    | .nc => s1.refreshCopy cl pa m
    | _ =>
      match s1.coh (s1.keyAt pa) with
      | .u _ _ => s1.refreshCopy cl pa m
      | _ => s1.markLine cl pa m false (decide (rq = .si))

/-- Coherence of a store of some words (02 R55, R57, R60). -/
def State.cohStore (s : State) (cl : Nat) (rq : Rq) (pa : Nat) (m : BitVec 16) : State :=
  let s1 := s.request cl pa (storeReq rq)
  match rq with
  | .own => s1.markLine cl pa m true false
  | .nc => s1.setHomes fun h => { h with lines := h.lines.filter fun l => !(decide (l.cluster = cl) && decide (l.line = pa / 64)) }
  | _ => s1

/-! ## Updates (07 R222, 02 R65) -/

/-- Elements of a tag in a 64-byte line. -/
def lineElems (tag : BitVec 4) (pa : Nat) : List Nat :=
  let z := uBytes tag
  (List.range (64 / z)).map fun i => pa / 64 * 64 + i * z

/-- Allocate identity partials for a line that the cluster does not hold yet (02 R65). -/
def State.openPartials (s : State) (k : CohKey) (tag : BitVec 4) (cl pa : Nat) : State :=
  s.setHomes fun h =>
    if h.parts.any fun p => decide (p.key = k) && decide (p.cluster = cl) && decide (p.pa / 64 = pa / 64) then h
    else
      { h with parts := h.parts ++ (lineElems tag pa).map fun a =>
          { key := k, cluster := cl, pa := a, val := BitVec.ofNat 64 (uIdentity tag), parked := false, bad := false } }

/-- Combine one update into the holder's partial (02 R61, R65). -/
def State.updateEl (s : State) (k : CohKey) (tag : BitVec 4) (cl : Nat) (e : Nat × Nat) : State :=
  s.setHomes fun h =>
    { h with parts := h.parts.map fun p =>
        if p.key = k ∧ p.cluster = cl ∧ p.pa = e.1 then
          { p with val := BitVec.ofNat 64 (uCombine tag true p.val.toNat (uWiden tag e.2)), parked := false }
        else if p.key = k ∧ p.cluster = cl ∧ p.pa / 64 = e.1 / 64 then { p with parked := false }
        else p }

/-- One update in the cache of the cluster that owns the object (02 R60, R62). -/
def State.ownUpdate (s : State) (tag : BitVec 4) (cl : Nat) (e : Nat × Nat) : State :=
  let n := uBytes tag
  let v := uWiden tag (s.loadNat (.mem e.1) n)
  (s.putKeep e.1 (natLE n (uNarrow tag (uCombine tag true v (uWiden tag e.2))))).markLine cl e.1 (wordMask e.1 n) true false

/-- A cluster drops its copies of an object, untracked ones too. -/
def State.forgetCopies (s : State) (k : CohKey) (cl : Nat) : State :=
  s.setHomes fun h => { h with lines := h.lines.filter fun l => !(decide (l.cluster = cl) && inKey s k (l.line * 64)) }

/-- Updates of one line: elements as address and bits. The owner of an object updates it in its own cache; any other cluster becomes
a holder, and keeps no untracked copy that a later load of its own could find (02 R60, R65; 03 R101 rule 2, R113). -/
def State.updateLine (s : State) (tag : BitVec 4) (cl pa : Nat) (es : List (Nat × Nat)) : State :=
  let k := s.keyAt pa
  if es.isEmpty then s
  else if s.coh k = .o cl then es.foldl (fun s e => s.ownUpdate tag cl e) s
  else es.foldl (fun s e => s.updateEl k tag cl e) (((s.request cl pa (.update tag)).forgetCopies k cl).openPartials k tag cl pa)

/-- The clusters from which an answer is needed before a request of a cluster is served: those it recalls, invalidates or collects
from (02 R60, R66). -/
def State.parties (s : State) (cl pa : Nat) (r : ObjReq) : List Nat :=
  match r, s.coh (s.keyAt pa) with
  | .atomic, .o c => [c]
  | .update tag, .u t hs => if t = tag then [] else hs
  | _, .o c => if c = cl then [] else [c]
  | _, .u _ hs => hs
  | .loadOwn, _ | .loadSi, _ => []
  | _, .s l => l.filter fun c => !decide (c = cl)
  | _, .i => []

/-- Die of a cluster's cache. -/
def dieOfCache (c : Nat) : Nat := if c < 144 then c / 36 else c - 144

/-- Recalls, invalidations and collects of a request can leave the home's die: no module of their routes holds messages (17 R443). -/
def State.partiesOpen (s : State) (cl pa : Nat) (r : ObjReq) (home key : Nat) : Bool :=
  (s.parties cl pa r).all fun c => (s.heldAt home (dieOfCache c) key).isNone

/-! ## Release counts and the gathered query (03 R106-R109) -/

/-- The slice that homes an address's requests: the home of its object (02 R54, R58). -/
def State.sliceOf (s : State) (pa : Nat) : Nat :=
  match s.objOf (s.keyAt pa) with
  | some b => homeSlice (b.granules.headD 0 * 256)
  | none => homeSlice pa

/-- The targets at which a counted message from a die is counted: the edge stage it passes there, and its slice (03 R107, R108). -/
def State.countTargets (s : State) (die slice rkey : Nat) : List Nat := s.firstStage die (dieOfSlice slice) rkey ++ [slice]

/-- Add one to a count table. -/
def addCount (l : List (Nat × Nat)) (i : Nat) : List (Nat × Nat) :=
  match l.find? fun p => decide (p.1 = i) with
  | some p => (i, p.2 + 1) :: l.filter fun q => !decide (q.1 = i)
  | none => (i, 1) :: l

/-- Count an arrival at a target; none when its 2,048-entry table is full (03 R108, R109). -/
def State.arrive (s : State) (target key : Nat) (round : BitVec 8) : Option State :=
  let same := fun (a : Arrive) => decide (a.target = target) && decide (a.key = key) && decide (a.round = round)
  match s.homes.arrive.find? same with
  | some a => some (s.setHomes fun h => { h with arrive := { a with n := a.n + 1 } :: h.arrive.filter fun x => !same x })
  | none =>
    if (s.homes.arrive.filter fun a => decide (a.target = target)).length ≥ 2048 then none
    else some (s.setHomes fun h => { h with arrive := { target := target, key := key, round := round, n := 1 } :: h.arrive })

/-- A counted message arrives at a target, or is answered BUSY and kept to be sent again (03 R109). -/
def State.arriveOne (s : State) (key : Nat) (round : BitVec 8) (target : Nat) : State :=
  match s.arrive target key round with
  | some s1 => s1
  | none => s.setHomes fun h => { h with resend := h.resend ++ [(key, target, round)] }

/-- End a round: the counts clear and the round number advances (03 R108). -/
def nextRound (o : Strand) : Strand := { o with counts := [], round := o.round + 1 }

/-- Free the arrival entries of a round (03 R108). -/
def State.freeRound (s : State) (key : Nat) (round : BitVec 8) : State :=
  s.setHomes fun h => { h with arrive := h.arrive.filter fun a => !(decide (a.key = key) && decide (a.round = round)) }

/-- A counted message leaves for a slice: it is in the strand's counts, and it has passed its own die's edge stage (03 R108). -/
def State.sendCounted (s : State) (key slice rkey : Nat) : State :=
  match s.strand key with
  | none => s
  | some o =>
    let s1 := s.upd key fun o => { o with counts := (s.countTargets (dieOf o.core) slice rkey).foldl addCount o.counts }
    (s.firstStage (dieOf o.core) (dieOfSlice slice) rkey).foldl (fun s t => s.arriveOne key o.round t) s1

/-- A counted message reaches its slice, in the round it was sent in; nobody asks for an earlier round any more. -/
def State.reachSlice (s : State) (key : Nat) (round : BitVec 8) (slice : Nat) : State :=
  if (s.strand key).any fun o => decide (o.round = round) then s.arriveOne key round slice else s

/-- A counted message that reaches its slice at once. -/
def State.counted (s : State) (key slice rkey : Nat) : State :=
  match s.strand key with
  | none => s
  | some o => (s.sendCounted key slice rkey).reachSlice key o.round slice

/-- The query of a strand finds every expected arrival (03 R108): at die scope at the slices of its die and at the edge stages of its die,
wider at the slices, whose answers cross no module that holds messages (17 R443). -/
def queryHolds (s : State) (o : Strand) (dieOnly : Bool) : Bool :=
  let die := dieOf o.core
  (o.counts.filter fun p => if dieOnly then decide (144 ≤ p.1) || decide (dieOfSlice p.1 = die) else decide (p.1 < 144)).all fun e =>
    (decide (144 ≤ e.1) || s.edgesQuiet die (dieOfSlice e.1)) &&
    (s.homes.arrive.filter fun a => decide (a.target = e.1) && decide (a.key = o.key) && decide (a.round = o.round)).any
      fun a => decide (a.n = e.2)

/-- The strand's pushes have left: no word waits to enter a neighbour, no message and no command to leave (03 R106). -/
def pushesOut (o : Strand) : Bool := o.q4.isEmpty && o.q6.isEmpty && o.qout.toList.all (·.isEmpty)

/-- The gathered query, at die scope only or wider (03 R108): it runs when the round holds anything, and the strand parks until it is
answered; a round that holds nothing ends at once. The answer stands until the bundle completes. `k` goes on after it. -/
def gathered (o : Strand) (s : State) (dieOnly : Bool) (k : State → SylOut) : SylOut :=
  match o.query with
  | some q => if q.answered then k s else .park s .poll
  | none =>
    if s.me.counts.isEmpty then k (s.setMe fun x => nextRound { x with query := some { dieOnly := dieOnly, answered := true } })
    else
      .park ((s.setMe fun x => { x with query := some { dieOnly := dieOnly, answered := false } }).later
        (.releaseQueryAnswer o.key)) .poll

/-- A place outside the package. -/
def offPackage (l : Loc) : Bool :=
  match l with
  | .mem k => decide (2 ^ 61 ≤ k) && decide (k < 2 ^ 63)
  | .tile _ _ => false

/-- An update of the strand has not been combined into its holder's partial yet (03 R106). -/
def State.updateOut (s : State) (key : Nat) : Bool := s.homes.posted.any fun p => decide (p.key = key) && p.upd.isSome

/-- A store of the strand within the package has not reached its home yet. -/
def State.storeOut (s : State) (key : Nat) : Bool :=
  s.homes.posted.any fun p => decide (p.key = key) && !offPackage p.loc

/-- What a scope waits for beyond the query (03 R106, R108): updates at every scope; beyond die scope stores that have not reached their
home, whichever round counted them; at system scope the acknowledgements of other packages and the companion. -/
def unacked (s : State) (sc : Scope) : Bool :=
  match sc with
  | .core | .clu | .die => s.updateOut s.me.key
  | .pkg => s.storeOut s.me.key
  | .sys => s.storeOut s.me.key || !decide (s.me.acks = 0)

/-- A release at a scope (03 R106): core and cluster scope complete as soon as the strand's updates are performed, since what waits on its
way is passed by no access of its cluster to the same line; wider scopes wait for earlier pushes, run the query, and wait for what is
acknowledged one by one. -/
def release (o : Strand) (s : State) (sc : Scope) (k : State → SylOut) : SylOut :=
  match sc with
  | .core | .clu => if unacked s sc then .park s .poll else k s
  | _ =>
    if !pushesOut s.me then .park s .poll
    else gathered o s (decide (sc = .die)) fun s => if unacked s sc then .park s .poll else k s

/-- Stores to some slices have room in the round's counts; else an implicit query at package scope comes first and they open the next
round (03 R109). -/
def withRoom (o : Strand) (s : State) (slices : List Nat) (k : State → SylOut) : SylOut :=
  if slices.any fun i => s.me.counts.any fun p => decide (p.1 = i) && decide (4096 ≤ p.2 + (slices.filter fun j => decide (j = i)).length) then
    gathered o s false k
  else k s

/-- A release of an instruction: a deferred store still queued freezes it first (03 R115). -/
def releaseHeld (o : Strand) (s : State) (sc : Scope) (k : State → SylOut) : SylOut :=
  if o.replay.isEmpty then release o s sc k else frz s Cause.replayHold

/-- An acquire at a scope: at die scope or wider the cluster's .si copies go (02 R56, 03 R103). -/
def State.acquire (s : State) (sc : Scope) : State :=
  match sc with
  | .core | .clu => s
  | _ =>
    let cl := cacheOf s.me.core
    s.setHomes fun h => { h with lines := h.lines.filter fun l => !(decide (l.cluster = cl) && l.si) }

/-! ## Loads and stores of instructions (07 R197-R200) -/

/-- An element that passed the checks. -/
structure El where
  lane : Nat
  va : Word
  loc : Loc
  rg : Region
  pa : Option Nat
  deriving DecidableEq, Repr

/-- The outcome of checking every element in lane order (07 R197). -/
inductive Plan where
  | ok (l : List El)
  | bad (r : Raise)
  | wait (ver : Option Nat)
  deriving Repr

/-- Check elements of one size in lane order; a step-6 failure freezes. -/
def plan (s : State) (o : Strand) (a : Acc) (size : Nat) : List (Nat × Word) → Plan
  | [] => .ok []
  | (lane, va) :: t =>
    match check s o a size lane va with
    | .bad r => .bad r
    | .defer r => .bad r
    | .wait v => .wait v
    | .ok l rg pa =>
      match plan s o a size t with
      | .ok es => .ok ({ lane := lane, va := va, loc := l, rg := rg, pa := pa } :: es)
      | x => x

/-- Start floating a racked version (02 R86). -/
def State.wantFloat (s : State) (v : Nat) : State :=
  match s.ver v with
  | some r => if r.st = .racked then (s.updVer v fun r => { r with st := .floating }).later (.floatComplete v) else s
  | none => s

/-- Wait for a version or a frame on its way (02 R86, 16 R414). -/
def parkFor (s : State) (v : Option Nat) : SylOut :=
  .park (match v with
    | some u => s.wantFloat u
    | none => s) .poll

/-- Note a use of a version, for the rack age (02 R85). -/
def State.useTile (s : State) (l : Loc) : State :=
  match l with
  | .tile v _ => s.updVer v fun r => { r with used := s.tick }
  | .mem _ => s

/-- The address under which homes and caches keep an element: a physical address, a tile byte's number (02 R50), or the address of this
package's memory behind an aperture. -/
def cohPa (e : El) : Option Nat :=
  match e.pa, e.loc with
  | some pa, _ => some pa
  | none, .tile v off => some (tilePa v off)
  | none, .mem k => if k < 2 ^ 60 then some k else none

/-- The request type that applies to an element: an access through an aperture is served at the home and keeps no copy (17 R449). -/
def El.type (e : El) (rq : Rq) : Rq :=
  match e.pa, e.loc with
  | none, .mem _ => .nc
  | _, _ => rq

/-- The translation of an element of the issuing strand stays in the TLBs it went through (16 R419). -/
def State.noteUse (s : State) (e : El) : State :=
  match e.rg with
  | .plain => s.noteWalk (tlbsOf s.me.core) (dieOf s.me.core) s.me.ctx e.va.toNat
  | _ => s

/-- Coherence of one load element of which some words are read, and its translation. -/
def State.loadWords (s : State) (rq : Rq) (m : BitVec 16) (e : El) : State :=
  match cohPa e with
  | some pa => ((s.noteUse e).useTile e.loc).cohLoad (cacheOf s.me.core) (e.type rq) pa m
  | none => s.noteUse e

/-- Coherence of one load element of n bytes. -/
def State.loadEl (s : State) (rq : Rq) (n : Nat) (e : El) : State := s.loadWords rq (wordMask ((cohPa e).getD 0) n) e

/-- Physical address of a byte of a version, for its route (17 R439). -/
def State.framePa (s : State) (v off : Nat) : Nat :=
  match s.ver v with
  | some r => (if r.frames.isEmpty then r.hbm else r.frames).getD (off / 65536) 0 + off % 65536
  | none => 0

/-- Destination die and route key of an element beyond its core's own local memory (17 R439). What leaves the package crosses to the
port die. -/
def State.routeOf (s : State) (e : El) : Option (Nat × Nat) :=
  match e.rg, e.loc, e.pa with
  | .mine _, _, _ => none
  | .bank c off, _, _ => some (dieOf c, coreKey c off)
  | _, .tile v off, _ => (s.ver v).map fun r => (dieOfSlice (s.nameSlice r.space r.name), s.framePa v off / 4096)
  | _, .mem _, some pa => some (dieOfSlice (s.sliceOf pa), pa / 4096)
  | _, .mem k, none => if k < 2 ^ 60 then some (dieOfSlice (s.sliceOf k), k / 4096) else some (4, k % 2 ^ 44 / 4096)

/-- A message to an element's home cannot pass now (17 R443, R448). -/
def State.away (s : State) (e : El) : Bool :=
  match s.routeOf e with
  | some (d, k) => !s.wayOpen (dieOf s.me.core) d k e.loc
  | none => false

/-- The 64-byte line of a place. -/
def lineOf : Loc → Bool × Nat × Nat
  | .mem k => (false, 0, k / 64)
  | .tile v o => (true, v, o / 64)

/-- A request for an element has to wait at its home until recalls, invalidations or collects can leave it (17 R443). -/
def State.partiesHeld (s : State) (e : El) (r : ObjReq) : Bool :=
  match cohPa e, s.routeOf e with
  | some pa, some (d, k) => !s.partiesOpen (cacheOf s.me.core) pa r d k
  | _, _ => false

/-- A store or update to one of n lines from a place on is still on its way from the strand's die: a later access of that die to the line
follows it (03 R101 rule 2, R106, R107). -/
def State.linesPosted (s : State) (l : Loc) (n : Nat) : Bool :=
  s.homes.posted.any fun p => decide (dieOf p.core = dieOf s.me.core) && (List.range n).any fun i => decide (lineOf p.loc = lineOf (l.add (64 * i)))

/-- The same for the line of a place. -/
def State.linePosted (s : State) (l : Loc) : Bool := s.linesPosted l 1

/-- The words of an access lie in its cluster's cache, which serves a load without its home (02 R55-R57). -/
def State.wordsCached (s : State) (rq : Rq) (n : Nat) (e : El) : Bool :=
  !decide (e.type rq = .nc) && (cohPa e).any fun pa => s.homes.lines.any fun l =>
    decide (l.cluster = cacheOf s.me.core) && decide (l.line = pa / 64) && (!l.si || decide (rq = .si)) &&
      decide (l.valid &&& wordMask pa n = wordMask pa n)

/-- A load has to wait: for an earlier store of its die to its line, or for the way to its home and from there. -/
def State.loadWaits (s : State) (rq : Rq) (n : Nat) (e : El) : Bool :=
  s.linePosted e.loc || ((s.away e || s.partiesHeld e (loadReq (e.type rq))) && !s.wordsCached rq n e)

/-- The bytes that a load of n bytes finds: those of its cluster's untracked copy for .si, else what stands at the place. -/
def State.readBytes (s : State) (rq : Rq) (n : Nat) (e : El) : List Byte :=
  let pa := (cohPa e).getD 0
  match if e.type rq = .si ∧ (cohPa e).isSome = true then s.siLine (cacheOf s.me.core) (pa / 64) else none with
  | some l => (l.data.drop (pa % 64)).take n
  | none => s.bytes e.loc n

/-- Consuming poison: the VA of the first poisoned granule (18 R456, R457). -/
def ueRaise (e : El) (i : Nat) : Raise :=
  Raise.at' Cause.ueConsumed e.lane (BitVec.ofNat 64 ((e.va.toNat + i) / 8 * 8))

/-- The first poisoned element. -/
def poisonedEl (s : State) (n : Nat) : List El → Option Raise
  | [] => none
  | e :: t =>
    match s.poisonIn e.loc n with
    | some i => some (ueRaise e i)
    | none => poisonedEl s n t

/-- Load elements of n bytes: checks, coherence, poison, then the numbers read. -/
def loadEls (o : Strand) (s : State) (rq : Rq) (n : Nat) (els : List (Nat × Word))
    (k : List (Nat × Nat) → State → SylOut) : SylOut :=
  match plan s o Acc.load n els with
  | .bad r => .freeze s r none
  | .wait v => parkFor s v
  | .ok es =>
    if es.any fun e => s.loadWaits rq n e then .park s .poll
    else
    let s1 := es.foldl (fun s e => s.loadEl rq n e) s
    match poisonedEl s1 n es with
    | some r => .freeze s r none
    | none => k (es.map fun e => (e.lane, leNat (s1.readBytes rq n e))) s1

/-- One CRC-64 bit step (18 R474). -/
def crcBits (c : Word) : Nat → Word
  | 0 => c
  | n + 1 => crcBits (if c.getLsbD 63 then (c <<< 1) ^^^ 0x42F0E1EBA9EA3693 else c <<< 1) n

/-- A byte in the top place. -/
def crcTop (b : Byte) : Word := BitVec.ofNat 64 (b.toNat * 2 ^ 56)

/-- CRC-64 over bytes (18 R474). -/
def crcBytes (c : Word) (bs : List Byte) : Word := bs.foldl (fun c b => crcBits (c ^^^ crcTop b) 8) c

/-- CRC-64 of an active store: address low byte, next byte, data byte (18 R474). -/
def crcStore (c va : Word) (bs : List (Option Byte)) : Word :=
  (bs.zipIdx).foldl (fun c x =>
    let a := va + BitVec.ofNat 64 x.2
    match x.1 with
    | some b => crcBytes c [a.truncate 8, (a >>> 8).truncate 8, b]
    | none => c) c

/-- A crew strand of a launch under partition replay (18 R474). -/
def State.hashed (s : State) : Bool :=
  s.me.crew.isSome && (s.me.launch.bind s.launch).any fun l => l.partner.isSome

/-- An address in plain memory or a tile window. -/
def hashedAddr (va : Word) : Bool :=
  match regionOf va with
  | .inr .plain | .inr (.window _ _) => true
  | _ => false

/-- Insert a store element in ascending order of address. -/
def insertStore (x : Word × List (Option Byte)) : List (Word × List (Option Byte)) → List (Word × List (Option Byte))
  | [] => [x]
  | y :: t => if y.1.toNat ≤ x.1.toNat then y :: insertStore x t else x :: y :: t

/-- The hash of a replayed launch takes a store of its strand in program order, its bytes in ascending order of address, whether it is
performed now or deferred (18 R474). -/
def State.hashStore (s : State) (sts : List (Word × List (Option Byte))) : State :=
  if s.hashed then
    s.setMe fun o => { o with crc :=
      ((sts.filter fun x => hashedAddr x.1).foldl (fun l x => insertStore x l) []).foldl (fun c x => crcStore c x.1 x.2) o.crc }
  else s

/-- The cluster owns the object of an element, and serves a store to it in its cache (02 R60). -/
def State.ownsEl (s : State) (e : El) : Bool :=
  (cohPa e).any fun pa => decide (s.coh (s.keyAt pa) = .o (cacheOf s.me.core))

/-- The slice that a store is counted for, if it leaves the core (03 R108). A store to an object that the cluster owns stays there. -/
def State.countSlice (s : State) (e : El) : Option Nat :=
  match e.rg with
  | .mine _ => none
  | .bank c _ => if c = s.me.core then none else some (bankSlice c)
  | .plain => if s.ownsEl e then none else e.pa.map s.sliceOf
  | .window _ _ =>
    match e.loc with
    | .tile v _ => if s.ownsEl e then none else (s.ver v).map fun r => s.nameSlice r.space r.name
    | .mem _ => none

/-- The memory key of a place that can be reserved. -/
def locKey : Loc → Nat
  | .mem k => k
  | .tile v o => 2 ^ 63 + v * 2 ^ 20 + o

/-- Bytes of a reserved word. -/
def wBytes (w : Bool) : Nat := if w then 4 else 8

/-- Another strand's reservation stands on some of the n bytes at a place: no plain store comes between its read and its write, nor
between those of the waiters that the word is handed to (03 R101, 07 R217). -/
def State.reservedFrom (s : State) (key : Nat) (l : Loc) (n : Nat) : Bool :=
  s.homes.resv.any fun r => match r.q with
    | [] => false
    | x :: _ => !decide (x.key = key) && decide (r.loc < locKey l + n) && decide (locKey l < r.loc + wBytes x.w32)

/-- The same for the bytes that are present. -/
def State.reservedBytes (s : State) (key : Nat) (l : Loc) (bs : List (Option Byte)) : Bool :=
  bs.zipIdx.any fun x => x.1.isSome && s.reservedFrom key (l.add x.2) 1

/-- The bytes of a store may still be written: those of a draft only while it is one (02 R76). -/
def State.stillWritable (s : State) (l : Loc) : Bool :=
  match l with
  | .mem _ => true
  | .tile v _ => (s.ver v).any fun r => decide (r.st = .drafted)

/-- A store or update that reaches its home: coherence, its arrival or its acknowledgement, its bytes, its cluster's untracked copy
(02 R55-R60, 03 R106, R108). -/
def State.perform (s : State) (p : Posted) : State :=
  match p.upd with
  | some (tag, es) => s.updateLine tag (cacheOf p.core) (p.pa.getD 0) es
  | none =>
  let s1 := match p.pa with
    | some pa => (s.useTile p.loc).cohStore (cacheOf p.core) p.rq pa (presentMask pa p.bs)
    | none => s
  let s2 := match p.slice with
    | some i => s1.reachSlice p.key p.round i
    | none => if offPackage p.loc then s1.later (.remoteAccessComplete p.key) else s1
  if s.stillWritable p.loc then
    let s3 := (s2.putMask p.loc p.bs (p.bs.length / 8 + 1)).noteConds
    match p.pa with
    | some pa => s3.updateCopy (cacheOf p.core) pa p.bs
    | none => s3
  else s2

/-- The request that something on its way makes at its home. -/
def Posted.req (p : Posted) : ObjReq :=
  match p.upd with
  | some (tag, _) => .update tag
  | none => storeReq p.rq

/-- A store or update has to wait on its way: for a module, for recalls from its home, behind another of its die to the same line
(03 R106, R107; 17 R443), or behind messages to the same package (17 R447). What the cluster owns stays in its cache (02 R60). -/
def State.postedWaits (s : State) (p : Posted) : Bool :=
  !p.after.isEmpty ||
  (s.homes.posted.any fun q => decide (dieOf q.core = dieOf p.core) && decide (lineOf q.loc = lineOf p.loc)) ||
    (match p.pa with
      | some pa => !decide (s.coh (s.keyAt pa) = .o (cacheOf p.core)) &&
          (!s.wayOpen (dieOf p.core) p.die p.rkey p.loc || !s.partiesOpen (cacheOf p.core) pa p.req p.die p.rkey)
      | none => !s.wayOpen (dieOf p.core) p.die p.rkey p.loc)

/-- LNKSTAT.held of each link: what waits at its edge stages (17 R441; one flit for each message, log 50). -/
def State.countHeld (s : State) : State :=
  { s with links := Vector.ofFn fun (i : Fin 114) =>
      let n := (s.homes.posted.filter fun p => decide (s.heldAt (dieOf p.core) p.die p.rkey = some i.val)).length
      { s.links[i] with held := n } }

/-- The stores on their way go on in order as far as they can, and companion accesses are offered again (17 R442, R443; 03 R107). -/
def State.letIn (s : State) : State :=
  if s.homes.posted.isEmpty then s.unpark
  else
    (s.homes.posted.foldl (fun (s : State) p =>
      if s.postedWaits p then s.setHomes fun h => { h with posted := h.posted ++ [p] } else s.perform p)
      (s.setHomes fun h => { h with posted := [] })).countHeld.unpark

/-- The rank of another package at which a place lies. -/
def rankAt (l : Loc) : Option Nat :=
  match l with
  | .mem k => if 2 ^ 62 ≤ k ∧ k < 2 ^ 63 then some ((k - 2 ^ 62) / 2 ^ 44) else none
  | .tile _ _ => none

/-- The strands that have messages on the way to the package of a place, one for each message (17 R447). -/
def State.messagesTo (s : State) (l : Loc) : List Nat :=
  match rankAt l with
  | none => []
  | some r => s.strands.flatMap fun o => (o.q6.filter fun m => m.1.getLsbD 15 && decide (fld m.1.toNat 16 16 = r)).map fun _ => o.key

/-- The store of an element as it leaves the strand. -/
def State.postOf (s : State) (rq : Rq) (e : El) (bs : List (Option Byte)) : Posted :=
  let r := (s.routeOf e).getD (dieOf s.me.core, 0)
  { key := s.me.key, round := s.me.round, core := s.me.core, rq := e.type rq, slice := s.countSlice e, loc := e.loc, pa := cohPa e,
    die := r.1, rkey := r.2, bs := bs, upd := none, after := s.messagesTo e.loc }

/-- Send one store element: it is counted, or waits for an acknowledgement of its own; it is performed at once where its way is open,
else it waits on it (03 R108, 17 R443). -/
def State.storeEl (s : State) (rq : Rq) (e : El) (bs : List (Option Byte)) : State :=
  let p := s.postOf rq e bs
  let s1 := match p.slice with
    | some i => (s.noteUse e).sendCounted p.key i p.rkey
    | none => if offPackage e.loc then (s.noteUse e).setMe fun o => { o with acks := o.acks + 1 } else s.noteUse e
  if s.postedWaits p then (s1.setHomes fun h => { h with posted := h.posted ++ [p] }).countHeld else s1.perform p

/-- Send an update: performed at once where its way is open or its cluster needs none, else it waits on its way (07 R222). -/
def State.sendUpdate (s : State) (e : El) (tag : BitVec 4) (pa : Nat) (es : List (Nat × Nat)) (here : Bool) : State :=
  let p := { s.postOf .own e [] with slice := none, upd := some (tag, es) }
  if !es.isEmpty && (if here then s.linePosted e.loc else s.postedWaits p) then
    ((s.noteUse e).setHomes fun h => { h with posted := h.posted ++ [p] }).countHeld
  else (s.noteUse e).updateLine tag (cacheOf s.me.core) pa es

/-- The edge stage at which a store would wait is full: the strand is held back (17 R443). -/
def State.stageFull (s : State) (e : El) : Bool :=
  if s.ownsEl e then false
  else match s.routeOf e with
  | some (d, k) =>
    match s.heldAt (dieOf s.me.core) d k with
    | some l => decide (Config.edgeStageRoom ≤ (s.link l).held)
    | none => false
  | none => false

/-- A store has to wait before it leaves the strand: at a full edge stage, or for the way to another core's local memory, an access that
parks until it is complete (02 R52, 17 R443). -/
def State.storeHeld (s : State) (e : El) : Bool :=
  match e.rg with
  | .bank _ _ => s.away e
  | _ => s.stageFull e

/-- What the checks of a deferrable store find (07 R198). -/
inductive SPlan where
  | ok (l : List El)
  | bad (r : Raise)
  | defer (r : Raise)
  | wait (ver : Option Nat)
  deriving Repr

/-- Check a deferrable store: a failure outside step 6 wins, else the first step-6 failure defers it whole. -/
def splan (s : State) (o : Strand) (size : Nat) : List (Nat × Word × List (Option Byte)) → SPlan
  | [] => .ok []
  | (lane, va, _) :: t =>
    let rest := splan s o size t
    match check s o Acc.store size lane va with
    | .bad r => .bad r
    | .defer r =>
      match rest with
      | .bad r' => .bad r'
      | _ => .defer r
    | .wait v =>
      match rest with
      | .bad r' => .bad r'
      | .defer r' => .defer r'
      | _ => .wait v
    | .ok l rg pa =>
      match rest with
      | .ok es => .ok ({ lane := lane, va := va, loc := l, rg := rg, pa := pa } :: es)
      | x => x

/-- The 64 KiB pages of plain addresses among the elements (07 R198). -/
def storePages : List (Nat × Word × List (Option Byte)) → List Nat
  | [] => []
  | (_, va, _) :: t =>
    match regionOf va with
    | .inr .plain => insertCl (va.toNat / 65536) (storePages t)
    | _ => storePages t

/-- Queue a deferred store; the first one calls an umpire at that moment and advances the serial (03 R114, 11 R332). A table line with an
uncorrectable error that its walk met is blocked, and PTE_UE posted (16 R421). -/
def deferStore (o : Strand) (s : State) (rq : Rq) (r : Raise) (sts : List (Nat × Word × List (Option Byte))) : SylOut :=
  if 8 ≤ o.replay.length then frz s Cause.replayFull
  else
    let e : ReplayEntry :=
      { asyl := (bundleAt s o).truncate 32, addr := r.addr, pages := storePages sts, rq := rq,
        stores := sts.map fun x => (x.2.1.toNat, x.2.2) }
    let s1 := (s.hashStore (sts.map (·.2))).setMe fun x =>
      { x with replay := x.replay ++ [e], attached := true, serial := if x.attached then x.serial else x.serial + 1,
               frz := if x.attached then x.frz else { Freeze.zero with cause := r.cause, addr := r.addr } }
    let s2 := match r.ueLine with
      | some (line, level) => s1.blockLine line level o.ctx
      | none => s1
    .ok (if o.attached then s2 else s2.later (.umpireSpawn o.key)) .next

/-- Store elements of one access size: perform, or defer whole (07 R198, 03 R114). A store to a word that another strand has read under a
reservation parks until the word has been written or given up (03 R101; log 50). -/
def storeEls (o : Strand) (s : State) (rq : Rq) (size : Nat) (sts : List (Nat × Word × List (Option Byte))) : SylOut :=
  match splan s o size sts with
  | .bad r => .freeze s r none
  | .defer r => deferStore o s rq r sts
  | .wait v => parkFor s v
  | .ok es =>
    if (storePages sts).any fun p => o.replay.any fun e => e.pages.contains p then
      deferStore o s rq (Raise.at' Cause.replayPage 0 ((sts.head?.map fun x => x.2.1).getD 0)) sts
    else if (es.any s.storeHeld) || (es.zip sts).any fun x => s.reservedBytes o.key x.1.loc x.2.2.2 then .park s .poll
    else withRoom o s (es.filterMap s.countSlice) fun s =>
      .ok ((es.zip sts).foldl (fun s x => s.storeEl rq x.1 x.2.2.2) (s.hashStore (sts.map (·.2)))) .next

end Sys2Proof.Machine
end

