-- ==== Sys2Proof/Machine/Scalar.lean ====
section
/-! DEFINITION. The scalar slot: integer arithmetic, constants, bit fields, branches, windowed calls and repeat clauses
(06 R174-R193). -/

namespace Sys2Proof.Machine

open Sys2Proof

/-! ## Shared operations -/

/-- A result of two g sources. -/
def rr (d a b : R5) (f : Word → Word → Word) : Syl := fun o s => retG s d (f (o.g a) (o.g b))

/-- A result of one g source. -/
def r1 (d a : R5) (f : Word → Word) : Syl := fun o s => retG s d (f (o.g a))

/-- 1 or 0. -/
def flagW (b : Bool) : Word := if b then 1 else 0

/-- Clamp an exact result to int64 and count it (06 R178). -/
def satResult (d : R5) (x : Int) : Syl := fun _ s =>
  let c := clampInt' x
  .ok ((s.wg d (BitVec.ofInt 64 c)).tally (if c = x then Evs.zero else Evs.clamp)) .next
where
  clampInt' (x : Int) : Int :=
    if x < -((2 ^ 63 : Nat) : Int) then -((2 ^ 63 : Nat) : Int)
    else if ((2 ^ 63 : Nat) : Int) - 1 < x then ((2 ^ 63 : Nat) : Int) - 1 else x

/-- A result with a division by zero counted (06 R179). -/
def divResult (d a b : R5) (zero : Word → Word) (f : Word → Word → Word) : Syl := fun o s =>
  if o.g b = 0 then .ok ((s.wg d (zero (o.g a))).tally Evs.divZero) .next else retG s d (f (o.g a) (o.g b))

/-- Number of leading zero bits (06 R184). -/
def clzNat (x : Nat) : Nat := if x = 0 then 64 else 63 - Nat.log2 x

/-- Number of trailing zero bits of the n bits from bit i on. -/
def ctzFrom (x : Nat) : Nat → Nat → Nat
  | 0, _ => 0
  | n + 1, i => if bit x i then 0 else 1 + ctzFrom x n (i + 1)

/-- Number of one bits among the low n. -/
def popcNat (x : Nat) : Nat → Nat
  | 0 => 0
  | n + 1 => (if bit x n then 1 else 0) + popcNat x n

/-- Bits reversed. -/
def brevWord (x : Word) : Word := packMask ((List.range 64).map fun i => x.getLsbD (63 - i))

/-- Bytes reversed. -/
def bswapWord (x : Word) : Word := leWord (natLE 8 x.toNat).reverse

/-- A field of x (06 R185). -/
def fieldOf (x : Word) (pos len : Nat) : Nat := fld x.toNat pos len

/-- Insert a field (06 R185). -/
def insertField (old x : Word) (pos len : Nat) : Word :=
  let o := old.toNat
  BitVec.ofNat 64 (o % 2 ^ pos + fld x.toNat 0 len * 2 ^ pos + o / 2 ^ (pos + len) * 2 ^ (pos + len))

/-- Is a clause armed and not suspended (01 R37). -/
def Strand.inClause (o : Strand) : Bool := o.armed && !o.susp

/-- A conditional branch (06 R186). The leader alone decides a gang's direction (01 R42): a follower runs the bundle with
the leader's decision in `gangCtl`. -/
def branch (a b : R5) (off : Imm 15) (c : Word → Word → Bool) : Syl := fun o s =>
  if c (o.g a) (o.g b) then
    if o.inClause then frz s Cause.clauseControl else .ok s (.jump (o.pc + immScaled 8 off))
  else .ok s .next

/-! ## Register arithmetic and logic (06 R177-R179) -/

/-- ADD (06 R177, R178). -/
def sylAdd (d a b : R5) (sat : Bool) : Syl :=
  if sat then fun o s => satResult d ((o.g a).toInt + (o.g b).toInt) o s else rr d a b (· + ·)

/-- SUB (06 R177, R178). -/
def sylSub (d a b : R5) (sat : Bool) : Syl :=
  if sat then fun o s => satResult d ((o.g a).toInt - (o.g b).toInt) o s else rr d a b (· - ·)

/-- MUL (06 R177, R178). -/
def sylMul (d a b : R5) (sat : Bool) : Syl :=
  if sat then fun o s => satResult d ((o.g a).toInt * (o.g b).toInt) o s else rr d a b (· * ·)

/-- MULH: the upper half of the signed product (06 R177). -/
def sylMulh (d a b : R5) : Syl := rr d a b fun x y => BitVec.ofInt 64 (x.toInt * y.toInt / ((2 ^ 64 : Nat) : Int))

/-- MULHU: the upper half of the unsigned product (06 R177). -/
def sylMulhu (d a b : R5) : Syl := rr d a b fun x y => BitVec.ofNat 64 (x.toNat * y.toNat / 2 ^ 64)

/-- DIV (06 R179). -/
def sylDiv (d a b : R5) : Syl :=
  divResult d a b (fun _ => BitVec.allOnes 64) fun x y => BitVec.ofInt 64 (Int.tdiv x.toInt y.toInt)

/-- DIVU (06 R179). -/
def sylDivu (d a b : R5) : Syl :=
  divResult d a b (fun _ => BitVec.allOnes 64) fun x y => BitVec.ofNat 64 (x.toNat / y.toNat)

/-- REM (06 R179). -/
def sylRem (d a b : R5) : Syl := divResult d a b (fun x => x) fun x y => BitVec.ofInt 64 (Int.tmod x.toInt y.toInt)

/-- REMU (06 R179). -/
def sylRemu (d a b : R5) : Syl := divResult d a b (fun x => x) fun x y => BitVec.ofNat 64 (x.toNat % y.toNat)

/-- AND (06 R177). -/
def sylAnd (d a b : R5) : Syl := rr d a b (· &&& ·)

/-- OR (06 R177). -/
def sylOr (d a b : R5) : Syl := rr d a b (· ||| ·)

/-- XOR (06 R177). -/
def sylXor (d a b : R5) : Syl := rr d a b (· ^^^ ·)

/-- ANDN (06 R177). -/
def sylAndn (d a b : R5) : Syl := rr d a b fun x y => x &&& ~~~y

/-- ORN (06 R177). -/
def sylOrn (d a b : R5) : Syl := rr d a b fun x y => x ||| ~~~y

/-- The shift amount of a register (06 R177). -/
def amt (y : Word) : Nat := y.toNat % 64

/-- SLL (06 R177). -/
def sylSll (d a b : R5) : Syl := rr d a b fun x y => x <<< amt y

/-- SRL (06 R177). -/
def sylSrl (d a b : R5) : Syl := rr d a b fun x y => x >>> amt y

/-- SRA (06 R177). -/
def sylSra (d a b : R5) : Syl := rr d a b fun x y => x.sshiftRight (amt y)

/-- ROL (06 R177). -/
def sylRol (d a b : R5) : Syl := rr d a b fun x y => x.rotateLeft (amt y)

/-- ROR (06 R177). -/
def sylRor (d a b : R5) : Syl := rr d a b fun x y => x.rotateRight (amt y)

/-- MIN (06 R177). -/
def sylMin (d a b : R5) : Syl := rr d a b fun x y => if x.toInt < y.toInt then x else y

/-- MAX (06 R177). -/
def sylMax (d a b : R5) : Syl := rr d a b fun x y => if x.toInt < y.toInt then y else x

/-- MINU (06 R177). -/
def sylMinu (d a b : R5) : Syl := rr d a b fun x y => if x.toNat < y.toNat then x else y

/-- MAXU (06 R177). -/
def sylMaxu (d a b : R5) : Syl := rr d a b fun x y => if x.toNat < y.toNat then y else x

/-- SLT (06 R177). -/
def sylSlt (d a b : R5) : Syl := rr d a b fun x y => flagW (decide (x.toInt < y.toInt))

/-- SLTU (06 R177). -/
def sylSltu (d a b : R5) : Syl := rr d a b fun x y => flagW (decide (x.toNat < y.toNat))

/-- SEQ (06 R177). -/
def sylSeq (d a b : R5) : Syl := rr d a b fun x y => flagW (decide (x = y))

/-- SNE (06 R177). -/
def sylSne (d a b : R5) : Syl := rr d a b fun x y => flagW (!decide (x = y))

/-! ## Bit operations, select and scaled add (06 R184) -/

/-- CLZ (06 R184). -/
def sylClz (d a : R5) : Syl := r1 d a fun x => BitVec.ofNat 64 (clzNat x.toNat)

/-- CTZ (06 R184). -/
def sylCtz (d a : R5) : Syl := r1 d a fun x => BitVec.ofNat 64 (ctzFrom x.toNat 64 0)

/-- POPC (06 R184). -/
def sylPopc (d a : R5) : Syl := r1 d a fun x => BitVec.ofNat 64 (popcNat x.toNat 64)

/-- BREV (06 R184). -/
def sylBrev (d a : R5) : Syl := r1 d a brevWord

/-- BSWAP (06 R184). -/
def sylBswap (d a : R5) : Syl := r1 d a bswapWord

/-- SEL: its condition is its own destination (06 R184). -/
def sylSel (d a b : R5) : Syl := fun o s => retG s d (if o.g d = 0 then o.g b else o.g a)

/-- ADDS (06 R184). -/
def sylAdds (d a b : R5) (sh : BitVec 2) : Syl := rr d a b fun x y => x + (y <<< sh.toNat)

/-! ## Immediate forms (06 R180, R181) -/

/-- ADDI (06 R180). -/
def sylAddi (d a : R5) (imm : Imm 15) : Syl := r1 d a fun x => x + immVal imm

/-- ANDI (06 R180). -/
def sylAndi (d a : R5) (imm : Imm 15) : Syl := r1 d a fun x => x &&& immVal imm

/-- ORI (06 R180). -/
def sylOri (d a : R5) (imm : Imm 15) : Syl := r1 d a fun x => x ||| immVal imm

/-- XORI (06 R180). -/
def sylXori (d a : R5) (imm : Imm 15) : Syl := r1 d a fun x => x ^^^ immVal imm

/-- SLLI (06 R181). -/
def sylSlli (d a : R5) (sh : BitVec 6) : Syl := r1 d a fun x => x <<< sh.toNat

/-- SRLI (06 R181). -/
def sylSrli (d a : R5) (sh : BitVec 6) : Syl := r1 d a fun x => x >>> sh.toNat

/-- SRAI (06 R181). -/
def sylSrai (d a : R5) (sh : BitVec 6) : Syl := r1 d a fun x => x.sshiftRight sh.toNat

/-- SLTI (06 R180). -/
def sylSlti (d a : R5) (imm : Imm 15) : Syl := r1 d a fun x => flagW (decide (x.toInt < (immVal imm).toInt))

/-- SLTUI (06 R180). -/
def sylSltui (d a : R5) (imm : Imm 15) : Syl := r1 d a fun x => flagW (decide (x.toNat < (immVal imm).toNat))

/-! ## Constants, addresses and bit fields (06 R182, R183, R185) -/

/-- LUI (06 R182). -/
def sylLui (d : R5) (imm : BitVec 15) : Syl := fun _ s => retG s d (sextNat imm.toNat 15 <<< 15)

/-- LIT (06 R182). -/
def sylLit (d : R5) (x : BitVec 32) : Syl := fun _ s => retG s d (sextNat x.toNat 32)

/-- LITH reads its own destination (06 R182). -/
def sylLith (d : R5) (x : BitVec 32) : Syl := fun o s =>
  retG s d (BitVec.ofNat 64 (x.toNat * 2 ^ 32 + (o.g d).toNat % 2 ^ 32))

/-- ADDPC (06 R183). -/
def sylAddpc (d : R5) (imm : Imm 15) : Syl := fun o s => retG s d (o.pc + immVal imm)

/-- EXTR (06 R185). -/
def sylExtr (d a : R5) (lenm1 pos : BitVec 6) : Syl :=
  r1 d a fun x => sextNat (fieldOf x pos.toNat (lenm1.toNat + 1)) (lenm1.toNat + 1)

/-- EXTRU (06 R185). -/
def sylExtru (d a : R5) (lenm1 pos : BitVec 6) : Syl :=
  r1 d a fun x => BitVec.ofNat 64 (fieldOf x pos.toNat (lenm1.toNat + 1))

/-- INSR reads its own destination (06 R185). -/
def sylInsr (d a : R5) (lenm1 pos : BitVec 6) : Syl := fun o s =>
  retG s d (insertField (o.g d) (o.g a) pos.toNat (lenm1.toNat + 1))

/-! ## Branches and jumps (06 R186, R187) -/

/-- BEQ (06 R186). -/
def sylBeq (a b : R5) (off : Imm 15) : Syl := branch a b off fun x y => decide (x = y)

/-- BNE (06 R186). -/
def sylBne (a b : R5) (off : Imm 15) : Syl := branch a b off fun x y => !decide (x = y)

/-- BLT (06 R186). -/
def sylBlt (a b : R5) (off : Imm 15) : Syl := branch a b off fun x y => decide (x.toInt < y.toInt)

/-- BGE (06 R186). -/
def sylBge (a b : R5) (off : Imm 15) : Syl := branch a b off fun x y => decide (y.toInt ≤ x.toInt)

/-- BLTU (06 R186). -/
def sylBltu (a b : R5) (off : Imm 15) : Syl := branch a b off fun x y => decide (x.toNat < y.toNat)

/-- BGEU (06 R186). -/
def sylBgeu (a b : R5) (off : Imm 15) : Syl := branch a b off fun x y => decide (y.toNat ≤ x.toNat)

/-- J (06 R187). -/
def sylJ (off : Imm 25) : Syl := fun o s =>
  if o.inClause then frz s Cause.clauseControl else .ok s (.jump (o.pc + immScaled 8 off))

/-- JL (06 R187). -/
def sylJl (d : R5) (off : Imm 12) : Syl := fun o s =>
  if o.inClause then frz s Cause.clauseControl else .ok (s.wg d (o.pc + 8)) (.jump (o.pc + immScaled 8 off))

/-- JLR: the target is formed before g[d] is written (06 R187). -/
def sylJlr (d a : R5) (off : Imm 12) : Syl := fun o s =>
  let t := o.g a + immScaled 8 off
  if o.inClause then frz s Cause.clauseControl
  else if t.toNat % 8 ≠ 0 then frz s Cause.pcMisaligned
  else .ok (s.wg d (o.pc + 8)) (.jump t)

/-! ## Windowed calls and repeat clauses (06 R189, R190, R192) -/

/-- A spill of the oldest group is allowed by WLIM (01 R23). -/
def spillFits (o : Strand) : Bool := decide (o.wsp.toNat + 64 ≤ o.wlim.toNat)

/-- WCALL (06 R189): parks while six groups are resident, or freezes when no spill can make room. -/
def sylWcall (off : Imm 25) : Syl := fun o s =>
  let t := if immVal off = 0 then o.g 31 else o.pc + immScaled 8 off
  if o.inClause then frz s Cause.clauseControl
  else if t.toNat % 8 ≠ 0 then frz s Cause.pcMisaligned
  else if o.res = 6 then (if spillFits o then .park s .poll else frz s Cause.windowLimit)
  else .ok s (.wcall t)

/-- WRET (06 R190). -/
def sylWret : Syl := fun o s =>
  let t := o.g 23
  if o.inClause then frz s Cause.clauseControl
  else if o.res = 2 ∧ o.spilled = 0 then frz s Cause.windowUnderflow
  else if t.toNat % 8 ≠ 0 then frz s Cause.pcMisaligned
  else if o.res = 2 then .park s .poll
  else .ok s (.wret t)

/-- REP with a register count (06 R192). -/
def sylRepRegister (a : R5) (lenm1 : BitVec 6) : Syl := fun o s =>
  if o.armed then frz s Cause.clauseNested else .ok s (.rep (o.g a) (lenm1.toNat + 1))

/-- REP with an immediate count (06 R192). -/
def sylRepImmediate (count : Imm 10) (lenm1 : BitVec 6) : Syl := fun o s =>
  if o.armed then frz s Cause.clauseNested else .ok s (.rep (immZext count) (lenm1.toNat + 1))

/-- ANOP (06 R193). -/
def sylAnop : Syl := fun _ s => .ok s .next

/-! ## The bundles that hold one of these syllables alone (05 R142) -/

/-- ADD beside an idle syllable (R177). -/
def execAdd (d a b : R5) (sat : Bool) (s : State) : Out := issueA (sylAdd d a b sat) s

/-- SUB beside an idle syllable (R177). -/
def execSub (d a b : R5) (sat : Bool) (s : State) : Out := issueA (sylSub d a b sat) s

/-- MUL beside an idle syllable (R177). -/
def execMul (d a b : R5) (sat : Bool) (s : State) : Out := issueA (sylMul d a b sat) s

/-- MULH beside an idle syllable (R177). -/
def execMulh (d a b : R5) (s : State) : Out := issueA (sylMulh d a b) s

/-- MULHU beside an idle syllable (R177). -/
def execMulhu (d a b : R5) (s : State) : Out := issueA (sylMulhu d a b) s

/-- DIV beside an idle syllable (R179). -/
def execDiv (d a b : R5) (s : State) : Out := issueA (sylDiv d a b) s

/-- DIVU beside an idle syllable (R179). -/
def execDivu (d a b : R5) (s : State) : Out := issueA (sylDivu d a b) s

/-- REM beside an idle syllable (R179). -/
def execRem (d a b : R5) (s : State) : Out := issueA (sylRem d a b) s

/-- REMU beside an idle syllable (R179). -/
def execRemu (d a b : R5) (s : State) : Out := issueA (sylRemu d a b) s

/-- AND beside an idle syllable (R177). -/
def execAnd (d a b : R5) (s : State) : Out := issueA (sylAnd d a b) s

/-- OR beside an idle syllable (R177). -/
def execOr (d a b : R5) (s : State) : Out := issueA (sylOr d a b) s

/-- XOR beside an idle syllable (R177). -/
def execXor (d a b : R5) (s : State) : Out := issueA (sylXor d a b) s

/-- ANDN beside an idle syllable (R177). -/
def execAndn (d a b : R5) (s : State) : Out := issueA (sylAndn d a b) s

/-- ORN beside an idle syllable (R177). -/
def execOrn (d a b : R5) (s : State) : Out := issueA (sylOrn d a b) s

/-- SLL beside an idle syllable (R177). -/
def execSll (d a b : R5) (s : State) : Out := issueA (sylSll d a b) s

/-- SRL beside an idle syllable (R177). -/
def execSrl (d a b : R5) (s : State) : Out := issueA (sylSrl d a b) s

/-- SRA beside an idle syllable (R177). -/
def execSra (d a b : R5) (s : State) : Out := issueA (sylSra d a b) s

/-- ROL beside an idle syllable (R177). -/
def execRol (d a b : R5) (s : State) : Out := issueA (sylRol d a b) s

/-- ROR beside an idle syllable (R177). -/
def execRor (d a b : R5) (s : State) : Out := issueA (sylRor d a b) s

/-- MIN beside an idle syllable (R177). -/
def execMin (d a b : R5) (s : State) : Out := issueA (sylMin d a b) s

/-- MAX beside an idle syllable (R177). -/
def execMax (d a b : R5) (s : State) : Out := issueA (sylMax d a b) s

/-- MINU beside an idle syllable (R177). -/
def execMinu (d a b : R5) (s : State) : Out := issueA (sylMinu d a b) s

/-- MAXU beside an idle syllable (R177). -/
def execMaxu (d a b : R5) (s : State) : Out := issueA (sylMaxu d a b) s

/-- SLT beside an idle syllable (R177). -/
def execSlt (d a b : R5) (s : State) : Out := issueA (sylSlt d a b) s

/-- SLTU beside an idle syllable (R177). -/
def execSltu (d a b : R5) (s : State) : Out := issueA (sylSltu d a b) s

/-- SEQ beside an idle syllable (R177). -/
def execSeq (d a b : R5) (s : State) : Out := issueA (sylSeq d a b) s

/-- SNE beside an idle syllable (R177). -/
def execSne (d a b : R5) (s : State) : Out := issueA (sylSne d a b) s

/-- CLZ beside an idle syllable (R184). -/
def execClz (d a : R5) (s : State) : Out := issueA (sylClz d a) s

/-- CTZ beside an idle syllable (R184). -/
def execCtz (d a : R5) (s : State) : Out := issueA (sylCtz d a) s

/-- POPC beside an idle syllable (R184). -/
def execPopc (d a : R5) (s : State) : Out := issueA (sylPopc d a) s

/-- BREV beside an idle syllable (R184). -/
def execBrev (d a : R5) (s : State) : Out := issueA (sylBrev d a) s

/-- BSWAP beside an idle syllable (R184). -/
def execBswap (d a : R5) (s : State) : Out := issueA (sylBswap d a) s

/-- SEL beside an idle syllable (R184). -/
def execSel (d a b : R5) (s : State) : Out := issueA (sylSel d a b) s

/-- ADDS beside an idle syllable (R184). -/
def execAdds (d a b : R5) (sh : BitVec 2) (s : State) : Out := issueA (sylAdds d a b sh) s

/-- ADDI beside an idle syllable (R180). -/
def execAddi (d a : R5) (imm : Imm 15) (s : State) : Out := issueA (sylAddi d a imm) s

/-- ANDI beside an idle syllable (R180). -/
def execAndi (d a : R5) (imm : Imm 15) (s : State) : Out := issueA (sylAndi d a imm) s

/-- ORI beside an idle syllable (R180). -/
def execOri (d a : R5) (imm : Imm 15) (s : State) : Out := issueA (sylOri d a imm) s

/-- XORI beside an idle syllable (R180). -/
def execXori (d a : R5) (imm : Imm 15) (s : State) : Out := issueA (sylXori d a imm) s

/-- SLLI beside an idle syllable (R181). -/
def execSlli (d a : R5) (sh : BitVec 6) (s : State) : Out := issueA (sylSlli d a sh) s

/-- SRLI beside an idle syllable (R181). -/
def execSrli (d a : R5) (sh : BitVec 6) (s : State) : Out := issueA (sylSrli d a sh) s

/-- SRAI beside an idle syllable (R181). -/
def execSrai (d a : R5) (sh : BitVec 6) (s : State) : Out := issueA (sylSrai d a sh) s

/-- SLTI beside an idle syllable (R180). -/
def execSlti (d a : R5) (imm : Imm 15) (s : State) : Out := issueA (sylSlti d a imm) s

/-- SLTUI beside an idle syllable (R180). -/
def execSltui (d a : R5) (imm : Imm 15) (s : State) : Out := issueA (sylSltui d a imm) s

/-- LUI beside an idle syllable (R182). -/
def execLui (d : R5) (imm : BitVec 15) (s : State) : Out := issueA (sylLui d imm) s

/-- LIT beside an idle syllable (R182). -/
def execLit (d : R5) (x : BitVec 32) (s : State) : Out := issueA (sylLit d x) s

/-- LITH beside an idle syllable (R182). -/
def execLith (d : R5) (x : BitVec 32) (s : State) : Out := issueA (sylLith d x) s

/-- ADDPC beside an idle syllable (R183). -/
def execAddpc (d : R5) (imm : Imm 15) (s : State) : Out := issueA (sylAddpc d imm) s

/-- EXTR beside an idle syllable (R185). -/
def execExtr (d a : R5) (lenm1 pos : BitVec 6) (s : State) : Out := issueA (sylExtr d a lenm1 pos) s

/-- EXTRU beside an idle syllable (R185). -/
def execExtru (d a : R5) (lenm1 pos : BitVec 6) (s : State) : Out := issueA (sylExtru d a lenm1 pos) s

/-- INSR beside an idle syllable (R185). -/
def execInsr (d a : R5) (lenm1 pos : BitVec 6) (s : State) : Out := issueA (sylInsr d a lenm1 pos) s

/-- BEQ beside an idle syllable (R186). -/
def execBeq (a b : R5) (off : Imm 15) (s : State) : Out := issueA (sylBeq a b off) s

/-- BNE beside an idle syllable (R186). -/
def execBne (a b : R5) (off : Imm 15) (s : State) : Out := issueA (sylBne a b off) s

/-- BLT beside an idle syllable (R186). -/
def execBlt (a b : R5) (off : Imm 15) (s : State) : Out := issueA (sylBlt a b off) s

/-- BGE beside an idle syllable (R186). -/
def execBge (a b : R5) (off : Imm 15) (s : State) : Out := issueA (sylBge a b off) s

/-- BLTU beside an idle syllable (R186). -/
def execBltu (a b : R5) (off : Imm 15) (s : State) : Out := issueA (sylBltu a b off) s

/-- BGEU beside an idle syllable (R186). -/
def execBgeu (a b : R5) (off : Imm 15) (s : State) : Out := issueA (sylBgeu a b off) s

/-- J beside an idle syllable (R187). -/
def execJ (off : Imm 25) (s : State) : Out := issueA (sylJ off) s

/-- WCALL beside an idle syllable (R189). -/
def execWcall (off : Imm 25) (s : State) : Out := issueA (sylWcall off) s

/-- ANOP beside an idle syllable (R193). -/
def execAnop (s : State) : Out := issueA sylAnop s

/-- JL beside an idle syllable (R187). -/
def execJl (d : R5) (off : Imm 12) (s : State) : Out := issueA (sylJl d off) s

/-- JLR beside an idle syllable (R187). -/
def execJlr (d a : R5) (off : Imm 12) (s : State) : Out := issueA (sylJlr d a off) s

/-- WRET beside an idle syllable (R190). -/
def execWret (s : State) : Out := issueA sylWret s

/-- REP_REGISTER beside an idle syllable (R192). -/
def execRepRegister (a : R5) (lenm1 : BitVec 6) (s : State) : Out := issueA (sylRepRegister a lenm1) s

/-- REP_IMMEDIATE beside an idle syllable (R192). -/
def execRepImmediate (count : Imm 10) (lenm1 : BitVec 6) (s : State) : Out := issueA (sylRepImmediate count lenm1) s

end Sys2Proof.Machine
end

