-- ==== Sys2Proof/Machine/Memory.lean ====
section
/-! DEFINITION. The memory slot: scalar and vector loads and stores, prefetch, flush, exchange and cox bursts
(07 R201-R209, R228, R229). -/

namespace Sys2Proof.Machine

open Sys2Proof

/-! ## Scalar loads and stores (07 R201) -/

/-- The address of base and offset: the field scales by the size, a literal counts bytes (07 R201). -/
def memAddr {n : Nat} (o : Strand) (base : R5) (size : Nat) (off : Imm n) : Word :=
  match off with
  | .fld _ => o.g base + immScaled size off
  | .lit _ => o.g base + immVal off

/-- A scalar load (07 R201). -/
def ld (size : Nat) (signed : Bool) (d base : R5) (rq : Rq) (off : Imm 13) : Syl := fun o s =>
  loadEls o s rq size [(0, memAddr o base size off)] fun l s1 =>
    let x := (l.head?.map (·.2)).getD 0
    retG s1 d (if signed then sextNat x (8 * size) else BitVec.ofNat 64 x)

/-- A scalar store (07 R201). -/
def st (size : Nat) (r base : R5) (rq : Rq) (off : Imm 13) : Syl := fun o s =>
  storeEls o s rq size [(0, memAddr o base size off, (natLE size (o.g r).toNat).map some)]

/-- LDB (07 R201). -/
def sylLdb (d base : R5) (rq : Rq) (off : Imm 13) : Syl := ld 1 true d base rq off

/-- LDBU (07 R201). -/
def sylLdbu (d base : R5) (rq : Rq) (off : Imm 13) : Syl := ld 1 false d base rq off

/-- LDH (07 R201). -/
def sylLdh (d base : R5) (rq : Rq) (off : Imm 13) : Syl := ld 2 true d base rq off

/-- LDHU (07 R201). -/
def sylLdhu (d base : R5) (rq : Rq) (off : Imm 13) : Syl := ld 2 false d base rq off

/-- LDW (07 R201). -/
def sylLdw (d base : R5) (rq : Rq) (off : Imm 13) : Syl := ld 4 true d base rq off

/-- LDWU (07 R201). -/
def sylLdwu (d base : R5) (rq : Rq) (off : Imm 13) : Syl := ld 4 false d base rq off

/-- LDD (07 R201). -/
def sylLdd (d base : R5) (rq : Rq) (off : Imm 13) : Syl := ld 8 false d base rq off

/-- STB (07 R201). -/
def sylStb (r base : R5) (rq : Rq) (off : Imm 13) : Syl := st 1 r base rq off

/-- STH (07 R201). -/
def sylSth (r base : R5) (rq : Rq) (off : Imm 13) : Syl := st 2 r base rq off

/-- STW (07 R201). -/
def sylStw (r base : R5) (rq : Rq) (off : Imm 13) : Syl := st 4 r base rq off

/-- STD (07 R201). -/
def sylStd (r base : R5) (rq : Rq) (off : Imm 13) : Syl := st 8 r base rq off

/-! ## Vector loads and stores (07 R202-R206) -/

/-- Steps 1 to 3 of 07 R197, all that an access with an empty mask makes (07 R202). -/
def earlyCause (size : Nat) (va : Word) : Option Cause :=
  match regionOf va with
  | .inl c => some c
  | .inr _ => if va.toNat % size ≠ 0 then some Cause.misaligned else none

/-- VLD: byte lanes under the mask (07 R202). -/
def sylVld (v base : R5) (rq : Rq) (off : Imm 6) (k : K3) : Syl := fun o s =>
  let a := memAddr o base 64 off
  if o.kr k = 0 then
    match earlyCause 64 a with
    | some c => .freeze s (Raise.at' c 0 a) none
    | none => .ok s .next
  else
    match plan s o Acc.load 64 [(0, a)] with
    | .bad r => .freeze s r none
    | .wait u => parkFor s u
    | .ok es =>
      if es.any fun e => s.loadWaits rq 64 e then .park s .poll
      else
      let bytes := (List.range 64).map fun i => if o.active k i then some (0 : Byte) else none
      let s1 := es.foldl (fun s e => s.loadWords rq (presentMask 0 bytes) e) s
      match es.head? with
      | none => .ok s1 .next
      | some e =>
        match (List.range 64).find? fun i => o.active k i && s1.poisonedAt (e.loc.add i) with
        | some i => .freeze s (ueRaise e i) none
        | none =>
          let bs := s1.readBytes rq 64 e
          retV s1 v (overLanes 8 64 (o.active k) (o.vr v) fun i => ((bs.getD i 0).toNat, Evs.zero))

/-- VST: byte lanes under the mask (07 R202). -/
def sylVst (v base : R5) (rq : Rq) (off : Imm 6) (k : K3) : Syl := fun o s =>
  let a := memAddr o base 64 off
  if o.kr k = 0 then
    match earlyCause 64 a with
    | some c => .freeze s (Raise.at' c 0 a) none
    | none => .ok s .next
  else
    storeEls o s rq 64
      [(0, a, (List.range 64).map fun i => if o.active k i then some (BitVec.ofNat 8 (laneOf 8 (o.vr v) i)) else none)]

/-- Element bytes of the e field (07 R203). -/
def elBytes (e : Bool) : Nat := if e then 8 else 4

/-- The active lanes of a strided or indexed access with their addresses (07 R203, R204). -/
def elAddrs (o : Strand) (e : Bool) (k : K3) (addr : Nat → Word) : List (Nat × Word) :=
  ((List.range (64 / elBytes e)).filter (o.active k)).map fun i => (i, addr i)

/-- Address of lane i at a byte stride (07 R203). -/
def strideAddr (o : Strand) (base t : R5) (i : Nat) : Word := o.g base + BitVec.ofNat 64 i * o.g t

/-- Address of lane i by an index register (07 R204). -/
def indexAddr (o : Strand) (base vi : R5) (e : Bool) (i : Nat) : Word :=
  let z := elBytes e
  o.g base + sextNat (laneOf (8 * z) (o.vr vi) i) (8 * z) * BitVec.ofNat 64 z

/-- Load elements into their lanes. -/
def vldEls (v : R5) (rq : Rq) (k : K3) (e : Bool) (addr : Strand → Nat → Word) : Syl := fun o s =>
  let z := elBytes e
  loadEls o s rq z (elAddrs o e k (addr o)) fun l s1 =>
    retV s1 v (overLanes (8 * z) (64 / z) (o.active k) (o.vr v) fun i =>
      (((l.find? fun p => decide (p.1 = i)).map (·.2)).getD 0, Evs.zero))

/-- Store elements from their lanes, ascending (07 R203). -/
def vstEls (v : R5) (rq : Rq) (k : K3) (e : Bool) (addr : Strand → Nat → Word) : Syl := fun o s =>
  let z := elBytes e
  storeEls o s rq z ((elAddrs o e k (addr o)).map fun p => (p.1, p.2, (natLE z (laneOf (8 * z) (o.vr v) p.1)).map some))

/-- VLDS (07 R203). -/
def sylVlds (v base : R5) (rq : Rq) (t : R5) (k : K3) (e : Bool) : Syl := vldEls v rq k e fun o i => strideAddr o base t i

/-- VSTS (07 R203). -/
def sylVsts (v base : R5) (rq : Rq) (t : R5) (k : K3) (e : Bool) : Syl := vstEls v rq k e fun o i => strideAddr o base t i

/-- VGATH (07 R204). -/
def sylVgath (v base : R5) (rq : Rq) (vi : R5) (k : K3) (e : Bool) : Syl := vldEls v rq k e fun o i => indexAddr o base vi e i

/-- VSCAT (07 R204). -/
def sylVscat (v base : R5) (rq : Rq) (vi : R5) (k : K3) (e : Bool) : Syl := vstEls v rq k e fun o i => indexAddr o base vi e i

/-- VLDB: one element to every lane (07 R205). -/
def sylVldb (v base : R5) (rq : Rq) (ew : Ew) (off : Imm 7) : Syl := fun o s =>
  loadEls o s rq ew.bytes [(0, memAddr o base ew.bytes off)] fun l s1 =>
    retV s1 v (packLanes ew.bits ((List.range ew.lanes).map fun _ => (l.head?.map (·.2)).getD 0), Evs.zero)

/-- Write column registers of a transposed block: rows hold 64 bytes each (07 R206). -/
def writeColumns (s : State) (v : R5) (w n : Nat) (rows : List Nat) : State :=
  (List.range n).foldl (fun s c => s.wv (v + BitVec.ofNat 5 c) (packLanes w (rows.map fun r => fld r (c * w) w))) s

/-- VLDT (07 R206). -/
def sylVldt (v base : R5) (rq : Rq) (e : Bool) : Syl := fun o s =>
  let n := if e then 8 else 16
  let a := o.g base
  match check s o Acc.load (64 * n) 0 a with
  | .bad r => .freeze s r none
  | .defer r => .freeze s r none
  | _ =>
    loadEls o s rq 64 ((List.range n).map fun i => (i, a + BitVec.ofNat 64 (64 * i))) fun l s1 =>
      .ok (writeColumns s1 v (512 / n) n (l.map (·.2))) .next

/-! ## Prefetch, flush and exchange (07 R207-R209) -/

/-- PF: a fill that makes no event, never parks and never freezes (07 R207). -/
def sylPf (base : R5) (rq : Rq) (off : Imm 6) : Syl := fun o s =>
  if rq = .nc then .ok s .next
  else
    match check s o Acc.load 64 0 (memAddr o base 64 off) with
    | .ok l rg pa =>
      let e : El := { lane := 0, va := memAddr o base 64 off, loc := l, rg := rg, pa := pa }
      .ok (if s.loadWaits rq 64 e then s else s.loadWords rq (BitVec.allOnes 16) e) .next
    | .wait (some u) => .ok (s.wantFloat u) .next
    | _ => .ok s .next

/-- A cluster holds a line of its cache, or a partial of it. -/
def State.holdsLine (s : State) (cl pa : Nat) : Bool :=
  (s.homes.lines.any fun l => decide (l.cluster = cl) && decide (l.line = pa / 64)) ||
    s.homes.parts.any fun p => decide (p.cluster = cl) && decide (p.pa / 64 = pa / 64) && !p.parked

/-- A cluster's copy of a line goes, a partial line to the home's partial store (02 R65); the home is told of a shared copy dropped, and
counts the cluster no more once it holds no line of the object. Of a line it does not hold nothing moves (07 R208, 02 R94). -/
def State.flushLine (s : State) (cl pa : Nat) : State :=
  let k := s.keyAt pa
  if !s.holdsLine cl pa then s
  else
  let s1 := s.setHomes fun h =>
    { h with lines := h.lines.filter fun l => !(decide (l.cluster = cl) && decide (l.line = pa / 64))
             parts := h.parts.map fun p => if p.cluster = cl ∧ p.pa / 64 = pa / 64 then { p with parked := true } else p }
  if s1.homes.lines.any fun l => decide (l.cluster = cl) && !l.si && inKey s1 k (l.line * 64) then s1
  else
    match s1.coh k with
    | .s l => s1.setCoh k (if (l.filter fun c => !decide (c = cl)).isEmpty then .i else .s (l.filter fun c => !decide (c = cl)))
    | _ => s1

/-- CFLUSH (07 R208), of plain memory and of tile windows; a racked version parks it (07 R200). -/
def sylCflush (base : R5) (rq : Rq) (off : Imm 6) : Syl := fun o s =>
  let a := memAddr o base 64 off
  match rq, check s o Acc.load 64 0 a with
  | _, .bad r => .freeze s r none
  | _, .defer r => .freeze s r none
  | _, .wait v => parkFor s v
  | _, .ok l rg pa =>
    let e : El := { lane := 0, va := a, loc := l, rg := rg, pa := pa }
    if s.away e || s.linePosted l then .park s .poll
    else
    match cohPa e with
    | some p => .ok (s.flushLine (cacheOf o.core) p) .next
    | none => .ok s .next

/-- The member of the strand's crew at a position, in the same slot. -/
def State.memberAt (s : State) (o : Strand) (col row : Nat) : Option Strand :=
  if o.crew.isNone then none
  else s.strands.find? fun p =>
    decide (p.crew = o.crew) && decide (crewCol p = col) && decide (crewRow p = row) && decide (slotOf p.sid = slotOf o.sid)
      && !decide (p.run = .empty) && decide (p.pairLead || p.pair.isNone)

/-- The core at a crew position of the strand's crew. -/
def State.crewCore (s : State) (o : Strand) (col row : Nat) : Nat :=
  match o.crew.bind s.crew with
  | some c => coreAt c.die (c.oy + row) (c.ox + col)
  | none => o.core

/-- An area of a launch on a core that is in backing memory, if it holds the byte of a key: no strand of the launch is on its core now
(12 R367). -/
def State.areaAway (s : State) (key : Nat) (k : Nat) : Option SavedArea :=
  (s.strand key).bind fun o =>
    s.sched.saved.find? fun a => decide (a.core = o.core) && decide (o.launch = some a.launch) &&
      decide (lkey a.core (1024 * a.base) ≤ k) && decide (k < lkey a.core (1024 * (a.base + a.size)))

/-- Bytes of a strand's local memory, in its area's backing memory where that is where they are (07 R209). -/
def State.strandBytes (s : State) (key k n : Nat) : List Byte :=
  match s.areaAway key k with
  | some a => mgetN a.bytes (k - lkey a.core 0) n
  | none => s.bytes (.mem k) n

/-- Write bytes of a strand's local memory, wherever they are. -/
def State.putStrand (s : State) (key k : Nat) (bs : List Byte) : State :=
  match s.areaAway key k with
  | some a =>
    s.setSched fun d => { d with saved := d.saved.map fun x =>
      if x = a then { x with bytes := msetN x.bytes (k - lkey a.core 0) bs,
                             bad := x.bad.filter fun g => !(decide (k - lkey a.core 0 ≤ 8 * g) && decide (8 * g + 8 ≤ k - lkey a.core 0 + bs.length)) } else x }
  | none => s.put (.mem k) bs

/-- Exchange n bytes of two strands' local memories (07 R209): both are read before either is written. -/
def State.swapBytes (s : State) (ka a kb b n : Nat) : State :=
  let x := s.strandBytes ka a n
  let y := s.strandBytes kb b n
  (s.putStrand ka a y).putStrand kb b x

/-- The exchange of an arrived pair, once no reservation of another strand stands on a word of it (07 R209, 03 R101). -/
def exchange (o : Strand) (s : State) (k cnt : Nat) (p : Strand) (y : Xs) : SylOut :=
  let mine : Xs := { base := k, bytes := cnt, fin := false }
  if s.reservedFrom o.key (.mem k) cnt || s.reservedFrom p.key (.mem y.base) cnt then
    .park (s.setMe fun x => { x with xs := some mine }) .poll
  else
    let s1 := (s.swapBytes o.key k p.key y.base cnt).upd p.key fun x => { x with xs := some { y with fin := true } }
    if o.ganged then .park (s1.setMe fun x => { x with xs := some { mine with fin := true } }) .poll
    else .ok (s1.setMe fun x => { x with xs := none, xsCount := x.xsCount + 1 }) .next

/-- XSWAP (07 R209). A member that has arrived tries the exchange again at its turns until its partner has arrived too. -/
def sylXswap (n base : R5) (_rq : Rq) : Syl := fun o s =>
  let cnt := (o.g n).toNat
  let a := (o.g base).toNat
  let own := 0x00FD000000000000
  if crewW o = 0 ∨ crewW o ≤ crewRow o ∨ crewH o ≤ crewCol o then frz s Cause.xswapCrew
  else if cnt = 0 ∨ 16384 < cnt ∨ cnt % 64 ≠ 0 then frz s Cause.xswapCount
  else if a < own ∨ own + 2 ^ 17 < a + cnt then .freeze s (Raise.at' Cause.localRange 0 (o.g base)) none
  else if a % 64 ≠ 0 then .freeze s (Raise.at' Cause.misaligned 0 (o.g base)) none
  else if crewCol o = crewRow o then .ok s .next
  else
    let k := lkey o.core (a - own)
    if o.xs.any (·.fin) then .ok (s.setMe fun x => { x with xs := none, xsCount := x.xsCount + 1 }) .next
    else
      match s.poisonIn (.mem k) cnt with
      | some i => .freeze s (Raise.at' Cause.ueConsumed 0 (BitVec.ofNat 64 ((a + i) / 8 * 8))) none
      | none =>
        let lost := (o.crew.bind s.crew).any fun c => c.gone.contains (s.crewCore o (crewRow o) (crewCol o) * 8 + slotOf o.sid)
        let wait := SylOut.park (s.setMe fun x => { x with xs := some { base := k, bytes := cnt, fin := false } }) .poll
        if lost then frz s Cause.xswapPartnerLost
        else
          match s.memberAt o (crewRow o) (crewCol o) with
          | none => wait
          | some p =>
            match p.xs with
            | none => wait
            | some y =>
              if y.fin ∨ p.xsCount ≠ o.xsCount then wait
              else if y.bytes ≠ cnt then
                .freeze (((s.setMe fun x => { x with xs := none }).upd p.key fun x => { x with xs := none }).freezeAny p.key
                  (Raise.of Cause.xswapCount)) (Raise.of Cause.xswapCount) none
              else exchange o s k cnt p y

/-! ## Cox bursts (07 R228, R229) -/

/-- The HBM4 side of a cox burst, in the order of 07 R197 (all checks of this side come before those of the local side, an order the spec
does not give: DESIGN CHOICE, log 49): an address that is not plain memory fails at step 5, which the spec gives no
cause: COX_PAGE (log 49). A page that the context does not map, one of a carved frame, and one of another core's channel have that cause
too (02 R93, 07 R229). -/
def coxPage (s : State) (o : Strand) (a : Acc) (va : Word) : El ⊕ Raise ⊕ Option Nat :=
  match regionOf va with
  | .inr .plain =>
    if va.toNat % 2048 ≠ 0 then .inr (.inl (Raise.at' Cause.misaligned 0 va))
    else if s.walkHeld (tlbsOf o.core) (dieOf o.core) o.ctx va.toNat then .inr (.inr none)
    else
      match plainCheck s o a 0 va with
      | .inl r =>
        let unmapped := match translateAt s (tlbsOf o.core) (dieOf o.core) o.ctx va.toNat with
          | .bad c _ => decide (c = Cause.pageNotPresent)
          | .leaf _ => false
        .inr (.inl (if unmapped then { r with cause := Cause.coxPage } else r))
      | .inr (l, p, _) =>
        if replayHolds o va.toNat then .inr (.inl (Raise.at' Cause.replayPage 0 va))
        else if l.kind = .carved then .inr (.inl (Raise.at' Cause.coxPage 0 va))
        else if l.kind ≠ .plain then .inr (.inl (Raise.at' Cause.frameKindMismatch 0 va))
        else if l.pa / 65536 ≤ 7812351 ∧ 2304 + l.pa / 65536 % 256 = o.core then
          if (List.range 32).any fun i => s.heldPa (l.pa + 64 * i) then .inr (.inr none) else .inl { lane := 0, va := va, loc := p, rg := .plain, pa := some l.pa }
        else .inr (.inl (Raise.at' Cause.coxPage 0 va))
  | _ =>
    match check s o { a with noLocal := some Cause.coxPage, noWindow := some Cause.coxPage } 2048 0 va with
    | .bad r => .inr (.inl r)
    | .defer r => .inr (.inl r)
    | .wait v => .inr (.inr v)
    | .ok _ _ _ => .inr (.inl (Raise.at' Cause.coxPage 0 va))

/-- The local side of a cox burst: own local memory or a window of the strand, 64-byte aligned, not passing its end (07 R228,
R229). Plain memory and the global local-memory space fail at step 5, which the spec gives no cause: LOCAL_RANGE (log 49). -/
def coxSide (s : State) (o : Strand) (write : Bool) (va : Word) : El ⊕ Raise ⊕ Option Nat :=
  let a : Acc := if write then Acc.store else Acc.load
  let range := Raise.at' Cause.localRange 0 va
  match regionOf va with
  | .inr .plain => .inr (.inl (if va.toNat % 64 ≠ 0 then Raise.at' Cause.misaligned 0 va else range))
  | _ =>
    match check s o a 64 0 va with
    | .bad r => .inr (.inl r)
    | .defer r => .inr (.inl r)
    | .wait v => .inr (.inr v)
    | .ok l rg pa =>
      let e : El := { lane := 0, va := va, loc := l, rg := rg, pa := pa }
      match rg with
      | .mine off => if 2 ^ 17 < off + 2048 then .inr (.inl range) else .inl e
      | .window w off =>
        match o.win.getD w .unmapped with
        | .ro _ c => if c.size < off + 2048 then .inr (.inl (Raise.at' Cause.tileWindowRange 0 va)) else .inl e
        | .draft _ c => if c.size < off + 2048 then .inr (.inl (Raise.at' Cause.tileWindowRange 0 va)) else .inl e
        | _ => .inl e
      | _ => .inr (.inl range)

/-- Recalls that the lines of a burst need are held back by a module (17 R443). -/
def State.burstHeld (s : State) (h : El) (r : ObjReq) : Bool :=
  (List.range 32).any fun i => s.partiesHeld { h with loc := h.loc.add (64 * i), pa := h.pa.map (· + 64 * i) } r

/-- .nc accesses to every line of 2 KiB (07 R229). -/
def State.ncLines (s : State) (cl pa : Nat) (write : Bool) : State :=
  (List.range 32).foldl (fun s i =>
    if write then s.cohStore cl .nc (pa + 64 * i) (BitVec.allOnes 16) else s.cohLoad cl .nc (pa + 64 * i) (BitVec.allOnes 16)) s

/-- CXRD: HBM4 to local memory or a draft (07 R228, R229). -/
def sylCxrd (a b : R5) : Syl := fun o s =>
  match coxPage s o Acc.load (o.g a) with
  | .inr (.inl r) => .freeze s r none
  | .inr (.inr v) => parkFor s v
  | .inl h =>
    match coxSide s o true (o.g b) with
    | .inr (.inl r) => .freeze s r none
    | .inr (.inr v) => parkFor s v
    | .inl d =>
      if s.away h || s.away d || s.burstHeld h .loadSi || s.linesPosted h.loc 32 || s.linesPosted d.loc 32
          || s.reservedFrom o.key d.loc 2048 then .park s .poll
      else
        let s1 := (s.noteUse h).ncLines (cacheOf o.core) (h.pa.getD 0) false
        match s1.poisonIn h.loc 2048 with
        | some i => .freeze s (Raise.at' Cause.ueConsumed 0 (BitVec.ofNat 64 (((o.g a).toNat + i) / 8 * 8))) none
        | none => .ok (s1.put d.loc (s1.bytes h.loc 2048)) .next

/-- CXWR: local memory or a window to HBM4 (07 R228, R229). -/
def sylCxwr (a b : R5) : Syl := fun o s =>
  match coxPage s o { Acc.store with replay := true } (o.g a) with
  | .inr (.inl r) => .freeze s r none
  | .inr (.inr v) => parkFor s v
  | .inl h =>
    match coxSide s o false (o.g b) with
    | .inr (.inl r) => .freeze s r none
    | .inr (.inr v) => parkFor s v
    | .inl d =>
      match s.poisonIn d.loc 2048 with
      | some i => .freeze s (Raise.at' Cause.ueConsumed 0 (BitVec.ofNat 64 (((o.g b).toNat + i) / 8 * 8))) none
      | none =>
        let pa := h.pa.getD 0
        if s.away h || s.away d || s.burstHeld h .storeNc || s.linesPosted h.loc 32 || s.linesPosted d.loc 32
            || s.reservedFrom o.key h.loc 2048 then .park s .poll
        else
          withRoom o s [s.sliceOf pa] fun s =>
            let s1 := ((s.noteUse h).ncLines (cacheOf o.core) pa true).counted o.key (s.sliceOf pa) (pa / 4096)
            .ok ((s1.useTile d.loc).put h.loc (s.bytes d.loc 2048)) .next

/-! ## The bundles that hold one of these syllables alone (05 R142) -/

/-- LDB beside an idle syllable (R201). -/
def execLdb (d base : R5) (rq : Rq) (off : Imm 13) (s : State) : Out := issueA (sylLdb d base rq off) s

/-- LDBU beside an idle syllable (R201). -/
def execLdbu (d base : R5) (rq : Rq) (off : Imm 13) (s : State) : Out := issueA (sylLdbu d base rq off) s

/-- LDH beside an idle syllable (R201). -/
def execLdh (d base : R5) (rq : Rq) (off : Imm 13) (s : State) : Out := issueA (sylLdh d base rq off) s

/-- LDHU beside an idle syllable (R201). -/
def execLdhu (d base : R5) (rq : Rq) (off : Imm 13) (s : State) : Out := issueA (sylLdhu d base rq off) s

/-- LDW beside an idle syllable (R201). -/
def execLdw (d base : R5) (rq : Rq) (off : Imm 13) (s : State) : Out := issueA (sylLdw d base rq off) s

/-- LDWU beside an idle syllable (R201). -/
def execLdwu (d base : R5) (rq : Rq) (off : Imm 13) (s : State) : Out := issueA (sylLdwu d base rq off) s

/-- LDD beside an idle syllable (R201). -/
def execLdd (d base : R5) (rq : Rq) (off : Imm 13) (s : State) : Out := issueA (sylLdd d base rq off) s

/-- STB beside an idle syllable (R201). -/
def execStb (x base : R5) (rq : Rq) (off : Imm 13) (s : State) : Out := issueA (sylStb x base rq off) s

/-- STH beside an idle syllable (R201). -/
def execSth (x base : R5) (rq : Rq) (off : Imm 13) (s : State) : Out := issueA (sylSth x base rq off) s

/-- STW beside an idle syllable (R201). -/
def execStw (x base : R5) (rq : Rq) (off : Imm 13) (s : State) : Out := issueA (sylStw x base rq off) s

/-- STD beside an idle syllable (R201). -/
def execStd (x base : R5) (rq : Rq) (off : Imm 13) (s : State) : Out := issueA (sylStd x base rq off) s

/-- VLD beside an idle syllable (R202). -/
def execVld (v base : R5) (rq : Rq) (off : Imm 6) (k : K3) (s : State) : Out := issueA (sylVld v base rq off k) s

/-- VST beside an idle syllable (R202). -/
def execVst (v base : R5) (rq : Rq) (off : Imm 6) (k : K3) (s : State) : Out := issueA (sylVst v base rq off k) s

/-- VLDS beside an idle syllable (R203). -/
def execVlds (v base : R5) (rq : Rq) (t : R5) (k : K3) (e : Bool) (s : State) : Out := issueA (sylVlds v base rq t k e) s

/-- VSTS beside an idle syllable (R203). -/
def execVsts (v base : R5) (rq : Rq) (t : R5) (k : K3) (e : Bool) (s : State) : Out := issueA (sylVsts v base rq t k e) s

/-- VGATH beside an idle syllable (R204). -/
def execVgath (v base : R5) (rq : Rq) (vi : R5) (k : K3) (e : Bool) (s : State) : Out := issueA (sylVgath v base rq vi k e) s

/-- VSCAT beside an idle syllable (R204). -/
def execVscat (v base : R5) (rq : Rq) (vi : R5) (k : K3) (e : Bool) (s : State) : Out := issueA (sylVscat v base rq vi k e) s

/-- VLDB beside an idle syllable (R205). -/
def execVldb (v base : R5) (rq : Rq) (ew : Ew) (off : Imm 7) (s : State) : Out := issueA (sylVldb v base rq ew off) s

/-- VLDT beside an idle syllable (R206). -/
def execVldt (v base : R5) (rq : Rq) (e : Bool) (s : State) : Out := issueA (sylVldt v base rq e) s

/-- PF beside an idle syllable (R207). -/
def execPf (base : R5) (rq : Rq) (off : Imm 6) (s : State) : Out := issueA (sylPf base rq off) s

/-- CFLUSH beside an idle syllable (R208). -/
def execCflush (base : R5) (rq : Rq) (off : Imm 6) (s : State) : Out := issueA (sylCflush base rq off) s

/-- XSWAP beside an idle syllable (R209). -/
def execXswap (n base : R5) (rq : Rq) (s : State) : Out := issueA (sylXswap n base rq) s

/-- CXRD beside an idle syllable (R228). -/
def execCxrd (a b : R5) (s : State) : Out := issueA (sylCxrd a b) s

/-- CXWR beside an idle syllable (R228). -/
def execCxwr (a b : R5) (s : State) : Out := issueA (sylCxwr a b) s

end Sys2Proof.Machine
end

