-- ==== Sys2Proof/Machine/Shape.lean ====
section
/-! DEFINITION. Shape records (05 R167, R168): the elements a record addresses, for ODECL and the tile commands. -/

namespace Sys2Proof.Machine

open Sys2Proof

/-- One dimension. -/
structure Dim where
  extent : Nat
  stride : Word
  dflags : Nat
  deriving DecidableEq, Repr

/-- A shape record. -/
structure Shape where
  base : Word
  rank : Nat
  fmt : Nat
  flags : Nat
  reserved : Bool
  dims : List Dim
  deriving DecidableEq, Repr

/-- The rank field of a header. -/
def headRank (h : Nat) : Nat := fld h 64 8

/-- A dimension's 16 bytes. -/
def dimOf (x : Nat) : Dim := { extent := fld x 0 32, stride := BitVec.ofNat 64 (fld x 64 64), dflags := fld x 32 32 }

/-- A record from its header and its dimensions, as 128-bit numbers. -/
def shapeOf (h : Nat) (ds : List Nat) : Shape :=
  { base := BitVec.ofNat 64 (fld h 0 64), rank := headRank h, fmt := fld h 72 4, flags := fld h 80 16,
    reserved := decide (fld h 96 32 ≠ 0) || decide (fld h 76 4 ≠ 0), dims := ds.map dimOf }

/-- Valid by R168 for a consumer that defines the given header flags and no dimension flag. -/
def Shape.valid (sh : Shape) (flags : Nat) : Bool :=
  decide (1 ≤ sh.rank) && decide (sh.rank ≤ 10) && decide (sh.fmt ≠ 15) && !sh.reserved && decide (sh.flags ||| flags = flags) &&
    sh.dims.all fun d => decide (d.extent ≠ 0) && decide (d.dflags = 0)

/-- Bytes of one element; a c4 record describes bytes (05 R167). -/
def Shape.elBytes (sh : Shape) : Nat :=
  match fmtOf sh.fmt with
  | some .c4 => 1
  | some t => Fmt.width t / 8
  | none => 1

/-- Number of elements. -/
def Shape.count (sh : Shape) : Nat := sh.dims.foldl (fun n d => n * d.extent) 1

/-- Address of the element of a linear index, dimension 0 fastest. -/
def elementAt : List Dim → Word → Nat → Word
  | [], a, _ => a
  | d :: t, a, i => elementAt t (a + BitVec.ofNat 64 (i % d.extent) * d.stride) (i / d.extent)

/-- Address of element i. -/
def Shape.addr (sh : Shape) (i : Nat) : Word := elementAt sh.dims sh.base i

/-- Add a granule number to a set; none beyond 65,536 (02 R58). -/
def addGran (g : Nat) (l : Option (List Nat)) : Option (List Nat) :=
  l.bind fun l => if l.contains g then some l else if 65536 ≤ l.length then none else some (l ++ [g])

/-- The 256-byte granules with a byte of w-byte elements at the addresses of the dimensions, from `a` (02 R58). -/
def covers (w : Nat) : List Dim → Word → Option (List Nat) → Option (List Nat)
  | [], a, l => addGran ((a + BitVec.ofNat 64 (w - 1)).toNat / 256) (addGran (a.toNat / 256) l)
  | d :: t, a, l =>
    (List.range (if d.stride = 0 then Nat.min 1 d.extent else d.extent)).foldl
      (fun l i => if l.isNone then l else covers w t (a + BitVec.ofNat 64 i * d.stride) l) l

end Sys2Proof.Machine
end

