-- ==== Sys2Proof/Machine/Homes.lean ====
section
/-! DEFINITION. Shared operations of the homes: capabilities and counter files (11 R321, 07 R227), sequence counters
(02 R91, R92), deliveries and the inbox (11 R333), tile frames (16 R411), names and versions (02 R69-R87). -/

namespace Sys2Proof.Machine

open Sys2Proof

/-! ## Capabilities (11 R321) -/

/-- Bit 127. -/
def capValid (c : BitVec 128) : Bool := c.getLsbD 127
/-- Strand id of a capability. -/
def capSid (c : BitVec 128) : Nat := fld c.toNat 0 15
/-- Context of a capability. -/
def capCtx (c : BitVec 128) : Nat := fld c.toNat 16 16
/-- Serial of a capability. -/
def capSerial (c : BitVec 128) : Nat := fld c.toNat 32 32

/-- A capability with all five rights for a strand (11 R317, R321). -/
def capFor (o : Strand) (gs : Bool) : BitVec 128 :=
  BitVec.ofNat 128 (o.sid + o.ctx * 2 ^ 16 + o.serial.toNat * 2 ^ 32 + (if gs then 2 ^ 121 else 0) + 0x3F * 2 ^ 122)

/-- The strand a capability names: by strand id and context, the one with its serial where there are several. -/
def State.capStrand (s : State) (c : BitVec 128) : Option Strand :=
  let l := s.strands.filter fun o =>
    decide (o.sid = capSid c) && decide (o.ctx = capCtx c) && !decide (o.run = .empty)
  match l.find? fun o => decide (o.serial.toNat = capSerial c) with
  | some o => some o
  | none => l.head?

/-! ## Counter files (07 R227, 02 R91, R92) -/

/-- The counter file of a strand; an umpire's is that of the strand its cap0 names. `n` bounds the nesting of umpires. -/
def State.fileFor (s : State) : Nat → Strand → Option SqFile
  | 0, _ => none
  | n + 1, o =>
    match o.ump with
    | some _ =>
      let c := o.caps.getD 0 0
      if capValid c then (s.capStrand c).bind (s.fileFor n) else none
    | none =>
      if o.level = .firmware then none
      else
        match o.crew with
        | some c => some (.crew c)
        | none => o.launch.map .launch

/-- The counter file of a strand (07 R227). -/
def State.fileOf (s : State) (o : Strand) : Option SqFile := s.fileFor 4 o

/-- The slice that holds a counter file: that of the crew's or the launch's home cluster (12 R354). -/
def State.fileSlice (s : State) (f : SqFile) : Nat :=
  match f with
  | .crew u => ((s.crew u).map fun c => clusterOf (coreAt c.die c.oy c.ox)).getD 0
  | .launch u => ((s.launch u).map (·.home)).getD 0

/-- A counter file can be reached from a core, and its answer come back (17 R443). -/
def State.fileOpen (s : State) (core : Nat) (f : SqFile) : Bool := s.edgesQuiet (dieOf core) (dieOfSlice (s.fileSlice f))

/-- Increment a counter modulo 2^64 (02 R91). -/
def State.seqAdd (s : State) (f : SqFile) (i : BitVec 8) (n : Nat) : State :=
  let up := fun (v : Vector Word 256) => v.setIfInBounds i.toNat (v.getD i.toNat 0 + BitVec.ofNat 64 n)
  match f with
  | .crew u => s.updCrew u fun c => { c with sq := up c.sq }
  | .launch u => s.updLaunch u fun l => { l with sq := up l.sq }

/-! ## Deliveries (01 R25-R27, 11 R333) -/

/-- Depth of an inbound queue (01 R25). -/
def qDepth (q : Nat) : Nat := if q = 7 then 32 else if q = 4 then 8 else 16

/-- Append a word to an inbound queue. -/
def enterWord (q : Nat) (w : Word) (o : Strand) : Strand :=
  match q with
  | 5 => { o with q5 := o.q5 ++ [w] }
  | 7 => { o with q7 := o.q7 ++ [w] }
  | 8 => { o with q8 := o.q8 ++ [w] }
  | n => if n < 4 then { o with qin := o.qin.setIfInBounds n (o.qin.getD n [] ++ [w]) } else o

/-- Add n to a queue's lost count, saturating (10 R292). -/
def addLost (q n : Nat) (o : Strand) : Strand :=
  { o with lost := o.lost.setIfInBounds q (BitVec.ofNat 16 (Nat.min 0xFFFF ((o.lost.getD q 0).toNat + n))) }

/-- An arrival notice that q8 cannot take (01 R27). -/
def dropNotice8 (o : Strand) : Strand := { addLost 8 1 o with ovf := true }

/-- Words an inbound queue holds. -/
def inCount (o : Strand) (q : Nat) : Nat := (inWords o (BitVec.ofNat 4 q)).length

/-- A strand whose queue deliveries are held for it: frozen, swapped, or stopped for debug (11 R333, 18 R469). -/
def defersInbox (o : Strand) : Bool := o.isFrozen || o.out || decide (o.run = .stopped)

/-- Entries that a core's inbox holds: those of swapped strands lie in their saved contexts (11 R333). -/
def State.inboxHeld (s : State) (core : Nat) : Nat :=
  (s.strands.filter fun x => decide (x.core = core) && !x.out && !decide (x.run = .empty) && defersInbox x).foldl
    (fun n x => n + x.inbox.length) 0

/-- The frozen strand with the most held entries, which the scheduler swaps out when its core's inbox is full (11 R333). -/
def State.inboxVictim (s : State) (core : Nat) : Option Strand :=
  if s.inboxHeld core < 64 then none
  else
    (s.strands.filter fun x => decide (x.core = core) && !x.out && x.isFrozen && x.ump.isNone).foldl
      (fun (b : Option Strand) x => match b with
        | some y => if y.inbox.length < x.inbox.length then some x else some y
        | none => some x) none

/-- An entry of the inbox that the stroke slot has still to service (01 R18). -/
def inItem (q : Nat) (w : Word) (src : Nat) : InItem := { q := BitVec.ofNat 4 q, w := w, src := src, served := false }

/-- Deliver a word to a strand's queue: held for a strand that defers, in the core's inbox of 64 entries or in the saved context;
otherwise entered, or refused where the queue is full or earlier words of it wait (a notice is discarded at a full q8, 01 R27).
Answers whether it was taken; a refused word stays in the network (11 R333). -/
def State.deliver (s : State) (key q : Nat) (w : Word) (src : Nat) : Bool × State :=
  match s.strand key with
  | none => (true, s)
  | some o =>
    if defersInbox o then
      if !o.out && decide (64 ≤ s.inboxHeld o.core) then (false, s)
      else
        let s1 := s.upd key fun o => { o with inbox := o.inbox ++ [inItem q w src] }
        (true, match if o.out then none else s1.inboxVictim o.core with
          | some x => s1.later (.swapOut x.key)
          | none => s1)
    else if o.inbox.any fun i => decide (i.q.toNat = q) then (false, s)
    else if inCount o q < qDepth q then (true, s.upd key (enterWord q w))
    else if q = 8 then (true, s.upd key dropNotice8)
    else (false, s)

/-- The stroke slot's handler has a strand's inbox to service on a core (01 R18, 11 R333). -/
def inboxWork (s : State) (core : Nat) : Bool :=
  s.strands.any fun o => decide (o.core = core) && !decide (o.run = .empty) && defersInbox o && o.inbox.any fun i => !i.served

/-- The first entry that is not serviced yet is now. -/
def serveFirst : List InItem → List InItem
  | [] => []
  | i :: t => if i.served then i :: serveFirst t else { i with served := true } :: t

/-- Enter held words while there is room, in order per queue; a notice beyond q8's depth is discarded (11 R333). -/
def drainItems : List InItem → Strand → Strand × List InItem
  | [], o => (o, [])
  | i :: t, o =>
    let q := i.q.toNat
    if inCount o q < qDepth q then drainItems t (enterWord q i.w o)
    else if q = 8 then drainItems t (dropNotice8 o)
    else
      let (o1, l) := drainItems t o
      (o1, i :: l)

/-- Enter the held words of a strand that runs again (11 R333). -/
def drainInbox (o : Strand) : Strand :=
  let (o1, l) := drainItems o.inbox o
  { o1 with inbox := l }

/-! ## Tile frames (16 R411, 02 R71, R73) -/

/-- The first number from i on that is not in a list; `n` bounds the search. -/
def firstFree (used : List Nat) : Nat → Nat → Nat
  | 0, i => i
  | n + 1, i => if used.contains i then firstFree used n (i + 1) else i

/-- 64 KiB frames of a die's stacked SRAM that hold tiles. -/
def State.tileFrames (s : State) (die : Nat) : List Nat :=
  (s.fw.fkinds.filter fun p => decide (p.2 = .tile) && decide (0x8000000 + die * 16384 ≤ p.1) &&
    decide (p.1 < 0x8000000 + (die + 1) * 16384)).map (·.1)

/-- Carved units of a die, or those that a CARVE whose reply is still to come will leave it with (16 R412). -/
def State.unitsOf (s : State) (die : Nat) : Nat :=
  (s.fw.long.filter fun q => decide (q.1 = 9) && decide ((q.2.p.getD 0 0).toNat = die)).foldl
    (fun n q => Nat.max n (q.2.p.getD 1 0).toNat) (s.fw.carve.getD die 0)

/-- Tile frames that a die has room for with so many carved units: the cache keeps 2,048 (16 R411). -/
def roomBeside (units : Nat) : Nat := 16384 - 65 - 1024 * units - 2048

/-- How many tile frames a die can hold (16 R411). -/
def State.tileRoom (s : State) (die : Nat) : Nat := roomBeside (s.unitsOf die)

/-- A frame of a die's stacked SRAM below its carved units. -/
def belowUnits (units f : Nat) : Bool := decide ((f - 0x8000000) % 16384 + 65 + 1024 * units < 16384)

/-- Set the kind of a frame; the default kind needs no record. -/
def State.setKind (s : State) (frame : Nat) (k : FrameKind) : State :=
  s.setFw fun f =>
    let rest := f.fkinds.filter fun p => !decide (p.1 = frame)
    { f with fkinds := if defaultKind f.carve frame = k then rest else (frame, k) :: rest }

/-- Frames that versions lie in. -/
def State.usedFrames (s : State) : List Nat := s.homes.vers.foldl (fun l v => v.frames.map (· / 65536) ++ l) []

/-- The die's free tile frames: of kind tile, with nothing on them, and not among units that are being carved (13 R377, 16 R412). -/
def State.idleFrames (s : State) (die : Nat) : List Nat :=
  let used := s.usedFrames
  (s.tileFrames die).filter fun f => belowUnits (s.unitsOf die) f && !used.contains f

/-- Tile frames that a die could still give to versions. -/
def State.freeCount (s : State) (die : Nat) : Nat :=
  (s.idleFrames die).length + (s.tileRoom die - (s.tileFrames die).length)

/-- Take one frame of a die for tiles: a free tile frame, else the lowest frame of the cache portion (16 R411; log 14). `busy` are
frames just taken. -/
def State.takeFrame (s : State) (die : Nat) (busy : List Nat) : Option (Nat × State) :=
  match (s.idleFrames die).find? fun f => !busy.contains f with
  | some f => some (f, s)
  | none =>
    let used := s.tileFrames die
    if s.tileRoom die ≤ used.length then none
    else
      let f := firstFree used used.length (0x8000000 + die * 16384)
      some (f, s.setKind f .tile)

/-- Take n frames beside those just taken. -/
def State.takeFrames (s : State) (die : Nat) : Nat → List Nat → Option (List Nat × State)
  | 0, busy => some (busy.map (· * 65536), s)
  | n + 1, busy =>
    match s.takeFrame die busy with
    | none => none
    | some (f, s1) => s1.takeFrames die n (busy ++ [f])

/-- 4 KiB pieces in use by the versions homed in a slice. -/
def State.pieces (s : State) (slice : Nat) : List Nat :=
  s.homes.vers.foldl (fun l v => if v.cls = .k4 ∧ s.nameSlice v.space v.name = slice then v.frames ++ l else l) []

/-- Frames for a tile of a class homed in a slice, on the slice's die: a 4 KiB tile takes a sixteenth of a frame that the slice
already shares out, else of a new one (02 R71, 13 R377). -/
def State.takeTile (s : State) (slice : Nat) (c : TileClass) : Option (List Nat × State) :=
  let die := dieOfSlice slice
  match c with
  | .k64 => s.takeFrames die 1 []
  | .m1 => s.takeFrames die 16 []
  | .k4 =>
    let ps := s.pieces slice
    let shared := (s.tileFrames die).findSome? fun f =>
      if belowUnits (s.unitsOf die) f && ps.any fun p => decide (p / 65536 = f) then
        (List.range 16).findSome? fun i =>
          if ps.contains (f * 65536 + i * 4096) then none else some (f * 65536 + i * 4096)
      else none
    match shared with
    | some p => some ([p], s)
    | none => s.takeFrames die 1 []

/-- A version is gone: the cluster caches keep nothing of it. Its frames stay of kind tile and are free where no other piece is left
in them (02 R83, 13 R377). -/
def State.forgetTile (s : State) (u : Nat) : State :=
  let ofTile := fun (pa : Nat) => decide (tilePa u 0 ≤ pa) && decide (pa < tilePa (u + 1) 0)
  s.setHomes fun h =>
    { h with lines := h.lines.filter fun l => !ofTile (l.line * 64)
             coh := h.coh.filter fun p => match p.1 with
               | .gran g => !ofTile (g * 256)
               | .obj _ => true }

/-- Die of the home slice of a name. -/
def State.nameDie (s : State) (space name : Nat) : Nat := dieOfSlice (s.nameSlice space name)

/-! ## Names and versions (02 R69-R87) -/

/-- Replace the record of a name. -/
def State.setName (s : State) (n : Name) : State :=
  s.setHomes fun h =>
    { h with names := n :: h.names.filter fun m => !(decide (m.space = n.space) && decide (m.name = n.name)) }

/-- Versions of a name that is not dropped. -/
def State.versOf (s : State) (space name : Nat) : List Ver :=
  s.homes.vers.filter fun v => decide (v.space = space) && decide (v.name = name) && !v.doomed

/-- Published: it can be mapped (02 R72). -/
def VState.published : VState → Bool
  | .afloat | .racking | .racked | .floating => true
  | _ => false

/-- The published version with a number. -/
def State.pubVer (s : State) (space name num : Nat) : Option Ver :=
  (s.versOf space name).find? fun v => decide (v.num = num) && v.st.published

/-- Take a reference; a count that reaches 0xFFFF pins the version (02 R82). -/
def addRef (v : Ver) : Ver :=
  if v.pinned then v else if v.refs + 1 ≥ 0xFFFF then { v with refs := 0xFFFF, pinned := true } else { v with refs := v.refs + 1 }

/-- Release a reference. -/
def dropRef (v : Ver) : Ver := if v.pinned then v else { v with refs := v.refs - 1 }

/-- A version that dies (02 R83, R84), whichever published state it is in: one that is being copied dies at once, and what its copy
took is free (02 R72 ends Racking and Floating with the copy only; log 36). -/
def dies (n : Name) (v : Ver) : Bool :=
  v.st.published && decide (v.refs = 0) && !v.pinned && (v.doomed || decide (v.num + n.retain ≤ n.latest))

/-- Remove the versions of a name that die, freeing their frames (02 R83). -/
def State.reap (s : State) (space name : Nat) : State :=
  let n := s.nameRec space name
  let dead := s.homes.vers.filter fun v => decide (v.space = space) && decide (v.name = name) && dies n v
  let s1 := s.setHomes fun h =>
    { h with vers := h.vers.filter fun v => !(decide (v.space = space) && decide (v.name = name) && dies n v) }
  dead.foldl (fun s v => s.forgetTile v.uid) s1

/-- Release a reference and test the version's death (02 R83). -/
def State.unref (s : State) (u : Nat) : State :=
  match s.ver u with
  | some v => (s.updVer u dropRef).reap v.space v.name
  | none => s

/-- Cancel drafts or completed versions: gone with their frames, their writers' windows remember the cause (02 R77, R84). -/
def State.cancel (s : State) (p : Ver → Bool) (c : Cause) : State :=
  let dead := s.homes.vers.filter p
  let s1 := s.setHomes fun h => { h with vers := h.vers.filter fun v => !p v }
  let s2 := s1.updAll fun o =>
    { o with win := o.win.map fun w => match w with
      | .draft v k => if dead.any fun d => decide (d.uid = v) then .cancelled c k else w
      | _ => w }
  dead.foldl (fun s v => s.forgetTile v.uid) s2

/-- Abandon a draft: it and every newer open draft of the name go; a version that is no longer a draft stays (02 R77). -/
def State.abandon (s : State) (u : Nat) : State :=
  match s.ver u with
  | some d =>
    if d.st ≠ .drafted then s
    else s.cancel (fun v => decide (v.space = d.space) && decide (v.name = d.name) && !v.doomed && decide (v.st = .drafted) &&
      decide (d.num ≤ v.num)) Cause.versionAbandoned
  | none => s

/-- The next version to publish of a name, once completed (02 R75). -/
def State.nextPub (s : State) (space name : Nat) : Option Ver :=
  let n := s.nameRec space name
  (s.versOf space name).find? fun v => decide (v.st = .completed) && decide (v.num = n.latest + 1)

/-- Offer the publication of what can be published next. -/
def State.offerPub (s : State) (space name : Nat) : State :=
  match s.nextPub space name with
  | some v => s.later (.versionPublish v.uid)
  | none => s

/-- One contribution to a draft: when the count is set and reached the draft is completed (02 R74). -/
def State.contribute (s : State) (u : Nat) : State :=
  match s.ver u with
  | some v =>
    let c := v.contrib + 1
    let s1 := s.updVer u fun v => { v with contrib := c, st := if v.count = some c then .completed else v.st }
    s1.offerPub v.space v.name
  | none => s

/-- A pending VMAP holds either an absolute version, 2^32 + k for a relative one, or 2^33 + k for a relative one that holds its
reference on version 1 (02 R78). Granting a publication to the windows of one strand answers the references taken. -/
def grantWin (n : Name) (v : Ver) (w : Win) : Win × Nat × Bool :=
  match w with
  | .pending name t =>
    if name ≠ n.name then (w, 0, false)
    else if t < 2 ^ 32 then (if t = v.num then (.ro v.uid v.cls, 1, true) else (w, 0, false))
    else
      let k := t % 2 ^ 32
      let holds := decide (2 ^ 33 ≤ t)
      if k + 1 ≤ n.latest then (if v.num = 1 ∨ holds then (.ro 0 v.cls, if holds then 0 else 1, true) else (w, 0, false))
      else if v.num = 1 then (.pending name (2 ^ 33 + k), 1, false)
      else (w, 0, false)
  | _ => (w, 0, false)

/-- Grant a publication to every strand that waits for it (02 R75, R78): the window of its parked bundle is its answer; a version 1 that is mapped so and racked meanwhile starts
floating (02 R86). -/
def State.grantAll (s : State) (n : Name) (v : Ver) : State :=
  let one := ((s.versOf n.space n.name).find? fun x => decide (x.num = 1)).getD v
  let fix := fun (w : Win) => match w with
    | .ro 0 c => Win.ro one.uid c
    | _ => w
  let mine := fun (o : Strand) => decide (s.spaceOf o.ctx n.name = n.space) && !decide (o.run = .empty)
  let refs := s.strands.foldl (fun (l : List Nat) o =>
    if mine o then
      o.win.toList.foldl (fun l w =>
        match grantWin n v w with
        | (.ro 0 _, k, true) => (List.replicate k one.uid) ++ l
        | (.ro u _, k, true) => (List.replicate k u) ++ l
        | (_, k, _) => (List.replicate k v.uid) ++ l) l
    else l) []
  let s1 := s.updAll fun o =>
    if mine o then
      let done' := o.askWin.any fun i => (grantWin n v (o.win.getD i .unmapped)).2.2
      { o with win := o.win.map fun w => fix (grantWin n v w).1, answer := if done' then some none else o.answer }
    else o
  let s2 := refs.foldl (fun s u => s.updVer u addRef) s1
  if refs.contains one.uid ∨ (s.strands.any fun o => mine o && o.win.toList.any fun w => match grantWin n v w with
    | (.ro 0 _, _, true) => true
    | _ => false) = true then s2.wantFloat one.uid else s2

/-- Push a notice of a publication (02 R81). -/
def noticeWord (name num : Nat) : Word := BitVec.ofNat 64 (name * 2 ^ 32 + num)

/-- A frame's word a2 replaced (10 R304). -/
def withA2 (f : Vector Word 8) (x : Word) : Vector Word 8 := f.setIfInBounds 6 x

/-- A trigger of a name fires: its frame waits for a deque, and names the version that fired it (10 R303, R304; 02 R87). -/
def State.fire (s : State) (space name slice : Nat) (t : Trig) (num : Nat) : State :=
  let vs := [Cond.ver space name (BitVec.ofNat 32 num)]
  let (u, s1) := s.fresh
  (s1.setHomes fun h =>
    { h with wframes := h.wframes ++
      [{ uid := u, slice := slice, key := t.key, launch := t.launch, frame := withA2 t.frame (BitVec.ofNat 64 num),
         conds := vs, fired := true, retry := 0 }] }).later (.taskDispatch u)

/-- The die from which the publications of a name come: its home slice's, or the port die (17 R450). -/
def State.pubDie (s : State) (space name : Nat) : Nat :=
  if (s.nameRank space name).isSome then 4 else dieOfSlice (s.nameSlice space name)

/-- A notice of a name can travel to a strand's core (17 R443). -/
def State.noticeWay (s : State) (space name key : Nat) : Bool :=
  (s.strand key).all fun o => (s.heldAt (s.pubDie space name) (dieOf o.core) (coreKey o.core 0)).isNone

/-- A publication can leave its home for every subscriber, the increments and the notices together: over the port of the name's package,
and over the edges to the counter files and cores (17 R443, R448, R450). -/
def State.pubOpen (s : State) (space name : Nat) : Bool :=
  rankOpen s space name && (s.nameRec space name).subs.all fun x =>
    s.noticeWay space name x.1 && s.edgesQuiet (s.pubDie space name) (dieOfSlice (s.fileSlice x.2.2))

/-- Publication, one atomic step at the home (02 R75): latest moves, waiting VMAPs complete, subscriptions and triggers fire,
retention applies. -/
def State.publish (s : State) (u : Nat) : State :=
  match s.ver u with
  | none => s
  | some v =>
    let n0 := s.nameRec v.space v.name
    if v.st ≠ .completed ∨ v.num ≠ n0.latest + 1 ∨ v.doomed then s
    else
      let due := n0.trigs.filter fun t => decide (t.v = 0) || decide (t.v ≤ v.num)
      let n1 := { n0 with latest := v.num, trigs := n0.trigs.filter fun t => !(decide (t.v = 0) || decide (t.v ≤ v.num)) }
      let v1 := { v with st := .afloat, used := s.tick }
      let s1 := (s.updVer u fun _ => v1).setName n1
      let s2 := s1.grantAll n1 v1
      let s3 := n1.subs.foldl (fun s x =>
        (s.seqAdd x.2.2 x.2.1 1).later (.arrivalNotice x.1 (noticeWord v.name v.num))) s2
      let s4 := due.foldl (fun s t => s.fire v.space v.name (s.nameSlice v.space v.name) t (if t.v = 0 then v.num else t.v)) s3
      (s4.reap v.space v.name).offerPub v.space v.name

/-- Withdraw what a strand waits for or maps in its windows (11 R327): references drop, pending waits go. -/
def State.releaseWins (s : State) (o : Strand) : State :=
  o.win.toList.foldl (fun s w =>
    match w with
    | .ro u _ => s.unref u
    | .pending name t =>
      if 2 ^ 33 ≤ t then
        match (s.versOf (s.spaceOf o.ctx name) name).find? fun v => decide (v.num = 1) with
        | some v => s.unref v.uid
        | none => s
      else s
    | _ => s) s

/-- Remove a strand's subscriptions (11 R327). -/
def State.unsubAll (s : State) (key : Nat) : State :=
  s.setHomes fun h => { h with names := h.names.map fun n => { n with subs := n.subs.filter fun x => !decide (x.1 = key) } }

end Sys2Proof.Machine
end

