-- ==== Sys2Proof/Machine/Version.lean ====
section
/-! DEFINITION. The version instructions (07 R210-R213; 02 R69-R84). A name's home answers inside the bundle; a VMAP that
waits stands in its window as pending until the home answers it. -/

namespace Sys2Proof.Machine

open Sys2Proof

/-- The name in a register (07 R210). -/
def nameOf (o : Strand) (a : R5) : Nat := (o.g a).toNat % 2 ^ 32

/-- Scope of a name's annotations: system for a global name (03 R104). -/
def spaceScope (space : Nat) : Scope := if space < 2 ^ 16 then .pkg else .sys

/-- A group all of whose packages have joined (16 R409). -/
def groupComplete (s : State) (space : Nat) : Bool :=
  if space < 2 ^ 16 then true
  else
    let g := space - 2 ^ 16
    let p := (s.fw.ctxs.findSome? fun c => match c.group with
      | some (h, p, _) => if h = g then some p else none
      | none => none).getD 1
    (List.range p).all fun r => s.fw.joined.contains (g, r)

/-- TWMAP.st is not 00: the window cannot be mapped again (07 R213). -/
def winBusy : Win → Bool
  | .unmapped | .released => false
  | _ => true

/-- Set a window of the issuing strand. -/
def State.setWin (s : State) (w : W4) (x : Win) : State := s.setMe fun o => { o with win := o.win.setIfInBounds w.toNat x }

/-- The window of a strand. -/
def Strand.winAt (o : Strand) (w : W4) : Win := o.win.getD w.toNat .unmapped

/-- One window's four bits of TWMAP (02 R80). A pending window shows the class its name has; a name without one, a free
value (log 8). -/
def winBits (s : State) (ctx : Nat) (w : Win) : Nat :=
  match w with
  | .unmapped | .released => 0
  | .ro _ c => c.code + 4
  | .draft _ c => c.code + 8
  | .cancelled _ c => c.code + 8
  | .pending name _ => ((s.nameRec (s.spaceOf ctx name) name).cls.map TileClass.code).getD (Config.pendingClass name % 3) + 12

/-- TWMAP (02 R80). -/
def twmap (s : State) (o : Strand) : Word := BitVec.ofNat 64 (packNat 4 (o.win.toList.map (winBits s o.ctx)))

/-- The home's answer to a parked VMAP, taken by its bundle (07 R212): an acquire and completion, or the home's cause. -/
def vmapAnswer (s : State) (space : Nat) (r : Option Cause) : SylOut :=
  match r with
  | none => .ok (s.acquire (spaceScope space)) .next
  | some c => frz (s.setMe fun o => { o with answer := none }) c

/-- Map a published version and start floating a racked one (02 R78, R86). -/
def vmapNow (s : State) (v : Ver) (w : W4) : SylOut :=
  .ok ((((s.updVer v.uid addRef).setWin w (.ro v.uid v.cls)).wantFloat v.uid).acquire (spaceScope v.space)) .next

/-- A VMAP parks at its window, which shows the mapping as pending (02 R78). -/
def askFor (s : State) (w : W4) (name t : Nat) : SylOut :=
  .park ((s.setWin w (.pending name t)).setMe fun o => { o with askWin := some w.toNat }) .poll

/-- A request to the home of a name parks while its way there is held (17 R443, R450). -/
def atHome (o : Strand) (s : State) (space name : Nat) (k : SylOut) : SylOut :=
  if s.homeOpen (dieOf o.core) space name then k else .park s .poll

/-- A VMAP at the window: its answer, its own wait, or a new request `k`. A window that another VMAP left pending is busy
(07 R213). -/
def vmapAt (o : Strand) (s : State) (name : Nat) (w : W4) (k : Nat → SylOut) : SylOut :=
  let space := s.spaceOf o.ctx name
  match o.answer with
  | some r => vmapAnswer s space r
  | none =>
    match o.winAt w with
    | .pending _ _ => if s.me.askWin = some w.toNat then .park s .poll else frz s Cause.tileWindowBusy
    | x =>
      if winBusy x then frz s Cause.tileWindowBusy
      else if !groupComplete s space then frz s Cause.versionDropped
      else atHome o s space name (if (s.nameRec space name).dropped then frz s Cause.versionDropped else k space)

/-- VMAP of an absolute version (02 R78, 07 R211). -/
def sylVmap (a b : R5) (w : W4) : Syl := fun o s =>
  let name := nameOf o a
  let v := (o.g b).toNat % 2 ^ 32
  if v = 0 then frz s Cause.versionZero
  else
    vmapAt o s name w fun space =>
      match s.pubVer space name v with
      | some r => vmapNow s r w
      | none =>
        if (s.nameRec space name).latest < v then askFor s w name v
        else frz s Cause.versionDead

/-- VMAP.rel: latest less k, resolved at the home on arrival (02 R78). A k of 2^32 - 1 or more waits whatever version 1 is: 07 R211
has it stay parked where 02 R78 would freeze it over a dead version 1 (log 36). -/
def sylVmapRel (a b : R5) (w : W4) : Syl := fun o s =>
  let name := nameOf o a
  let k := Nat.min (o.g b).toNat (2 ^ 32 - 1)
  vmapAt o s name w fun space =>
    let n := s.nameRec space name
    if k + 1 ≤ n.latest then
      match s.pubVer space name (n.latest - k) with
      | some r => vmapNow s r w
      | none => frz s Cause.versionDead
    else if n.latest = 0 then askFor s w name (2 ^ 32 + k)
    else
      match s.pubVer space name 1 with
      | some r => askFor (s.updVer r.uid addRef) w name (2 ^ 33 + k)
      | none => if k = 2 ^ 32 - 1 then askFor s w name (2 ^ 32 + k) else frz s Cause.versionDead

/-- VUNMAP (02 R79, R74). Of a window whose VMAP is still pending the spec says nothing: the wait and its reference are withdrawn and the
window is unmapped (DESIGN CHOICE, log 36). -/
def sylVunmap (w : W4) : Syl := fun o s =>
  match o.winAt w with
  | .unmapped | .released => .ok s .next
  | .ro u _ => .ok ((s.setWin w .unmapped).unref u) .next
  | .pending name t =>
    let s1 := s.setWin w .unmapped
    .ok (if 2 ^ 33 ≤ t then
      match (s1.versOf (s1.spaceOf o.ctx name) name).find? fun v => decide (v.num = 1) with
      | some v => s1.unref v.uid
      | none => s1
    else s1) .next
  | .draft _ _ | .cancelled _ _ => frz s Cause.versionDraftUnmap

/-- Eligible for racking: afloat, no reference, no pending VMAP (02 R85). -/
def rackable (s : State) (v : Ver) : Bool :=
  decide (v.st = .afloat) && decide (v.refs = 0) && !v.pinned &&
    !(s.strands.any fun o => o.win.toList.any fun w => match w with
      | .pending name t => decide (name = v.name) && decide (s.spaceOf o.ctx name = v.space) && decide (t = v.num)
      | _ => false)

/-- Versions whose frames lie on a die. -/
def State.onDie (s : State) (die : Nat) : List Ver :=
  s.homes.vers.filter fun v => v.frames.any fun f => decide (0x80000000000 ≤ f) && decide ((f - 0x80000000000) / 2 ^ 30 = die)

/-- The version that goes next while tile frames on a die are short, which is while it has none for a tile of the largest class: the
least recently used eligible one, one at a time (02 R85; log 36). -/
def shortVictim (s : State) (die : Nat) : Option Ver :=
  let l := s.onDie die
  if 16 ≤ s.freeCount die ∨ (l.any fun v => decide (v.st = .racking)) = true then none
  else
    (l.filter (rackable s)).foldl (fun (b : Option Ver) v => match b with
      | some x => if v.used < x.used then some v else some x
      | none => some v) none

/-- Have room made on a die by racking (02 R73, R85). -/
def State.makeRoom (s : State) (die : Nat) : State :=
  match shortVictim s die with
  | some v => s.later (.rackStart v.uid)
  | none => s

/-- Version table entries of a slice (02 R73). -/
def State.tableCount (s : State) (slice : Nat) : Nat :=
  (s.homes.vers.filter fun v => decide (s.nameSlice v.space v.name = slice)).length

/-- The number a new draft takes: the lowest above latest that no drafted or completed version holds (02 R73, R77). -/
def State.nextNum (s : State) (n : Name) : Nat :=
  let used := ((s.versOf n.space n.name).filter fun v => decide (v.st = .drafted) || decide (v.st = .completed)).map (·.num)
  firstFree used used.length (n.latest + 1)

/-- VDRAFT.new (02 R70, R71, R73). Where several causes hold at once the spec gives no order: VERSION_CLASS, then VERSION_EXHAUSTED, then
VERSION_TABLE_FULL (DESIGN CHOICE, log 36). -/
def sylVdraftNew (d a : R5) (cls : TileClass) (w : W4) : Syl := fun o s =>
  let name := nameOf o a
  let space := s.spaceOf o.ctx name
  let n := s.nameRec space name
  let num := s.nextNum n
  if winBusy (o.winAt w) then frz s Cause.tileWindowBusy
  else if !groupComplete s space then frz s Cause.versionDropped
  else atHome o s space name <|
  if !n.dropped && n.cls.isSome && decide (n.cls ≠ some cls) then frz s Cause.versionClass
  else if 2 ^ 32 ≤ num then frz s Cause.versionExhausted
  else if 65536 ≤ s.tableCount (s.nameSlice space name) then frz s Cause.versionTableFull
  else
    match s.takeTile (s.nameSlice space name) cls with
    | none => .park (s.makeRoom (s.nameDie space name)) .poll
    | some (frames, s1) =>
      let (u, s2) := s1.fresh
      let v : Ver := { uid := u, space := space, name := name, num := num, cls := cls, st := .drafted, count := none,
                       contrib := 0, refs := 0, pinned := false, doomed := false, frames := frames, hbm := [], data := [],
                       used := s.tick }
      let s3 := (s2.setHomes fun h => { h with vers := h.vers ++ [v] }).setName
        { n with cls := some cls, dropped := false, retain := if n.dropped then 1 else n.retain }
      retG (s3.setWin w (.draft u cls)) d (BitVec.ofNat 64 num)

/-- The newest open draft of a name (02 R73). -/
def State.openDraft (s : State) (space name : Nat) : Option Ver :=
  ((s.versOf space name).filter fun v => decide (v.st = .drafted)).foldl (fun (b : Option Ver) v => match b with
    | some x => if x.num < v.num then some v else some x
    | none => some v) none

/-- VDRAFT.join (02 R73). -/
def sylVdraftJoin (d a : R5) (w : W4) : Syl := fun o s =>
  let name := nameOf o a
  let space := s.spaceOf o.ctx name
  if winBusy (o.winAt w) then frz s Cause.tileWindowBusy
  else if !groupComplete s space then frz s Cause.versionDropped
  else
    atHome o s space name <|
    match s.openDraft space name with
    | some v => retG (s.setWin w (.draft v.uid v.cls)) d (BitVec.ofNat 64 v.num)
    | none => frz s Cause.versionNoDraft

/-- The draft at a window, then the release of VPUB and VDONE (02 R74, R75, R77). A window whose version was published and has died
holds no draft (log 36). -/
def atDraft (o : Strand) (s : State) (w : W4) (k : Ver → State → SylOut) : SylOut :=
  match o.winAt w with
  | .draft u _ =>
    match s.ver u with
    | some v =>
      atHome o s v.space v.name (releaseHeld o s (spaceScope v.space) fun s => k ((s.ver u).getD v) s)
    | none => frz s Cause.versionNoDraft
  | .cancelled c _ => frz s c
  | _ => frz s Cause.versionNoDraft

/-- VPUB (02 R74, 07 R211). -/
def sylVpub (a : R5) (w : W4) : Syl := fun o s =>
  let n := (o.g a).toNat
  if n = 0 ∨ 65535 < n then frz s Cause.versionPubCount
  else
    atDraft o s w fun v s =>
      if v.count.isSome then frz s Cause.versionPubTwice
      else if n < v.contrib then frz s Cause.versionOverdone
      else
        .ok ((s.updVer v.uid fun v =>
          { v with count := some n, st := if v.contrib = n then .completed else v.st }).offerPub v.space v.name) .next

/-- VDONE (02 R74). -/
def sylVdone (w : W4) : Syl := fun o s =>
  atDraft o s w fun v s =>
    if v.count.any fun c => decide (c ≤ v.contrib) then frz s Cause.versionOverdone
    else .ok ((s.contribute v.uid).setWin w .released) .next

/-- VLATEST (02 R79). -/
def sylVlatest (d a : R5) : Syl := fun o s =>
  let name := nameOf o a
  let space := s.spaceOf o.ctx name
  atHome o s space name (retG s d (BitVec.ofNat 64 (s.nameRec space name).latest))

/-- VSUB (02 R81). -/
def sylVsub (a : R5) (sq : BitVec 8) : Syl := fun o s =>
  let name := nameOf o a
  let space := s.spaceOf o.ctx name
  match s.fileOf o with
  | none => frz s Cause.sqNoFile
  | some f =>
    let n := s.nameRec space name
    let slice := s.nameSlice space name
    let held : Nat := (s.homes.names.filter fun m => decide (s.nameSlice m.space m.name = slice)).foldl
      (fun k m => k + m.subs.length) 0
    if !groupComplete s space then frz s Cause.versionDropped
    else atHome o s space name <|
    if n.subs.any fun x => decide (x.1 = o.key) && decide (x.2.1 = sq) then .ok s .next
    else if 16 ≤ o.subs.length ∨ 8192 ≤ held then frz s Cause.subscribeFull
    else
      .ok ((s.setName { n with subs := n.subs ++ [(o.key, sq, f)] }).setMe fun x =>
        { x with subs := x.subs ++ [(space, name, sq, f)] }) .next

/-- VUNSUB (02 R81). -/
def sylVunsub (a : R5) (sq : BitVec 8) : Syl := fun o s =>
  let name := nameOf o a
  let space := s.spaceOf o.ctx name
  match s.fileOf o with
  | none => frz s Cause.sqNoFile
  | some _ =>
    let n := s.nameRec space name
    atHome o s space name (.ok
      ((s.setName { n with subs := n.subs.filter fun x => !(decide (x.1 = o.key) && decide (x.2.1 = sq)) }).setMe fun x =>
        { x with subs := x.subs.filter fun y => !(decide (y.1 = space) && decide (y.2.1 = name) && decide (y.2.2.1 = sq)) }) .next)

/-- VRETAIN (02 R82, R83). -/
def sylVretain (a : R5) (k : BitVec 4) : Syl := fun o s =>
  let name := nameOf o a
  let space := s.spaceOf o.ctx name
  if k.toNat = 0 ∨ 8 < k.toNat then frz s Cause.versionRetainRange
  else atHome o s space name (.ok ((s.setName { s.nameRec space name with retain := k.toNat }).reap space name) .next)

/-- The strands that wait in VMAP for a dropped name are answered VERSION_DROPPED (02 R84); a window left pending by a bundle that was
skipped is unmapped. -/
def dropWaits (s : State) (space name : Nat) (o : Strand) : Strand :=
  let waits := fun (w : Win) => match w with
    | .pending m _ => decide (m = name) && decide (s.spaceOf o.ctx m = space)
    | _ => false
  if o.win.toList.any waits then
    { o with win := o.win.map fun w => if waits w then .unmapped else w,
             answer := if (o.askWin.any fun i => waits (o.win.getD i .unmapped)) then some (some Cause.versionDropped) else o.answer }
  else o

/-- How many waiting VMAPs hold version 1 of a name (02 R78). -/
def heldOne (s : State) (space name : Nat) : Nat :=
  s.strands.foldl (fun n o => n + (o.win.toList.filter fun w => match w with
    | .pending m t => decide (m = name) && decide (s.spaceOf o.ctx m = space) && decide (2 ^ 33 ≤ t)
    | _ => false).length) 0

/-- Release n references at once. -/
def dropRefs (n : Nat) (v : Ver) : Ver := if v.pinned then v else { v with refs := v.refs - n }

/-- Drop a name (02 R84). -/
def State.dropName (s : State) (space name : Nat) : State :=
  let held := heldOne s space name
  let mine := fun (v : Ver) => decide (v.space = space) && decide (v.name = name) && !v.doomed
  let s1 := s.cancel (fun v => mine v && (decide (v.st = .drafted) || decide (v.st = .completed))) Cause.versionDropped
  let s2 := s1.updAll fun o =>
    let o1 := dropWaits s space name o
    { o1 with subs := o1.subs.filter fun y => !(decide (y.1 = space) && decide (y.2.1 = name)) }
  let s3 := s2.setHomes fun h =>
    { h with vers := h.vers.map fun v =>
        if mine v then { (if v.num = 1 then dropRefs held v else v) with doomed := true } else v }
  (s3.setName { space := space, name := name, cls := none, latest := 0, retain := 1, subs := [], trigs := [],
                dropped := true }).reap space name

/-- VDROP (02 R84). -/
def sylVdrop (a : R5) : Syl := fun o s =>
  let name := nameOf o a
  let space := s.spaceOf o.ctx name
  atHome o s space name (.ok (s.dropName space name) .next)

/-! ## The bundles that hold one of these syllables alone (05 R142) -/

/-- VMAP beside an idle syllable (R78). -/
def execVmap (a b : R5) (w : W4) (s : State) : Out := issueA (sylVmap a b w) s

/-- VMAP_REL beside an idle syllable (R78). -/
def execVmapRel (a b : R5) (w : W4) (s : State) : Out := issueA (sylVmapRel a b w) s

/-- VUNMAP beside an idle syllable (R79). -/
def execVunmap (w : W4) (s : State) : Out := issueA (sylVunmap w) s

/-- VDRAFT_NEW beside an idle syllable (R73). -/
def execVdraftNew (d a : R5) (cls : TileClass) (w : W4) (s : State) : Out := issueA (sylVdraftNew d a cls w) s

/-- VDRAFT_JOIN beside an idle syllable (R73). -/
def execVdraftJoin (d a : R5) (w : W4) (s : State) : Out := issueA (sylVdraftJoin d a w) s

/-- VPUB beside an idle syllable (R74). -/
def execVpub (a : R5) (w : W4) (s : State) : Out := issueA (sylVpub a w) s

/-- VDONE beside an idle syllable (R74). -/
def execVdone (w : W4) (s : State) : Out := issueA (sylVdone w) s

/-- VLATEST beside an idle syllable (R79). -/
def execVlatest (d a : R5) (s : State) : Out := issueA (sylVlatest d a) s

/-- VSUB beside an idle syllable (R81). -/
def execVsub (a : R5) (sq : BitVec 8) (s : State) : Out := issueA (sylVsub a sq) s

/-- VUNSUB beside an idle syllable (R81). -/
def execVunsub (a : R5) (sq : BitVec 8) (s : State) : Out := issueA (sylVunsub a sq) s

/-- VRETAIN beside an idle syllable (R82). -/
def execVretain (a : R5) (k : BitVec 4) (s : State) : Out := issueA (sylVretain a k) s

/-- VDROP beside an idle syllable (R84). -/
def execVdrop (a : R5) (s : State) : Out := issueA (sylVdrop a) s

end Sys2Proof.Machine
end

