-- ==== Sys2Proof/Machine/Sync.lean ====
section
/-! DEFINITION. Updates, objects, fences and sequence counters (07 R221-R227; 02 R58-R68; 03 R103). -/

namespace Sys2Proof.Machine

open Sys2Proof

/-! ## Updates (07 R222, 02 R65) -/

/-- Locked against this operator (02 R64). -/
def uLocked (s : State) (tag : BitVec 4) (pa : Nat) : Bool :=
  match s.objOf (s.keyAt pa) with
  | some b => b.lock && decide (b.op ≠ some tag)
  | none => false

/-- A cluster combines updates of this operator without asking the home: it holds the object, or owns it (02 R60, R65). -/
def uHere (s : State) (tag : BitVec 4) (cl pa : Nat) : Bool :=
  match s.coh (s.keyAt pa) with
  | .u t hs => decide (t = tag) && hs.contains cl
  | .o c => decide (c = cl)
  | _ => false

/-- The checks of an update, then its line: steps 1 to 7, then the reserved operator, the region, the lock (07 R222). It never parks, but
that an edge stage with no room holds its sender back (17 R443). -/
def updateAt (o : Strand) (s : State) (tag : BitVec 4) (size : Nat) (va : Word) (f : Nat → List (Nat × Nat)) : SylOut :=
  match check s o Acc.update size 0 va with
  | .bad r => .freeze s (if tag = 15 ∧ r.cause = Cause.uopRegion then { r with cause := Cause.uopReserved } else r) none
  | .defer r => .freeze s r none
  | .wait v => parkFor s v
  | .ok _ _ pa =>
    if tag = 15 then frz s Cause.uopReserved
    else
      match pa with
      | none => .freeze s (Raise.at' Cause.uopRegion 0 va) none
      | some p =>
        if uLocked s tag p then frz s Cause.uopLocked
        else
          let e : El := { lane := 0, va := va, loc := .mem p, rg := .plain, pa := some p }
          let here := uHere s tag (cacheOf o.core) p
          if !here && s.stageFull e then .park s .poll else .ok (s.sendUpdate e tag p (f p) here) .next

/-- URED (07 R222). -/
def sylUred (a b : R5) (tag : BitVec 4) : Syl := fun o s =>
  let z := if tag = 15 then 1 else uBytes tag
  updateAt o s tag z (o.g a) fun p => [(p, (o.g b).toNat % 2 ^ (8 * z))]

/-- UREDV (07 R222). With no active lane it makes all checks and no update. -/
def sylUredv (a v : R5) (k : K3) (tag : BitVec 4) : Syl := fun o s =>
  let z := uBytes tag
  let act := (List.range (64 / z)).filter (o.active k)
  updateAt o s tag 64 (o.g a) fun p => act.map fun i => (p + i * z, laneOf (8 * z) (o.vr v) i)

/-! ## Objects (07 R223, R224; 02 R58, R59) -/

/-- Bring an object to state I at its home: recall, merge and release, invalidate (07 R223). -/
def State.resetKey (s : State) (k : CohKey) : State :=
  match s.coh k with
  | .u _ _ => ((s.merge k).releaseHolders k).setCoh k .i
  | _ => (s.dropLines k fun _ => false).setCoh k .i

/-- The granule of physical memory behind a granule of addresses; none outside plain memory or where no page is mapped. -/
def granPa (s : State) (ctx g : Nat) : Option Nat :=
  match regionOf (BitVec.ofNat 64 (g * 256)) with
  | .inr .plain =>
    match translate s ctx (g * 256) with
    | .leaf l => if paExists l.pa ∧ (l.kind = .plain ∨ l.kind = .carved) ∧ s.kindOf (l.pa / 65536) = l.kind then some (l.pa / 256) else none
    | .bad _ _ => none
  | _ => none

/-- All granules, each once; none if one fails. -/
def granPas (s : State) (ctx : Nat) : List Nat → Option (List Nat)
  | [] => some []
  | g :: t =>
    match granPa s ctx g, granPas s ctx t with
    | some p, some l => some (if l.contains p then l else p :: l)
    | _, _ => none

/-- The physical granules of a shape, that of its base first; none is status 3 (02 R58). -/
def shapeGranules (s : State) (ctx : Nat) (sh : Shape) : Option (List Nat) :=
  if !sh.valid 0 || decide (4 < sh.rank) then none
  else
    match covers sh.elBytes sh.dims sh.base (some []), granPa s ctx (sh.base.toNat / 256) with
    | some gs, some b => (granPas s ctx gs).map fun l => b :: l.filter fun g => !decide (g = b)
    | _, _ => none

/-- Object ids in use at a slice. -/
def State.objIds (s : State) (slice : Nat) : List Nat :=
  (s.homes.objs.filter fun b => decide (b.id / 4096 = slice)).map (·.id)

/-- The word ODECL returns (07 R223). -/
def odeclWord (id status : Nat) : Word := BitVec.ofNat 64 (id * 256 + status)

/-- Declare an object over granules (02 R58, 07 R223). -/
def declare (s : State) (ctx : Nat) (op : Option (BitVec 4)) (lock : Bool) (gs : List Nat) : Word × State :=
  let slice := homeSlice (gs.headD 0 * 256)
  let used := s.objIds slice
  if 4096 ≤ used.length then (odeclWord 0 1, s)
  else if gs.any fun g => s.homes.objs.any fun b => b.granules.contains g then (odeclWord 0 2, s)
  else
    let id := slice * 4096 + firstFree (used.map fun i => i - slice * 4096) used.length 1 % 4096
    let s1 := gs.foldl (fun s g => s.resetKey (.gran g)) s
    let s2 := s1.setHomes fun h => { h with objs := h.objs ++ [{ id := id, ctx := ctx, op := op, lock := lock, granules := gs }] }
    (odeclWord id 0, match op with
      | some t => s2.setCoh (.obj id) (.u t [])
      | none => s2)

/-- The home of an object can be reached, and the clusters that it has to ask, over the granules given (17 R443). -/
def State.objectOpen (s : State) (core : Nat) (gs : List Nat) : Bool :=
  let home := dieOfSlice (s.sliceOf (gs.headD 0 * 256))
  (s.heldAt (dieOf core) home (gs.headD 0 * 256 / 4096)).isNone &&
    gs.all fun g => s.partiesOpen 0xFFFF (g * 256) .storeOwn home (g * 256 / 4096)

/-- ODECL (07 R223): the record is read in 16-byte pieces, as loads of the strand; their request type is not given: .own (DESIGN CHOICE,
log 36). What is wrong with the record is found before it goes to the home: status 3 comes before the home's 1 and 2 (02 R58 gives no
order; log 36). It parks until the home answers, so while its way there is held (17 R443). -/
def sylOdecl (d a : R5) (named lock : Bool) (tag : BitVec 4) : Syl := fun o s =>
  let at0 := o.g a
  loadEls o s .own 16 [(0, at0)] fun l s1 =>
    let h := (l.head?.map (·.2)).getD 0
    if named && decide (tag = 15) then frz s Cause.uopReserved
    else if headRank h = 0 ∨ 4 < headRank h then retG s1 d (odeclWord 0 3)
    else
      loadEls o s1 .own 16 ((List.range (headRank h)).map fun i => (0, at0 + BitVec.ofNat 64 (16 + 16 * i))) fun ds s2 =>
        match shapeGranules s2 o.ctx (shapeOf h (ds.map (·.2))) with
        | none => retG s2 d (odeclWord 0 3)
        | some gs =>
          if !s2.objectOpen o.core gs then .park s .poll else
          let r := declare s2 o.ctx (if named then some tag else none) lock gs
          retG r.2 d r.1

/-- OFREE (07 R224, 02 R59). -/
def sylOfree (a : R5) : Syl := fun o s =>
  let w := (o.g a).toNat
  match s.homes.objs.find? fun b => decide (b.id = w / 256) && decide (b.ctx = o.ctx) with
  | some b =>
    if w % 256 ≠ 0 then frz s Cause.objectInvalid
    else if !s.objectOpen o.core b.granules then .park s .poll
    else
      let s1 := s.resetKey (.obj b.id)
      .ok (s1.setHomes fun h => { h with objs := h.objs.filter fun x => !decide (x.id = b.id) }) .next
  | none => frz s Cause.objectInvalid

/-! ## Fences (03 R103, 07 R225) -/

/-- FENCE.acq: the cluster's .si copies go at die scope or wider. -/
def sylFenceAcq (x : Scope) : Syl := fun _ s => .ok (s.acquire x) .next

/-- FENCE.ll: as FENCE.acq for the copies. -/
def sylFenceLl (x : Scope) : Syl := fun _ s => .ok (s.acquire x) .next

/-- FENCE.rel. -/
def sylFenceRel (x : Scope) : Syl := fun o s => releaseHeld o s x fun s => .ok s .next

/-- FENCE.full. -/
def sylFenceFull (x : Scope) : Syl := fun o s => releaseHeld o s x fun s => .ok (s.acquire x) .next

/-! ## Sequence counters (07 R226, R227): each instruction parks until the slice that holds the file answers, so while its way is held. -/

/-- SQWAIT: parks until the test of 02 R92 holds. -/
def sylSqwait (a : R5) (ann : Option Scope) (sq : BitVec 8) : Syl := fun o s =>
  match s.fileOf o with
  | none => frz s Cause.sqNoFile
  | some f =>
    if !s.fileOpen o.core f then .park (s.awaits (.seq f sq (BitVec.ofNat 32 (o.g a).toNat))) .poll
    else if seqHolds (s.seqGet f sq) (o.g a).toNat ∨ s.me.woken = true then
      .ok (match ann with
        | some x => s.acquire x
        | none => s) .next
    else .park (s.awaits (.seq f sq (BitVec.ofNat 32 (o.g a).toNat))) .poll

/-- SQINC, with .rel after the release. -/
def sylSqinc (inc : BitVec 8) (ann : Option Scope) (sq : BitVec 8) : Syl := fun o s =>
  match s.fileOf o with
  | none => frz s Cause.sqNoFile
  | some f =>
    let go := fun (s : State) => if s.fileOpen o.core f then SylOut.ok (s.seqAdd f sq inc.toNat) .next else .park s .poll
    match ann with
    | some x => releaseHeld o s x go
    | none => go s

/-- SQRD. -/
def sylSqrd (d : R5) (sq : BitVec 8) : Syl := fun o s =>
  match s.fileOf o with
  | none => frz s Cause.sqNoFile
  | some f => if s.fileOpen o.core f then retG s d (s.seqGet f sq) else .park s .poll

/-! ## The bundles that hold one of these syllables alone (05 R142) -/

/-- URED beside an idle syllable (R222). -/
def execUred (a b : R5) (tag : BitVec 4) (s : State) : Out := issueA (sylUred a b tag) s

/-- UREDV beside an idle syllable (R222). -/
def execUredv (a v : R5) (k : K3) (tag : BitVec 4) (s : State) : Out := issueA (sylUredv a v k tag) s

/-- ODECL beside an idle syllable (R223). -/
def execOdecl (d a : R5) (named lock : Bool) (tag : BitVec 4) (s : State) : Out := issueA (sylOdecl d a named lock tag) s

/-- OFREE beside an idle syllable (R224). -/
def execOfree (a : R5) (s : State) : Out := issueA (sylOfree a) s

/-- FENCE_ACQ beside an idle syllable (R103). -/
def execFenceAcq (x : Scope) (s : State) : Out := issueA (sylFenceAcq x) s

/-- FENCE_LL beside an idle syllable (R103). -/
def execFenceLl (x : Scope) (s : State) : Out := issueA (sylFenceLl x) s

/-- FENCE_REL beside an idle syllable (R103). -/
def execFenceRel (x : Scope) (s : State) : Out := issueA (sylFenceRel x) s

/-- FENCE_FULL beside an idle syllable (R103). -/
def execFenceFull (x : Scope) (s : State) : Out := issueA (sylFenceFull x) s

/-- SQWAIT beside an idle syllable (R226). -/
def execSqwait (a : R5) (ann : Option Scope) (sq : BitVec 8) (s : State) : Out := issueA (sylSqwait a ann sq) s

/-- SQINC beside an idle syllable (R226). -/
def execSqinc (inc : BitVec 8) (ann : Option Scope) (sq : BitVec 8) (s : State) : Out := issueA (sylSqinc inc ann sq) s

/-- SQRD beside an idle syllable (R226). -/
def execSqrd (d : R5) (sq : BitVec 8) (s : State) : Out := issueA (sylSqrd d sq) s

end Sys2Proof.Machine
end

