-- ==== Sys2Proof/Machine/Engines.lean ====
section
/-! DEFINITION. Tile commands on their way to an engine: the command word (05 R164-R166, 09 R280), the target engine
(05 R165, 09 R274), merging at the combining node (09 R287) and the completion word (09 R276-R278). -/

namespace Sys2Proof.Machine

open Sys2Proof

/-! ## The command word -/

/-- Op of a command. -/
def cOp (c : Nat) : Nat := fld c 248 8
/-- The wait field is in force. -/
def cWv (c : Nat) : Bool := bit c 247
/-- The signal field is in force. -/
def cSv (c : Nat) : Bool := bit c 246
/-- A completion word is asked for. -/
def cCw (c : Nat) : Bool := bit c 245
/-- Op-specific flags. -/
def cOpf (c : Nat) : Nat := fld c 240 5
/-- Hold for partners (09 R287). -/
def cHold (c : Nat) : Bool := bit c 244
/-- Wait counter. -/
def cWsq (c : Nat) : BitVec 8 := BitVec.ofNat 8 (fld c 232 8)
/-- Wait threshold. -/
def cWth (c : Nat) : Nat := fld c 200 32
/-- Signal counter. -/
def cSsq (c : Nat) : BitVec 8 := BitVec.ofNat 8 (fld c 192 8)
/-- Signal increment. -/
def cSinc (c : Nat) : Nat := fld c 184 8
/-- Priority class. -/
def cCls (c : Nat) : Nat := fld c 176 3
/-- Target. -/
def cTgt (c : Nat) : Nat := fld c 160 16
/-- Tag. -/
def cTag (c : Nat) : Nat := fld c 144 16
/-- First shape address. -/
def cShapeA (c : Nat) : Nat := fld c 80 64
/-- Second shape address or pattern. -/
def cShapeB (c : Nat) : Nat := fld c 16 64
/-- Name of TPOST, TFLOAT and TRACK. -/
def cName (c : Nat) : Nat := fld c 112 32
/-- Version of TPOST, TFLOAT and TRACK. -/
def cVer (c : Nat) : Nat := fld c 80 32

/-- Flags an op defines (09 R280). -/
def opfAllowed (op : Nat) : Nat :=
  match op with
  | 1 | 2 | 3 | 4 => 16
  | 5 | 6 => 1
  | _ => 0

/-- Operand bits without a meaning are zero (09 R280). -/
def opdOk (c : Nat) : Bool :=
  match cOp c with
  | 1 => decide (fld c 0 59 = 0)
  | 2 | 3 => decide (fld c 0 16 = 0)
  | 4 => decide (fld c 0 4 = 0)
  | 5 => decide (fld c 0 64 = 0)
  | 6 => !bit c 128 && decide (fld c 0 (if bit c 240 then 112 else 64) = 0)
  | _ => decide (fld c 0 80 = 0)

/-- Target kinds an op allows (09 R280), and the bits of each kind (05 R165). -/
def tgtOk (c : Nat) : Bool :=
  let t := cTgt c
  let op := cOp c
  match t / 2 ^ 14 with
  | 0 => decide (op ≠ 4) && decide (t % 2 ^ 14 ≤ 143)
  | 1 => (decide (op = 2) || decide (op = 3)) && decide (t % 2 ^ 14 < 256)
  | 2 => decide (op = 4) && decide (t % 2 ^ 14 < 16)
  | _ => decide (t % 2 ^ 14 = 0)

/-- The edge and slot of TFETCH suit its issuer (09 R280). -/
def fetchOk (s : State) (o : Strand) (c : Nat) : Bool :=
  match o.crew.bind s.crew with
  | some w => decide (fld c 62 2 < 2) && w.slots.getLsbD (fld c 59 3)
  | none => false

/-- The check of QPUSHC (05 R166). -/
def commandOk (s : State) (o : Strand) (c : Nat) : Bool :=
  decide (1 ≤ cOp c) && decide (cOp c ≤ 8) && decide (fld c 179 5 = 0) &&
    (cWv c || (decide (cWsq c = 0) && decide (cWth c = 0))) && (cSv c || (decide (cSsq c = 0) && decide (cSinc c = 0))) &&
    decide (cOpf c ||| opfAllowed (cOp c) = opfAllowed (cOp c)) && opdOk c && tgtOk c &&
    (decide (cOp c ≠ 1) || fetchOk s o c) && (decide (cOp c ≠ 4) || decide (fld c 12 4 ≠ 15))

/-! ## Engines -/

/-- Slice of a core's cluster; cox and management cores use the first slice of their die (log 18). -/
def homeUnit (core : Nat) : Nat := bankSlice core

/-- The cox core of a physical page, or the home slice of one that is not in HBM4 (02 R93, 09 R282). -/
def pageEngine (pa : Nat) : Nat := if pa / 65536 ≤ 7812351 then 2304 + pa / 65536 % 256 else homeSlice pa

/-- The engine of a command: a slice's tile fetch unit, a cox core by its id, or 5000 and a Flezil port. A name's commands go
on to its home (05 R165, 09 R280). An automatic TFETCH or TREDUCE goes to the cox core of the page that its first operand names, its shape
record's; an automatic TNOTE, whose operands give neither page nor name, to the unit of its target's cluster (log 37). -/
def engineOf (s : State) (o : Strand) (c : Nat) : Nat :=
  let t := cTgt c
  let op := cOp c
  if op = 5 ∨ op = 7 ∨ op = 8 then s.nameSlice (s.spaceOf o.ctx (cName c)) (cName c)
  else
    match t / 2 ^ 14 with
    | 0 => t % 256
    | 1 => 2304 + t % 256
    | 2 => 5000 + t % 16
    | _ =>
      match op with
      | 1 | 4 =>
        match translate s o.ctx (cShapeA c) with
        | .leaf l => if paExists l.pa then pageEngine l.pa else homeUnit o.core
        | .bad _ _ => homeUnit o.core
      | 6 => homeUnit (fld c 132 12)
      | _ => homeUnit o.core

/-- Commands an engine holds at once (09 R274). -/
def engineRoom (e : Nat) : Nat := if e < 144 then 256 else if e < 5000 then 64 else 128

/-- The die of an engine; link engines stand on the port die. -/
def engineDie (e : Nat) : Nat := if e < 144 then dieOfSlice e else if e < 2560 then dieOf e else 4

/-- Places taken in an engine: by commands that have arrived and are not merged into another, and by the pieces of those that a tile fetch
unit has split (09 R274, R282). -/
def State.placed (s : State) (e : Nat) : Nat :=
  (s.cmds.filter fun c => decide (c.engine = e) && !decide (c.st = .onRoute) && !c.told &&
      !(s.cmds.any fun d => d.merged.contains c.uid)).length +
    s.cmds.foldl (fun n c => if 144 ≤ c.engine then n else
      n + (c.pieces.filter fun p => p.placed && decide (p.engine = e)).length) 0

/-- Everything but sv, cw, ssq, sinc and the tag (09 R287). -/
def sameWork (a b : Nat) : Bool :=
  let m := fun (c : Nat) => (fld c 247 9, fld c 200 40 + fld c 240 5 * 2 ^ 40, fld c 160 24, fld c 0 144)
  decide (m a = m b)

/-- The earlier command that a new one merges with (09 R287). -/
def partnerOf (s : State) (n : Cmd) : Option Cmd :=
  s.cmds.find? fun c =>
    decide (c.engine = n.engine) && decide (c.ctx = n.ctx) && sameWork c.word.toNat n.word.toNat &&
      (decide (c.st = .accepted) || decide (c.st = .held)) && decide (s.tick ≤ c.holdEnd) &&
      !(s.cmds.any fun d => d.merged.contains c.uid)

/-- A command on its way, with the counter file of its push (09 R276). -/
def State.cmdOf (s : State) (o : Strand) (w : BitVec 256 × Option SqFile) (u : Nat) : Cmd :=
  { uid := u, key := o.key, level := o.level, ctx := o.ctx, launch := o.launch, file := w.2, word := w.1,
    engine := engineOf s o w.1.toNat, st := .onRoute, refs := [], pos := 0, status := 0, aux := 0, merged := [], holdEnd := 0, panel := [],
    src := [], pins := [], dst := [], pieces := [], due := [], signalled := false, told := false, fromDie := dieOf o.core }

/-- A command arrives at its engine's combining node (09 R274, R287). -/
def State.arriveCmd (s : State) (c : Cmd) : State :=
  let n : Cmd := { c with st := if cHold c.word.toNat then .held else .accepted, holdEnd := s.tick + 64 }
  let p := (partnerOf s n).map (·.uid)
  { s with cmds := s.cmds.map fun d => if d.uid = c.uid then n else if some d.uid = p then { d with merged := d.merged ++ [c.uid] } else d }

/-- A command can enter its engine: it has room, and no module on the way holds messages (09 R274, 17 R443). -/
def canArrive (s : State) (die e : Nat) : Bool := decide (s.placed e < engineRoom e) && s.edgesQuiet die (engineDie e)

/-- Put a command on the route. -/
def State.sendCmd (s : State) (o : Strand) (w : BitVec 256 × Option SqFile) : State :=
  let (u, s1) := s.fresh
  { s1 with cmds := s1.cmds ++ [s.cmdOf o w u] }

/-- Commands that ended strands have left on the route enter their engines, each strand's in order. -/
def State.arriveAll (s : State) : State :=
  s.cmds.foldl (fun s c =>
    if c.st = .onRoute ∧ canArrive s c.fromDie c.engine = true ∧
        ((s.cmds.takeWhile fun d => !decide (d.uid = c.uid)).any fun d => decide (d.st = .onRoute) && decide (d.key = c.key)) = false then
      s.arriveCmd c else s) s

/-- Commands leave a strand's q4 in order while their engines have room (09 R274). `n` bounds the depth of q4. -/
def State.routeCmds (s : State) (key : Nat) : Nat → State
  | 0 => s
  | n + 1 =>
    match s.strand key with
    | none => s
    | some o =>
      match o.q4 with
      | [] => s
      | w :: t =>
        if canArrive s (dieOf o.core) (engineOf s o w.1.toNat) then
          ((s.sendCmd o w).arriveAll.upd key fun o => { o with q4 := t }).routeCmds key n
        else s

/-- Offer the routes again after a place was freed. -/
def State.routeAll (s : State) : State :=
  s.arriveAll.strands.foldl (fun s o => if o.q4.isEmpty ∨ o.run = .empty then s else s.routeCmds o.key 8) s.arriveAll

/-- Commands a strand has queued that are left when it ends go on to their engines, as these have room. -/
def State.routeRest (s : State) (o : Strand) : State := (o.q4.foldl (fun s w => s.sendCmd o w) s).arriveAll

end Sys2Proof.Machine
end

