-- ==== Sys2Proof/Machine/HomeEvents.lean ====
section
/-! DEFINITION. Events at the homes and in the cluster caches: object requests and merges (02 R60-R68), evictions and
invalidations (02 R94, R95), publication, racking and floating (02 R75, R85-R87). -/

namespace Sys2Proof.Machine

open Sys2Proof

/-! ## Objects (02 R60, R65, R66) -/

/-- OBJECT_REQUEST (02 R60): one row of the state table, served at the object's home. -/
def execObjectRequest (cluster pa : Nat) (req : ObjReq) (s : State) : Out := done (s.request cluster pa req)

/-- COLLECT_REQUEST (02 R66 step 1): a holder returns its partial and starts again from the identity. -/
def execCollectRequest (pa cluster : Nat) (s : State) : Out :=
  let k := s.keyAt pa
  match s.coh k with
  | .u tag hs => if hs.contains cluster then done (s.collect k tag cluster) else done s
  | _ => done s

/-- MERGE_FOLD (02 R66 step 3): what was collected is folded, clusters ascending, into the home values. -/
def execMergeFold (pa : Nat) (s : State) : Out :=
  let k := s.keyAt pa
  match s.coh k with
  | .u tag _ => done (s.foldMerge k tag)
  | _ => done s

/-- PARTIAL_EVICTION (02 R65): a partial line goes to the home's partial store with its values. -/
def execPartialEviction (cluster line : Nat) (s : State) : Out :=
  done (s.setHomes fun h =>
    { h with parts := h.parts.map fun p => if p.cluster = cluster ∧ p.pa / 64 = line then { p with parked := true } else p })

/-- One cluster's line. -/
def isLine (cluster line : Nat) (l : Line) : Bool := decide (l.cluster = cluster) && decide (l.line = line)

/-- SILENT_EVICTION (02 R94): a shared or untracked copy goes; the home's sharers stay as they are. -/
def execSilentEviction (cluster line : Nat) (s : State) : Out :=
  done (s.setHomes fun h => { h with lines := h.lines.filter fun l => !(isLine cluster line l && decide (l.dirty = 0)) })

/-- OWNED_LINE_WRITE_BACK (02 R57, R94): the dirty words are at the home and the line goes; the home still counts the owner. -/
def execOwnedLineWriteBack (cluster line : Nat) (s : State) : Out :=
  done (s.setHomes fun h => { h with lines := h.lines.filter fun l => !isLine cluster line l })

/-- INVALIDATION_RECEIVE (02 R94, R95): an invalidation takes the copy; a recall leaves it clean, its dirty words returned. A
line that is not there is acknowledged as not present. -/
def execInvalidationReceive (cluster line : Nat) (rcl : Bool) (s : State) : Out :=
  done (s.setHomes fun h =>
    { h with lines := if rcl then h.lines.map fun l => if isLine cluster line l then { l with dirty := 0 } else l
                      else h.lines.filter fun l => !isLine cluster line l })

/-! ## Versions (02 R75, R85-R87) -/

/-- VERSION_PUBLISH (02 R75): one atomic step at the home, once what it sends can leave: the routes to its subscribers, and the port of its package, are up (17 R443, R450). -/
def execVersionPublish (ver : Nat) (s : State) : Out :=
  match s.ver ver with
  | some v => if s.pubOpen v.space v.name then done (s.publish ver) else done s
  | none => done s

/-- A version that can be published now. -/
def publishDue (s : State) (v : Ver) : Bool :=
  decide (v.st = .completed) && !v.doomed && decide (v.num = (s.nameRec v.space v.name).latest + 1) && s.pubOpen v.space v.name

/-- Die of a version's home. -/
def State.verDie (s : State) (v : Ver) : Nat := s.nameDie v.space v.name

/-- HBM4 frames of a die's racking pool: kind tile, in a channel of the die (16 R410, R413). -/
def State.rackPool (s : State) (die : Nat) : List Nat :=
  (s.fw.fkinds.filter fun p => decide (p.2 = .tile) && decide (p.1 ≤ 7812351) && decide (p.1 % 256 / 64 = die)).map (·.1)

/-- HBM4 pieces that versions hold. -/
def State.rackUsed (s : State) : List Nat := s.homes.vers.foldl (fun l v => v.hbm ++ l) []

/-- Frames of the pool with nothing on them. -/
def State.rackFree (s : State) (die : Nat) : List Nat :=
  let used := s.rackUsed
  (s.rackPool die).filter fun f => !(used.any fun p => decide (p / 65536 = f))

/-- Room in HBM4 for a version of a class; none when the pool has too little (log 9). -/
def State.takeRack (s : State) (die : Nat) (c : TileClass) : Option (List Nat) :=
  let free := s.rackFree die
  match c with
  | .k64 => (free.head?).map fun f => [f * 65536]
  | .m1 => if free.length < 16 then none else some ((free.take 16).map (· * 65536))
  | .k4 =>
    let used := s.rackUsed
    let small := s.homes.vers.foldl (fun l v => if v.cls = .k4 then v.hbm ++ l else l) []
    let shared := (s.rackPool die).findSome? fun f =>
      if small.any fun p => decide (p / 65536 = f) then
        (List.range 16).findSome? fun i => if used.contains (f * 65536 + i * 4096) then none else some (f * 65536 + i * 4096)
      else none
    match shared with
    | some p => some [p]
    | none => (free.head?).map fun f => [f * 65536]

/-- Begin the copy to HBM4: reads go on from the SRAM frame (02 R86). -/
def State.startRack (s : State) (u : Nat) : State :=
  match s.ver u with
  | none => s
  | some v =>
    match s.takeRack (s.verDie v) v.cls with
    | none => s
    | some fs => (s.updVer u fun v => { v with st := .racking, hbm := fs }).later (.rackComplete u)

/-- The rack age of a slice in cycles, where TIER_CONFIG set one (02 R85, 16 R405). -/
def State.ageOf (s : State) (slice : Nat) : Option Nat :=
  (s.homes.rackAge.find? fun p => decide (p.1 = slice)).map fun p => p.2 * 3600

/-- The policy racks a version now: it is eligible, and idle for the age, or the one to go while its die is short of frames
(02 R85). -/
def rackDue (s : State) (v : Ver) : Bool :=
  rackable s v && ((s.ageOf (s.nameSlice v.space v.name)).any (fun a => decide (v.used + a ≤ s.tick)) ||
    (shortVictim s (s.verDie v)).any fun x => decide (x.uid = v.uid))

/-- RACK_START (02 R85). -/
def execRackStart (ver : Nat) (s : State) : Out :=
  match s.ver ver with
  | some v => if rackDue s v then done (s.startRack ver) else done s
  | none => done s

/-- RACK_COMPLETE (02 R86): the copy ends, the version is racked and its SRAM frame free. -/
def execRackComplete (ver : Nat) (s : State) : Out :=
  match s.ver ver with
  | some v =>
    if v.st = .racking then done (s.updVer ver fun v => { v with st := .racked, frames := [] }) else done s
  | none => done s

/-- FLOAT_COMPLETE (02 R86): the copy to a tile frame ends and the version is afloat; without a frame it waits for one. -/
def execFloatComplete (ver : Nat) (s : State) : Out :=
  match s.ver ver with
  | some v =>
    if v.st = .floating then
      match s.takeTile (s.nameSlice v.space v.name) v.cls with
      | some (fs, s1) => done (s1.updVer ver fun v => { v with st := .afloat, frames := fs, hbm := [], used := s.tick })
      | none => done (s.makeRoom (s.verDie v))
    else done s
  | none => done s

end Sys2Proof.Machine
end

