-- ==== Sys2Proof/Machine/Links.lean ====
section
/-! DEFINITION. Links: their state words and commands (17 R437-R443). -/

namespace Sys2Proof.Machine

open Sys2Proof

/-- The rank of this package in a context's group; 0 without one. -/
def ownRank (s : State) (ctx : Nat) : Nat :=
  match (s.ctxOf ctx).bind (·.group) with
  | some (_, _, r) => r
  | none => 0

/-- Type code of a link id (17 R437). -/
def linkType (l : Nat) : Nat := if l < 64 then 0 else if l < 96 then 1 else if l < 112 then 2 else 3

/-- Change a link. -/
def State.setLink (s : State) (l : Nat) (f : Link → Link) : State := { s with links := s.links.setIfInBounds l (f (s.link l)) }

/-- LNKSTAT.alert (17 R441). -/
def linkAlert (x : Link) : Bool := decide (x.thr.toNat ≤ x.win.toNat)

/-- LNKSTAT (17 R441). -/
def lnkstat (l : Nat) (x : Link) : Word :=
  BitVec.ofNat 64 (Nat.min 255 (x.held / 16) * 2 ^ 24 + x.rb % 256 * 2 ^ 16 + (if linkAlert x then 2 ^ 15 else 0) +
    (if x.cerr then 2 ^ 14 else 0) + linkType l * 2 ^ 10 + (if x.half then 2 ^ 9 else 0) + (if x.width then 2 ^ 8 else 0) + x.st.toNat)

/-- Flits in a replay buffer: 128 of a UCIe module, 256 of a Flezil port (17 R438, R446). -/
def bufferFlits (l : Nat) : Nat := if linkType l = 2 then 256 else 128

/-- The link whose edge stage holds the head of a strand's mesh channel now. -/
def wordHeldAt (s : State) (o : Strand) (q : Nat) : Option Nat :=
  if (o.qout.getD q []).isEmpty then none else (facing o.core q).bind fun c => s.heldAt (dieOf o.core) (dieOf c) (coreKey c 0)

/-- The link that holds a message for a strand of this package or for another rank now; a port that is not up holds what its route takes. -/
def messageHeldAt (s : State) (o : Strand) (d : Word) : Option Nat :=
  let rank := fld d.toNat 16 16
  if d.getLsbD 15 && !decide (rank = ownRank s o.ctx) then
    match s.heldAt (dieOf o.core) 4 (coreKey o.core 0) with
    | some l => some l
    | none => if portUp s rank then none else (portOf s rank).map (96 + ·)
  else
    let c := d.toNat % 2 ^ 15 / 8
    s.heldAt (dieOf o.core) (dieOf c) (coreKey c 0)

/-- Messages that wait at the edge stages of a link: stores and updates, arrival notices, mesh words and messages; one flit each
(17 R441, R443; log 50). -/
def State.heldOn (s : State) (l : Nat) : Nat :=
  (s.homes.posted.filter fun p => decide (s.heldAt (dieOf p.core) p.die p.rkey = some l) ||
      (rankAt p.loc).any fun r => !portUp s r && decide ((portOf s r).map (96 + ·) = some l)).length +
    (s.homes.notices.filter fun n => (s.strand n.1).any fun o => decide (s.heldAt
      (s.pubDie (s.spaceOf o.ctx (n.2.toNat / 2 ^ 32)) (n.2.toNat / 2 ^ 32)) (dieOf o.core) (coreKey o.core 0) = some l)).length +
    (s.fw.ports.filter fun m => !portUp s m.1.toNat && decide ((portOf s m.1.toNat).map (96 + ·) = some l)).length +
    s.strands.foldl (fun n o => n + ((List.range 4).filter fun q => decide (wordHeldAt s o q = some l)).length +
      (o.q6.head?.elim 0 fun m => if messageHeldAt s o m.1 = some l then 1 else 0)) 0

/-- LNKSTAT of a link as it stands. -/
def State.lnkstatOf (s : State) (l : Nat) : Word := lnkstat l { s.link l with held := s.heldOn l }

/-- LNKERR (17 R441). -/
def lnkerr (x : Link) : Word := BitVec.ofNat 64 (x.retry.toNat * 2 ^ 32 + x.win.toNat)

/-- LNKCTL reads the width and half chosen for the next training. -/
def lnkctl (x : Link) : Word := BitVec.ofNat 64 ((if x.ctlHalf then 32 else 0) + (if x.ctlWidth then 16 else 0))

/-- LNKBAD: a Flezil port uses 8 bits, an Igvos port none. -/
def lnkbad (l : Nat) (x : Link) : Word :=
  if linkType l = 3 then 0 else if linkType l = 2 then BitVec.ofNat 64 (x.bad.toNat % 256) else x.bad

/-- Post a LINK event (16 R402): the link id and a state word. -/
def State.linkEvent (s : State) (l : Nat) (x : Word) : State := s.event 5 (BitVec.ofNat 64 l) x 0

/-- A command in a state that does not list it: cerr, and nothing else (17 R442). -/
def State.linkRefuse (s : State) (l : Nat) : State := s.setLink l fun x => { x with cerr := true }

/-- A link changes its state: st takes a code, and the change is on record (17 R441, 18 R465). -/
def State.linkTo (s : State) (l st : Nat) (f : Link → Link) : State :=
  let s1 := s.setLink l fun x => { f x with st := BitVec.ofNat 4 st, since := s.tick }
  s1.blackBox 4 4 st l 0 (lnkerr (s1.link l))

/-- A command was accepted. -/
def noCerr (x : Link) : Link := { x with cerr := false }

/-- A message is for a rank of this package in its group. -/
def forUs (s : State) (m : BitVec 16 × Word × Word) : Bool :=
  s.fw.ctxs.any fun c => match c.group with
    | some (g, _, r) => decide (g = fld m.2.1.toNat 16 12) && decide (r = m.1.toNat)
    | none => false

/-- Messages held at the ports for other packages leave, in order, where their route is up (17 R447, R448). -/
def State.flushPorts (s : State) : State :=
  s.setFw fun f => { f with ports := f.ports.filter fun m => forUs s m || !portUp s m.1.toNat }

/-- A held module lets its flits in again, in order (17 R442). -/
def State.linkUp (s : State) (l : Nat) : State := (s.linkTo l 2 fun x => { noCerr x with rb := 0 }).flushPorts.letIn

/-- A state in which a command of LNKCTL.cmd is accepted (17 R442); an Igvos port takes none (17 R441). -/
def cmdAccepted (l st cmd : Nat) : Bool :=
  !decide (linkType l = 3) && match cmd with
    | 1 => decide (st = 2)
    | 2 => decide (st = 4) || decide (st = 6)
    | 3 => decide (st = 4)
    | 4 => decide (st = 4) || decide (st = 6)
    | 5 => decide (st = 0)
    | _ => false

/-- A retrain or a train begins with the width, half and map that are written now (17 R441). -/
def beginTest (training : Bool) (x : Link) : Link :=
  { noCerr x with training := training, wantWidth := x.ctlWidth, wantHalf := x.ctlHalf, wantMap := x.map }

/-- A command of LNKCTL.cmd (17 R442). What the replay buffers hold as a hold begins is a free value (log 8). -/
def State.linkCmd (s : State) (l cmd : Nat) : State :=
  if cmd = 0 then s
  else if cmdAccepted l (s.link l).st.toNat cmd = false then s.linkRefuse l
  else
    match cmd with
    | 1 =>
      let (n, s1) := s.freeNo
      s1.linkTo l 3 fun x => { noCerr x with rb := Nat.max x.stuck (Config.heldFlits n % (bufferFlits l + 1)) }
    | 2 => s.linkTo l 5 (beginTest false)
    | 3 => s.linkUp l
    | 4 => ((s.linkTo l 0 fun x => { noCerr x with rb := 0 }).linkEvent l 0).letIn
    | _ => s.linkTo l 1 (beginTest true)

/-- LNKERR.retry saturates (17 R441). -/
def oneRetry (x : Link) : Link :=
  { x with retry := if x.retry = BitVec.allOnes 32 then x.retry else x.retry + 1, winCount := x.winCount + 1 }

end Sys2Proof.Machine
end

