-- ==== Sys2Proof/Machine/EngineOps.lean ====
section
/-! DEFINITION. Engines at work: starting, the eight operations, and completion of tile commands (09 R275-R287; 17 R451). -/

namespace Sys2Proof.Machine

open Sys2Proof

/-! ## Command records -/

/-- The command of a handle. -/
def State.cmd (s : State) (uid : Nat) : Option Cmd := s.cmds.find? fun c => decide (c.uid = uid)

/-- Change a command. -/
def State.updCmd (s : State) (uid : Nat) (f : Cmd → Cmd) : State :=
  { s with cmds := s.cmds.map fun c => if c.uid = uid then f c else c }

/-- A command that runs inside another. -/
def isMerged (s : State) (c : Cmd) : Bool := s.cmds.any fun d => d.merged.contains c.uid

/-- A command and those merged with it, in arrival order (09 R287). -/
def groupOf (s : State) (c : Cmd) : List Cmd := c :: s.cmds.filter fun d => c.merged.contains d.uid

/-- The whole group ends with a status; companion accesses that waited for its lines are offered again. -/
def State.finishAll (s : State) (c : Cmd) (status : Nat) (aux : Word) : State :=
  ((groupOf s c).foldl (fun s d =>
    (s.updCmd d.uid fun d => { d with st := .finished, status := BitVec.ofNat 8 status, aux := aux }).later (.commandComplete d.uid)) s).unpark

/-- The issuer, as the engine translates for it (09 R274). -/
def asIssuer (c : Cmd) : Strand := { Strand.blank with level := c.level, ctx := c.ctx }

/-- The cache an engine's accesses go through: its slice's, or its die's (log 18). -/
def engineCache (e : Nat) : Nat := if e < 144 then e else if e < 2560 then 144 + dieOf e else 144

/-! ## Starting (09 R275, R287) -/

/-- The wait field of a command holds (02 R92). -/
def waitHolds (s : State) (c : Cmd) : Bool :=
  !cWv c.word.toNat || c.file.any fun f => seqHolds (s.seqGet f (cWsq c.word.toNat)) (cWth c.word.toNat)

/-- Ready to start: arrived, not held, not merged away, and every issuer's wait holds. -/
def cmdReady (s : State) (c : Cmd) : Bool :=
  decide (c.st = .accepted) && !isMerged s c && (groupOf s c).all (waitHolds s)

/-- The ready command of an engine that goes first: highest class, then arrival (09 R275). -/
def nextCmd (s : State) (e : Nat) : Option Cmd :=
  (s.cmds.filter fun c => decide (c.engine = e) && cmdReady s c).foldl (fun (b : Option Cmd) c => match b with
    | some x => if cCls x.word.toNat < cCls c.word.toNat then some c else some x
    | none => some c) none

/-- The event of an op. -/
def opEvent (op uid : Nat) : Ev :=
  match op with
  | 1 => .tfetch uid
  | 2 => .tcopy uid
  | 3 => .tfill uid
  | 4 => .treduce uid
  | 5 => .tpost uid
  | 6 => .tnote uid
  | 7 => .tfloat uid
  | _ => .track uid

/-- COMMAND_START (09 R275): the engine takes its next ready command. -/
def execCommandStart (uid : Nat) (s : State) : Out :=
  match s.cmd uid with
  | none => done s
  | some c =>
    if (nextCmd s c.engine).map (·.uid) = some uid then
      done ((s.updCmd uid fun c => { c with st := .started }).later (opEvent (cOp c.word.toNat) uid))
    else done s

/-- COMBINING_HOLD_EXPIRY (09 R287): 64 cycles at the combining node are over. -/
def execCombiningHoldExpiry (uid : Nat) (s : State) : Out :=
  match s.cmd uid with
  | none => done s
  | some c => if c.st = .held ∧ c.holdEnd ≤ s.tick then done (s.updCmd uid fun c => { c with st := .accepted }) else done s

/-! ## Completion (09 R276, R277) -/

/-- Does a status apply the signal. -/
def goodStatus (x : BitVec 8) : Bool := decide (x.toNat ≤ 1)

/-- The completion word (09 R277); `aux` holds origin and poison. -/
def completionWord (c : Cmd) : Word :=
  BitVec.ofNat 64 (c.status.toNat * 2 ^ 56 + cOp c.word.toNat * 2 ^ 48 + cTag c.word.toNat * 2 ^ 32) ||| c.aux

/-- Commands that are over leave their engine, and those that wait on the route come in. -/
def State.sweepCmds (s : State) : State :=
  State.routeAll { s with cmds := s.cmds.filter fun c => !(c.told && (groupOf s c).all (·.told)) }

/-- A command is complete: the references that it held itself drop (02 R82, 09 R279). -/
def State.tell (s : State) (c : Cmd) : State :=
  ((c.refs.foldl State.unref s).updCmd c.uid fun c => { c with refs := [], told := true }).sweepCmds

/-- A command's engine reaches its counter file (17 R443). -/
def signalOpen (s : State) (c : Cmd) (f : SqFile) : Bool := s.edgesQuiet (engineDie c.engine) (dieOfSlice (s.fileSlice f))

/-- The signal of a command that has ended would be applied now: by its status, and no module on the way holds messages. -/
def signalDue (s : State) (c : Cmd) : Bool :=
  !(cSv c.word.toNat && goodStatus c.status) || c.file.all (signalOpen s c)

/-- A command's engine reaches a strand's core with a word (17 R443). -/
def wordOpen (s : State) (c : Cmd) (key : Nat) : Bool :=
  (s.strand key).all fun o => s.wayOpen (engineDie c.engine) (dieOf o.core) (coreKey o.core 0) (.mem (lkey o.core 0))

/-- COMMAND_COMPLETE (09 R276): the signal is applied on success, then the word is delivered or waits for room in q5; only then is the
command complete. A TREDUCE that ends POISONED delivers its word whatever cw says: R276 pushes it on success with cw = 1 and on every
error, and POISONED is neither plainly (DESIGN CHOICE, log 37). -/
def execCommandComplete (uid : Nat) (s : State) : Out :=
  match s.cmd uid with
  | none => done s
  | some c =>
    if c.st ≠ .finished ∨ c.told = true ∨ (c.signalled = false ∧ signalDue s c = false) then done s
    else
      let s1 := if c.signalled then s
        else
          let s0 := s.updCmd uid fun c => { c with signalled := true }
          if cSv c.word.toNat && goodStatus c.status then
            match c.file with
            | some f => s0.seqAdd f (cSsq c.word.toNat) (cSinc c.word.toNat)
            | none => s0
          else s0
      if c.status ≠ 0 ∨ cCw c.word.toNat = true then
        if !wordOpen s1 c c.key then done s1 else
        let (took, s2) := s1.deliver c.key 5 (completionWord c) 0
        if took then done (s2.tell c) else done s1
      else done (s1.tell c)

/-! ## Shapes and places (09 R279) -/

/-- What an engine finds: something, an error of its command with the table line that caused it, or that it has to wait. -/
inductive Got (α : Type) where
  | ok (x : α)
  | bad (status : Nat) (ue : Option (Nat × Nat))
  | wait

/-- Go on with what was found. -/
def Got.andThen {α β : Type} (x : Got α) (f : α → Got β) : Got β :=
  match x with
  | .ok a => f a
  | .bad e u => .bad e u
  | .wait => .wait

/-- The TLBs an engine translates through (16 R419). -/
def engineTlbs (e : Nat) : List Nat := if e < 144 then [sliceTlb e] else if e < 2560 then tlbsOf e else []

/-- The die that homes a place outside local memory, and the key of a route there (17 R439). -/
def State.homeOf (s : State) (l : Loc) : Nat × Nat :=
  match l with
  | .tile v off => ((s.ver v).elim 0 fun r => dieOfSlice (s.nameSlice r.space r.name), s.framePa v off / 4096)
  | .mem k => if paExists k then (dieOfSlice (s.sliceOf k), k / 4096) else (4, k % 2 ^ 44 / 4096)

/-- An engine has to wait for a place: its frame moves, another engine owns its line, a module or a port on the way is not up, or, to
write it, a reservation stands on it (16 R414, 03 R101, R110, 17 R443, R448). -/
def State.engineWaits (s : State) (e : Nat) (wr : Bool) (l : Loc) : Bool :=
  (match l with
    | .mem k => s.heldPa k || (wr && s.reservedFrom 0 l 1)
    | .tile _ _ => false) || !s.wayOpen (engineDie e) (s.homeOf l).1 (s.homeOf l).2 l

/-- The place of a byte at an address, for an engine. -/
def byteAt (s : State) (c : Cmd) (wr : Bool) (va : Word) : Got Loc :=
  let bad := fun (x : Cause) => if x = Cause.frameKindMismatch then 5 else 4
  match regionOf va with
  | .inr .plain =>
    match translateAt s (engineTlbs c.engine) (engineDie c.engine) c.ctx va.toNat with
    | .bad x ue => .bad (bad x) ue
    | .leaf l =>
      match placeOf s (asIssuer c) l with
      | none => .bad 4 none
      | some (p, _) =>
        match leafCheck s (asIssuer c) (if wr then Acc.store else Acc.load) false l with
        | some x => .bad (bad x) none
        | none => .ok p
  | _ => .bad 2 none

/-- The places of n bytes from an address. -/
def bytesAt (s : State) (c : Cmd) (wr : Bool) (va : Word) : Nat → Got (List Loc)
  | 0 => .ok []
  | n + 1 => (byteAt s c wr va).andThen fun p => (bytesAt s c wr (va + 1) n).andThen fun l => .ok (p :: l)

/-- Bytes at a list of places. -/
def State.gather (s : State) (l : List Loc) : List Byte := l.map s.byte

/-- Physical addresses of this package among places, one for each granule of 02 R58. -/
def granulesOf (ls : List Loc) : List Nat :=
  (ls.foldl (fun acc p => match p with
    | .mem k => if paExists k then insertCl (k / 256) acc else acc
    | .tile _ _ => acc) []).map (· * 256)

/-- An engine reads places as plain memory: U objects are merged first (02 R66, 03 R110), and versions are in use (02 R85). -/
def State.engineReads (s : State) (e : Nat) (ls : List Loc) : State :=
  let s1 := (granulesOf ls).foldl (fun s pa => s.request (engineCache e) pa .loadSi) s
  match ls.head? with
  | some p => s1.useTile p
  | none => s1

/-- The translations of a record's first byte stay in the engine's TLBs (16 R419). -/
def State.engineWalk (s : State) (c : Cmd) (va : Nat) : State := s.noteWalk (engineTlbs c.engine) (engineDie c.engine) c.ctx va

/-- Read n bytes of a record from an address. -/
def readRecord (s : State) (c : Cmd) (va : Word) (n : Nat) : Got (List Byte × State) :=
  (bytesAt s c false va n).andThen fun l =>
    if l.any (s.engineWaits c.engine false) then .wait
    else
      let s1 := (s.engineReads c.engine l).engineWalk c va.toNat
      if l.any s1.poisonedAt then .bad 8 none else .ok (s1.gather l, s1)

/-- Read a shape record at the start of a command (09 R279). -/
def readShape (s : State) (c : Cmd) (va : Nat) : Got (Shape × State) :=
  let a := BitVec.ofNat 64 va
  if va % 16 ≠ 0 then .bad 2 none
  else
    (readRecord s c a 16).andThen fun x =>
      let h := leNat x.1
      let r := headRank h
      if r = 0 ∨ 10 < r then .bad 2 none
      else
        (readRecord x.2 c (a + 16) (16 * r)).andThen fun y =>
          let sh := shapeOf h ((List.range r).map fun i => leNat ((y.1.drop (16 * i)).take 16))
          if sh.valid 1 then .ok (sh, y.2) else .bad 2 none

/-- The elements' places, and the version they lie in. -/
abbrev Placed := List (List Loc) × Option Nat

/-- Places of elements of a version by byte offset. -/
def tilePlaces (sh : Shape) (v : Ver) : Got Placed :=
  let n := sh.elBytes
  let offs := (List.range sh.count).map fun i => (elementAt sh.dims 0 i).toNat
  if offs.any fun o => decide (v.cls.size < o + n) then .bad 2 none
  else .ok (offs.map fun o => (List.range n).map fun i => Loc.tile v.uid (o + i), some v.uid)

/-- Places of elements of plain memory. -/
def plainPlaces (s : State) (c : Cmd) (wr : Bool) (sh : Shape) : Nat → Got (List (List Loc))
  | 0 => .ok []
  | n + 1 =>
    (plainPlaces s c wr sh n).andThen fun l => (bytesAt s c wr (sh.addr n) sh.elBytes).andThen fun p => .ok (l ++ [p])

/-- Resolve the elements of a shape, as a source or a destination (09 R279). -/
def placeShape (s : State) (c : Cmd) (wr : Bool) (sh : Shape) : Got Placed :=
  if sh.flags % 2 = 1 then
    let name := fld sh.base.toNat 32 32
    let num := fld sh.base.toNat 0 32
    let space := s.spaceOf c.ctx name
    let v := if wr then (s.versOf space name).find? fun v => decide (v.num = num) && decide (v.st = .drafted)
      else s.pubVer space name (if num = 0 then (s.nameRec space name).latest else num)
    match v with
    | some v => tilePlaces sh v
    | none => .bad 6 none
  else (plainPlaces s c wr sh sh.count).andThen fun l => .ok (l, none)

/-- The 64 KiB page of a place. -/
def pageOf : Loc → Nat
  | .mem k => k / 65536
  | .tile v o => 2 ^ 63 + v * 64 + o / 65536

/-- Coherence of an engine's sources and destinations (03 R110): a plain read; ownership of each destination. -/
def State.engineTakes (s : State) (c : Cmd) (src dst : List (List Loc)) : State :=
  (granulesOf dst.flatten).foldl (fun s pa => s.request (engineCache c.engine) pa .storeOwn) (s.engineReads c.engine src.flatten)

/-- After an error the engine releases the ownership of every line it had taken, those it has written among them (09 R276). -/
def State.engineReleases (s : State) (c : Cmd) : State :=
  let cl := engineCache c.engine
  c.owned.foldl (fun s pa => if s.coh (s.keyAt pa) = .o cl then s.setCoh (s.keyAt pa) .i else s) s

/-- References of a command, and of each that is merged with it, on its source version, from its start on (02 R82, 09 R279). -/
def State.refSource (s : State) (c : Cmd) (v : Option Nat) : State :=
  match v with
  | some u => (groupOf s c).foldl (fun s d => (s.updVer u addRef).updCmd d.uid fun c => { c with refs := u :: c.refs }) s
  | none => s

/-- A command ends with an error: a table line that it could not read is blocked and reported (16 R421), its lines are released. -/
def State.failCmd (s : State) (c : Cmd) (status : Nat) (ue : Option (Nat × Nat)) : State :=
  let s1 := s.engineReleases c
  let s2 := match ue with
    | some (line, level) => s1.blockLine line level c.ctx
    | none => s1
  (s2.updCmd c.uid fun c => { c with pieces := [], dst := [], src := [] }).finishAll c status 0

/-- Granules that a set of places covers whole lose their poison (18 R455). -/
def State.clearWhole (s : State) (ls : List Loc) : State :=
  { s with poison := s.poison.filter fun g =>
      !((List.range 8).all fun i => ls.any fun p => decide (granule p = g) && decide (inGranule p = i)) }

/-- Write bytes at places. -/
def State.scatter (s : State) (ls : List Loc) (bs : List Byte) : State := (ls.zip bs).foldl (fun s p => s.put p.1 [p.2]) s

/-- An engine's writes leave no older untracked copy of their lines in the cache its accesses go through (02 R56, log 18). -/
def State.freshCopies (s : State) (e : Nat) (ls : List Loc) : State :=
  let cl := engineCache e
  let wrote := fun (n : Nat) => ls.any fun p => match p with
    | .mem k => decide (k / 64 = n)
    | .tile _ _ => false
  s.setHomes fun h => { h with lines := h.lines.filter fun l => !(decide (l.cluster = cl) && l.si && wrote l.line) }

/-- Write elements at their places. -/
def State.writeEls (s : State) (ls : List (List Loc)) (vs : List (List Byte)) : State :=
  ((ls.zip vs).foldl (fun s p => s.scatter p.1 p.2) s).clearWhole ls.flatten

/-- A place whose draft is open no more: abandoned, completed or gone (09 R278). -/
def draftGone (s : State) (l : Loc) : Bool :=
  match l with
  | .tile v _ => !((s.ver v).any fun r => decide (r.st = .drafted))
  | .mem _ => false

/-- A command aimed at a cox core that does not own every destination page (09 R278, R282). -/
def wrongCox (c : Cmd) (dst : List (List Loc)) : Bool :=
  decide (cTgt c.word.toNat / 2 ^ 14 = 1) && dst.any fun l => l.any fun p => match p with
    | .mem k => !(decide (k / 65536 ≤ 7812351) && decide (2304 + k / 65536 % 256 = c.engine))
    | .tile _ _ => true

/-! ## TCOPY and TFILL (09 R282) -/

/-- What one pass of an op gives: it waits, goes on, or ends with a status. -/
inductive OpOut where
  | wait
  | on (s : State)
  | ends (s : State) (status : Nat)
  | fails (status : Nat) (ue : Option (Nat × Nat))

/-- Go on with what an engine found. -/
def Got.pass {α : Type} (x : Got α) (f : α → OpOut) : OpOut :=
  match x with
  | .ok a => f a
  | .bad e u => .fails e u
  | .wait => .wait

/-- The engine of a piece: the cox core of its page, the home's unit of a draft or a carved page, the port of another package's; a
page of the companion stays with the splitting unit (09 R282, 17 R449). -/
def pieceEngine (s : State) (c : Cmd) (l : Loc) : Nat :=
  match l with
  | .tile v _ => (s.ver v).elim c.engine fun r => s.nameSlice r.space r.name
  | .mem k =>
    if paExists k then pageEngine k
    else if 2 ^ 62 ≤ k then 5000 + (portOf s ((k - 2 ^ 62) / 2 ^ 44)).getD 0
    else c.engine

/-- The pages of some places, each once, in order of first use. -/
def pagesOf : List Loc → List Nat
  | [] => []
  | p :: t => pageOf p :: (pagesOf t).filter fun q => !decide (q = pageOf p)

/-- The pieces of a copy: one for each destination page, sent to its engine; a command aimed at a cox core is one piece that stays there
(09 R282). -/
def piecesOf (s : State) (c : Cmd) (dst : List Loc) (vals : List Byte) : List Piece :=
  if 144 ≤ c.engine then [{ engine := c.engine, placed := true, dst := dst, vals := vals }]
  else
    (pagesOf dst).filterMap fun g =>
      let mine := (dst.zip vals).filter fun x => decide (pageOf x.1 = g)
      mine.head?.map fun x =>
        { engine := pieceEngine s c x.1, placed := false, dst := mine.map (·.1), vals := mine.map (·.2) }

/-- Sources and destinations are resolved: the references stand from here on, whatever the command has to wait for next (09 R279). -/
def resolved (s : State) (c : Cmd) (src dst : Placed) : OpOut :=
  .on ((s.refSource c src.2).updCmd c.uid fun c => { c with st := .resolved, src := src.1, dst := dst.1 })

/-- The checks that TCOPY and TFILL share. -/
def copyTo (s : State) (c : Cmd) (src dst : Placed) : OpOut :=
  if wrongCox c dst.1 then .fails 0x0B none
  else if src.1.any fun l => l.any fun p => dst.1.any fun m => m.any fun q => decide (pageOf p = pageOf q) then .fails 7 none
  else resolved s c src dst

/-- Something keeps a resolved command from its places. -/
def resolvedWaits (s : State) (c : Cmd) : Bool :=
  c.src.flatten.any (s.engineWaits c.engine false) || c.dst.flatten.any (s.engineWaits c.engine true)

/-- What a copy writes: the source elements, or the pattern's low bits in every element of a TFILL. -/
def copyVals (s : State) (c : Cmd) : List (List Byte) :=
  if cOp c.word.toNat = 3 then c.dst.map fun l => natLE l.length (cShapeB c.word.toNat) else c.src.map s.gather

/-- A resolved copy reads its source, owns its destination, and sends its pieces. -/
def takeCopy (s : State) (c : Cmd) : OpOut :=
  if c.dst.flatten.any (draftGone s) then .fails 6 none
  else if resolvedWaits s c then .wait
  else if c.src.any fun l => l.any s.poisonedAt then .fails 8 none
  else
    let s1 := s.engineTakes c c.src c.dst
    .on (s1.updCmd c.uid fun d =>
      { d with st := .running, pieces := piecesOf s c c.dst.flatten (copyVals s1 c).flatten, owned := granulesOf c.dst.flatten, src := [], dst := [] })

/-- TCOPY at its start. -/
def startCopy (s : State) (c : Cmd) : OpOut :=
  (readShape s c (cShapeA c.word.toNat)).pass fun a => (readShape a.2 c (cShapeB c.word.toNat)).pass fun b =>
    if a.1.fmt ≠ b.1.fmt ∨ a.1.count ≠ b.1.count then .fails 3 none
    else
      (placeShape b.2 c false a.1).pass fun src => (placeShape b.2 c true b.1).pass fun dst =>
        copyTo b.2 c src dst

/-- TFILL at its start. -/
def startFill (s : State) (c : Cmd) : OpOut :=
  (readShape s c (cShapeA c.word.toNat)).pass fun b => (placeShape b.2 c true b.1).pass fun dst =>
    copyTo b.2 c ([], none) dst

/-- The first piece that finds a place in its engine takes it; none when none does. -/
def placeFirst (s : State) : List Piece → Option (List Piece)
  | [] => none
  | p :: t =>
    if !p.placed && decide (s.placed p.engine < engineRoom p.engine) then some ({ p with placed := true } :: t)
    else (placeFirst s t).map (p :: ·)

/-- A piece can write all its places now. -/
def pieceDue (s : State) (p : Piece) : Bool :=
  p.placed && p.dst.all fun l => match l with
    | .mem k => !s.frameMoving k && s.wayOpen (engineDie p.engine) (s.homeOf l).1 (s.homeOf l).2 l
    | .tile _ _ => s.wayOpen (engineDie p.engine) (s.homeOf l).1 (s.homeOf l).2 l

/-- A running copy: pieces find places and are written side by side; the command ends with its last. A draft that is open no more ends it
with VERSION, and what is left is not written (09 R282). -/
def runPieces (s : State) (c : Cmd) : OpOut :=
  if c.pieces.isEmpty then .ends s 0
  else if c.pieces.any fun p => p.dst.any (draftGone s) then .fails 6 none
  else
    match placeFirst s c.pieces with
    | some ps => .on (s.updCmd c.uid fun c => { c with pieces := ps })
    | none =>
      match c.pieces.find? (pieceDue s) with
      | some p =>
        .on ((((s.scatter p.dst p.vals).clearWhole p.dst).freshCopies c.engine p.dst).updCmd c.uid fun c => { c with pieces := c.pieces.erase p })
      | none => .wait

/-- TCOPY: its start, then its lines, then its pieces. -/
def runCopy (s : State) (c : Cmd) : OpOut :=
  if c.st = .started then startCopy s c else if c.st = .resolved then takeCopy s c else runPieces s c

/-- TFILL: its start, then its lines, then its pieces. -/
def runFill (s : State) (c : Cmd) : OpOut :=
  if c.st = .started then startFill s c else if c.st = .resolved then takeCopy s c else runPieces s c

/-- Apply a pass to a command that has started. -/
def runOp (uid : Nat) (f : State → Cmd → OpOut) (s : State) : Out :=
  match s.cmd uid with
  | none => done s
  | some c =>
    if c.st = .started ∨ c.st = .resolved ∨ c.st = .running then
      match f s c with
      | .wait => done s
      | .on s1 => done s1
      | .ends s1 e => done (s1.finishAll c e 0)
      | .fails e u => done (s.failCmd c e u)
    else done s

/-- TCOPY (09 R282). -/
def execTcopy (uid : Nat) (s : State) : Out := runOp uid runCopy s

/-- TFILL (09 R282). -/
def execTfill (uid : Nat) (s : State) : Out := runOp uid runFill s

/-! ## TPOST, TNOTE, TFLOAT, TRACK (09 R284-R286) -/

/-- TPOST: one contribution, after setting the count where asked; an error changes nothing. -/
def runPost (s : State) (c : Cmd) : OpOut :=
  let w := c.word.toNat
  let space := s.spaceOf c.ctx (cName w)
  match (s.versOf space (cName w)).find? fun v => decide (v.num = cVer w) && decide (v.st = .drafted) with
  | none => .ends s 6
  | some v =>
    let n := fld w 64 16
    if bit w 240 then
      if n = 0 ∨ v.count.isSome ∨ n ≤ v.contrib then .ends s 6
      else .ends ((s.updVer v.uid fun v => { v with count := some n }).contribute v.uid) 0
    else if v.count.any fun k => decide (k ≤ v.contrib) then .ends s 6
    else .ends (s.contribute v.uid) 0

/-- TPOST (09 R284). -/
def execTpost (uid : Nat) (s : State) : Out := runOp uid runPost s

/-- TNOTE: a payload into q7, or an increment of the target's file. -/
def runNote (s : State) (c : Cmd) : OpOut :=
  let w := c.word.toNat
  match s.slotStrand (fld w 132 12 * 8 + fld w 129 3) c.ctx with
  | none => .ends s 0x0B
  | some o =>
    if bit w 240 then
      match s.fileOf o with
      | some f => if signalOpen s c f then .ends (s.seqAdd f (BitVec.ofNat 8 (fld w 120 8)) (fld w 112 8)) 0 else .wait
      | none => .ends s 0x0B
    else if !wordOpen s c o.key then .wait
    else
      let (took, s1) := s.deliver o.key 7 (BitVec.ofNat 64 (fld w 64 64)) 0
      if took then .ends s1 0 else .wait

/-- TNOTE (09 R285). -/
def execTnote (uid : Nat) (s : State) : Out := runOp uid runNote s

/-- The version TFLOAT or TRACK moves. -/
def movedVer (s : State) (c : Cmd) : Option Ver :=
  let name := cName c.word.toNat
  let space := s.spaceOf c.ctx name
  s.pubVer space name (if cVer c.word.toNat = 0 then (s.nameRec space name).latest else cVer c.word.toNat)

/-- An earlier TFLOAT or TRACK of the same version is not over (09 R286). -/
def earlierMove (s : State) (c : Cmd) : Bool :=
  (s.cmds.takeWhile fun d => !decide (d.uid = c.uid)).any fun d =>
    decide (d.st = .running) && decide (7 ≤ cOp d.word.toNat) && decide (d.pos = c.pos)

/-- The pages of HBM4 that a move of a version copies from or to: those of the frames it has there, or would take (02 R93). -/
def movePages (s : State) (v : Ver) : List Nat := if v.hbm.isEmpty then (s.takeRack (s.verDie v) v.cls).getD [] else v.hbm

/-- The move's pieces: one for each 64 KiB page of HBM4, at its cox core (02 R93). -/
def movePieces (s : State) (v : Ver) : List Piece :=
  (movePages s v).map fun a => { engine := pageEngine a, placed := false, dst := [], vals := [] }

/-- The command's pieces are those of the pages that the move would copy now: no other move has taken the frames meanwhile (02 R93). -/
def piecesStand (s : State) (c : Cmd) (v : Ver) : Bool := decide (c.pieces.map (·.engine) = (movePieces s v).map (·.engine))

/-- TFLOAT and TRACK after the start: the version goes where the command says, one move at a time, once each page has its place in its
cox core (02 R93). -/
def moveOn (s : State) (c : Cmd) : State :=
  match s.ver c.pos with
  | none => s.finishAll c 6 0
  | some v =>
    if earlierMove s c then s
    else
      let there : VState := if cOp c.word.toNat = 7 then .afloat else .racked
      let away : VState := if cOp c.word.toNat = 7 then .racked else .afloat
      if v.st = there then (s.updCmd c.uid fun c => { c with pieces := [] }).finishAll c 0 0
      else if v.st ≠ away then s
      else if piecesStand s c v = false then s.updCmd c.uid fun c => { c with pieces := movePieces s v }
      else
        match placeFirst s c.pieces with
        | some ps => s.updCmd c.uid fun c => { c with pieces := ps }
        | none => if c.pieces.all (·.placed) then (if away = .racked then s.wantFloat v.uid else s.startRack v.uid) else s

/-- TFLOAT and TRACK: the version is found at the start. -/
def runMove (uid : Nat) (s : State) : Out :=
  match s.cmd uid with
  | none => done s
  | some c =>
    match c.st with
    | .started =>
      match movedVer s c with
      | none => done (s.finishAll c 6 0)
      | some v => done (moveOn (s.updCmd uid fun c => { c with st := .running, pos := v.uid }) { c with st := .running, pos := v.uid })
    | .running => done (moveOn s c)
    | _ => done s

/-- TFLOAT (09 R286). -/
def execTfloat (uid : Nat) (s : State) : Out := runMove uid s

/-- TRACK (09 R286). -/
def execTrack (uid : Nat) (s : State) : Out := runMove uid s

/-! ## TFETCH (09 R281) -/

/-- Words of a list of places with their addresses, each with the address of its first poisoned granule (18 R457). `n` bounds the words. -/
def readWords (s : State) : Nat → List (Loc × Word) → List (Word × Option Word)
  | 0, _ => []
  | n + 1, l =>
    let w := l.take 8
    (leWord (s.gather (w.map (·.1))), (w.find? fun p => s.poisonedAt p.1).map fun p => p.2 - BitVec.ofNat 64 (p.2.toNat % 8)) ::
      readWords s n (l.drop 8)

/-- The addresses of the bytes of a shape's elements: for a version not stated, a free value for each granule (18 R457; log 44). -/
def shapeVas (sh : Shape) (l : List (List Loc)) : List Word :=
  (l.zipIdx).flatMap fun e => (e.1.zipIdx).map fun b => match b.1 with
    | .tile v off => Config.versionVa v (off / 8)
    | .mem _ => sh.addr e.2 + BitVec.ofNat 64 b.2

/-- Cut a list into pieces of n; `k` bounds the pieces. -/
def cut {α : Type} (n : Nat) : Nat → List α → List (List α)
  | 0, _ => []
  | k + 1, l => l.take n :: cut n k (l.drop n)

/-- Crew of a TFETCH. -/
def fetchCrew (s : State) (c : Cmd) : Option Crew :=
  match c.file with
  | some (.crew u) => s.crew u
  | _ => none

/-- Edge members of a crew in order: strand ids (09 R281). -/
def edgeSids (w : Crew) (north : Bool) (slot : Nat) : List Nat :=
  (List.range (if north then w.w else w.h)).map fun i =>
    coreAt w.die (w.oy + if north then 0 else i) (w.ox + if north then i else 0) * 8 + slot

/-- The member strand of a crew in a slot. -/
def crewAt (s : State) (w : Crew) (sid : Nat) : Option Strand :=
  s.strands.find? fun o => decide (o.sid = sid) && decide (o.crew = some w.uid) && !decide (o.run = .empty) && o.ump.isNone

/-- One command for each crew of a group: the first (09 R287). -/
def crewReps (s : State) (c : Cmd) : List Cmd :=
  (groupOf s c).foldl (fun l d => if l.any fun e => decide (e.file = d.file) then l else l ++ [d]) []

/-- The commands of one crew end with a status. -/
def State.finishCrew (s : State) (c r : Cmd) (status : Nat) : State :=
  ((groupOf s c).filter fun d => decide (d.file = r.file)).foldl (fun s d =>
    (s.updCmd d.uid fun d => { d with st := .finished, status := BitVec.ofNat 8 status }).later (.commandComplete d.uid)) s

/-- Can a member take a vector now: running, with room, nothing held for it. -/
def takesVector (o : Strand) (q : Nat) : Bool :=
  !defersInbox o && o.inbox.isEmpty && decide (inCount o q + 8 ≤ qDepth q)

/-- Put a vector into a channel, its poisoned words marked. -/
def enterVector (q : Nat) (ws : List (Word × Option Word)) (o : Strand) : Strand :=
  let l := o.qin.getD q []
  let b := o.qbad.getD q []
  { o with qin := o.qin.setIfInBounds q (l ++ ws.map (·.1))
           qbad := if ws.all fun w => w.2.isNone then o.qbad
             else o.qbad.setIfInBounds q (b ++ List.replicate (l.length - b.length) none ++ ws.map (·.2)) }

/-- What can happen next for one crew of a TFETCH. -/
inductive FetchStep where
  | gone
  | over
  | put (o : Strand) (q : Nat) (ws : List (Word × Option Word))
  | blocked

/-- A delivered vector has been popped: by its member, or before that ended (09 R281). -/
def poppedBy (s : State) (q : Nat) (d : Nat × Nat) : Bool :=
  decide (d.2 = 0) || (s.strand d.1).any fun o => decide (d.2 ≤ o.popped.getD q 0)

/-- The queue of a TFETCH's edge. -/
def fetchQ (c : Nat) : Nat := if fld c 62 2 = 1 then 0 else 3

/-- Vectors of a panel: read and still to read. -/
def panelLen (c : Cmd) : Nat := c.panel.length + c.src.length

/-- Edge member i of m still has to get or to pop a vector. -/
def memberOwed (s : State) (c r : Cmd) (m i : Nat) : Bool :=
  let w := r.word.toNat
  ((List.range (panelLen c)).any fun j => decide (r.pos ≤ j) && decide (j * 64 / fld w 64 16 % m = i)) ||
    (r.due.zipIdx).any fun d => decide (d.2 * 64 / fld w 64 16 % m = i) && !poppedBy s (fetchQ w) d.1

/-- A crew's delivery stands at the boundary of a unit. -/
def atUnit (r : Cmd) : Bool := decide (r.st = .finished) || decide (r.pos * 64 % fld r.word.toNat 64 16 = 0)

/-- A checkpoint has begun and its paused stream is not over: a TFETCH begins no unit (18 R476). -/
def State.pausing (s : State) : Bool := s.fw.ckpt.any fun k => decide (k.phase ≤ 2)

/-- The next step of one crew's delivery; `c` leads the group and holds its panel. A killed member ends it, and one that has ended before it
had all its units (09 R281; log 37). -/
def fetchStep (s : State) (c r : Cmd) : FetchStep :=
  let w := r.word.toNat
  match fetchCrew s r with
  | none => .gone
  | some k =>
    let q := fetchQ w
    let ids := edgeSids k (decide (fld w 62 2 = 1)) (fld w 59 3)
    if ids.any k.gone.contains then .gone
    else if (ids.zipIdx).any fun x => (crewAt s k x.1).isNone && memberOwed s c r ids.length x.2 then .gone
    else
      match c.panel.drop r.pos with
      | [] => if c.src.isEmpty && r.due.all (poppedBy s q) then .over else .blocked
      | ws :: _ =>
        if s.pausing && atUnit r then .blocked
        else
        match crewAt s k (ids.getD (r.pos * 64 / fld w 64 16 % ids.length) 0) with
        | some o => if takesVector o q then .put o q ws else .blocked
        | none => .gone

/-- Vector j of a panel has been popped by every crew that still goes on. -/
def vectorFree (s : State) (c : Cmd) (j : Nat) : Bool :=
  (crewReps s c).all fun r =>
    decide (r.st = .finished) || (decide (j < r.pos) && (r.due[j]?).all (poppedBy s (fetchQ r.word.toNat)))

/-- Source lines of running TFETCH commands that are pinned in a slice (09 R281). -/
def pinnedLines (s : State) (slice : Nat) : Nat :=
  s.cmds.foldl (fun n c =>
    if isMerged s c then n
    else (c.pins.zipIdx).foldl (fun n p => if vectorFree s c p.2 then n else n + (p.1.filter fun i => decide (i = slice)).length) n) 0

/-- The home slices of a vector's lines, one for each line. -/
def vectorPins (s : State) (ls : List Loc) : List Nat :=
  let lines := ls.foldl (fun (acc : List (Bool × Nat × Nat)) p => if acc.contains (lineOf p) then acc else lineOf p :: acc) []
  lines.map fun x =>
    if x.1 then (s.ver x.2.1).elim 0 fun r => s.nameSlice r.space r.name
    else if paExists (x.2.2 * 64) then s.sliceOf (x.2.2 * 64) else 0

/-- The next vector of a panel can be read: its lines fit the 1 MiB pin budget of their slices, and nothing keeps the engine from them
(09 R281). -/
def canRead (s : State) (c : Cmd) : Bool :=
  match c.src with
  | [] => false
  | ls :: _ =>
    let ps := vectorPins s ls
    !(s.pausing && (crewReps s c).all atUnit) && (ps.all fun i => decide (pinnedLines s i + (ps.filter fun j => decide (j = i)).length ≤ 16384)) &&
      !(ls.any (s.engineWaits c.engine false))

/-- Read the next vector of a panel. -/
def readVector (s : State) (c : Cmd) : State :=
  match c.src with
  | [] => s
  | ls :: t =>
    let s1 := s.engineReads c.engine ls
    s1.updCmd c.uid fun c =>
      { c with src := t, vas := c.vas.drop 1, panel := c.panel ++ [readWords s1 8 (ls.zip (c.vas.headD []))], pins := c.pins ++ [vectorPins s ls] }

/-- One delivery of a running TFETCH: the first crew that can go on does. -/
def fetchOn (s : State) (c : Cmd) : List Cmd → State
  | [] => s
  | r :: t =>
    if r.st = .finished then fetchOn s c t
    else
      match fetchStep s c r with
      | .gone => s.finishCrew c r 0x0A
      | .over => s.finishCrew c r 0
      | .blocked => fetchOn s c t
      | .put o q ws =>
        let last := o.popped.getD q 0 + inCount o q + ws.length
        (s.upd o.key (enterVector q ws)).updCmd r.uid fun d => { d with pos := d.pos + 1, due := d.due ++ [(o.key, last)] }

/-- One step of a running TFETCH: it reads while it may, and delivers. -/
def fetchGo (s : State) (c : Cmd) : State := if canRead s c then readVector s c else fetchOn s c (crewReps s c)

/-- The panel's size suits a crew's edge and the unit. What a unit size outside 64 to 16,384, or no multiple of 64, gives is not stated: the
command runs and ends with SHAPE_MISMATCH, as a unit that does not divide the panel (DESIGN CHOICE, log 37). -/
def fetchFits (s : State) (bytes : Nat) (r : Cmd) : Bool :=
  match fetchCrew s r with
  | some w =>
    let u := fld r.word.toNat 64 16
    let m := if fld r.word.toNat 62 2 = 1 then w.w else w.h
    decide (64 ≤ u) && decide (u ≤ 16384) && decide (u % 64 = 0) && decide (bytes % (m * u) = 0)
  | none => true

/-- The start of a TFETCH: its shape is read and its panel resolved. -/
def fetchStart (s : State) (c : Cmd) : OpOut :=
  (readShape s c (cShapeA c.word.toNat)).pass fun a => (placeShape a.2 c false a.1).pass fun src =>
    let bytes := a.1.count * a.1.elBytes
    let s2 := a.2.refSource c src.2
    let s3 := (groupOf s c).foldl (fun s d => s.updCmd d.uid fun d => { d with st := .running }) s2
    let s4 := s3.updCmd c.uid fun c => { c with src := cut 64 (bytes / 64) src.1.flatten, vas := cut 64 (bytes / 64) (shapeVas a.1 src.1) }
    .on ((crewReps s c).foldl (fun s r => if fetchFits s bytes r then s else s.finishCrew c r 3) s4)

/-- TFETCH (09 R281): the start, then one vector read, one delivered, or one completion at a time. -/
def execTfetch (uid : Nat) (s : State) : Out :=
  match s.cmd uid with
  | none => done s
  | some c =>
    match c.st with
    | .started => runOp uid fetchStart s
    | .onRoute | .accepted | .held => done s
    | _ => done (fetchGo s c)

/-! ## TREDUCE (09 R283, 17 R451) -/

/-- Member ranks of a collective group, ascending. -/
def collRanks (s : State) (g : Nat) : List Nat :=
  match s.fw.colls.find? fun p => decide (p.1 = g) with
  | some p => (List.range 16).filter fun i => p.2.getLsbD i
  | none => []

/-- How the links to the other members stand: up, held, or down. -/
inductive Reach where
  | up | held | down
  deriving DecidableEq, Repr

/-- The state of the routes to ranks (17 R448): Flezil port p is link 96 + p. -/
def reach (s : State) (ranks : List Nat) : Reach :=
  let st := fun (r : Nat) => match portOf s r with
    | some p => (s.link (96 + p)).st.toNat
    | none => 0
  if ranks.any fun r => decide (st r = 0) then .down else if ranks.any fun r => decide (st r ≠ 2) then .held else .up

/-- A format that holds an operator's element (02 R61, 09 R283). -/
def uFmtOk (tag : BitVec 4) (fmt : Nat) : Bool :=
  match tag.toNat, fmtOf fmt with
  | 0, some .int32 | 0, some .uint32 => true
  | 1, some .int64 | 1, some .uint64 | 6, some .int64 | 6, some .uint64 | 7, some .int64 | 7, some .uint64
  | 8, some .int64 | 8, some .uint64 | 14, some .int64 | 14, some .uint64 => true
  | 2, some .int64 | 3, some .int64 => true
  | 4, some .uint64 | 5, some .uint64 => true
  | 9, some .fp32 | 11, some .fp32 | 12, some .fp32 => true
  | 10, some .fp64 => true
  | 13, some .bf16 => true
  | _, _ => false

/-- Operator tag of a TREDUCE. -/
def rTag (c : Cmd) : BitVec 4 := BitVec.ofNat 4 (fld c.word.toNat 12 4)
/-- Group of a TREDUCE. -/
def rGroup (c : Cmd) : Nat := fld c.word.toNat 4 8

/-- Other members of a TREDUCE's group. -/
def otherRanks (s : State) (c : Cmd) : List Nat := (collRanks s (rGroup c)).filter fun r => !decide (r = ownRank s c.ctx)

/-- The start of a TREDUCE: its checks, and its sources and destinations (09 R279, R283). -/
def reduceStart (s : State) (c : Cmd) : OpOut :=
  if !(collRanks s (rGroup c)).contains (ownRank s c.ctx) then .fails 0x0B none
  else
    (readShape s c (cShapeA c.word.toNat)).pass fun a => (readShape a.2 c (cShapeB c.word.toNat)).pass fun b =>
      if a.1.fmt ≠ b.1.fmt ∨ a.1.count ≠ b.1.count ∨ uFmtOk (rTag c) a.1.fmt = false then .fails 3 none
      else (placeShape b.2 c false a.1).pass fun src => (placeShape b.2 c true b.1).pass fun dst => resolved b.2 c src dst

/-- The physical address of a place; 0 where it has none in this package. -/
def State.paOf (s : State) (l : Loc) : Nat :=
  match l with
  | .mem k => if paExists k then k else 0
  | .tile v off => s.framePa v off

/-- A resolved TREDUCE: the exchange with the other members (17 R451), then this package's contributions are read, each poisoned word with the
physical address of its granule (18 R464; log 22). -/
def reduceTake (s : State) (c : Cmd) : OpOut :=
  let (n, s1) := s.freeNo
  let others := otherRanks s c
  if c.dst.flatten.any (draftGone s) then .fails 6 none
  else if others ≠ [] ∧ reach s others = .held then .wait
  else if others ≠ [] ∧ reach s others = .down then .fails 9 none
  else if others ≠ [] ∧ Config.linkAgree n = false then .ends s1 3
  else if resolvedWaits s c then .wait
  else
    let s2 := s1.engineTakes c c.src c.dst
    let per := 4096 / uBytes (rTag c)
    let vals := c.src.map fun l => (leWord (s2.gather l), (l.find? s2.poisonedAt).map fun p => BitVec.ofNat 64 (s2.paOf p / 8 * 8))
    .on (s2.updCmd c.uid fun d =>
      { d with st := .running, panel := cut per ((c.src.length + per - 1) / per) vals, owned := granulesOf c.dst.flatten, src := [] })

/-- TREDUCE up to its first chunk. -/
def reducePass (s : State) (c : Cmd) : OpOut := if c.st = .resolved then reduceTake s c else reduceStart s c

/-- The lower of two origins. -/
def lowerOrigin (a b : Option Nat) : Option Nat :=
  match a, b with
  | some x, some y => some (Nat.min x y)
  | some x, none => some x
  | none, y => y

/-- Chunk i as all members get it: what reaches this package from the lower ranks, folded with its own contribution, then with those of the
higher ranks, in ascending rank (17 R451). What the other packages contribute is free (log 22). -/
def foldedChunk (s : State) (c : Cmd) (i n : Nat) (own : List (Word × Option Word)) : List Nat :=
  let tag := rTag c
  let ranks := collRanks s (rGroup c)
  let me := ownRank s c.ctx
  let mine := own.map fun w => uWiden tag w.1.toNat
  let got := if ranks.head? = some me then mine
    else (mine.zipIdx).map fun w => uCombine tag false (Config.linkElement n i w.2).toNat w.1
  ((ranks.filter fun r => decide (me < r)).zipIdx 1).foldl (fun acc r =>
    (acc.zipIdx).map fun w => uCombine tag false w.1 (uWiden tag ((Config.linkElement (n + 2 ^ 32 * r.2) i w.2).toNat % 2 ^ (8 * uBytes tag)))) got

/-- The lowest rank whose chunk i is poisoned. -/
def chunkOrigin (s : State) (c : Cmd) (i n : Nat) (own : List (Word × Option Word)) : Option Nat :=
  let me := ownRank s c.ctx
  let others := otherRanks s c
  let from' := fun (p : Nat → Bool) (x : Option Nat) => x.filter fun r => others.contains r && p r
  lowerOrigin (if own.any (·.2.isSome) then some me else none)
    (lowerOrigin (from' (fun r => decide (r < me)) (Config.linkPoison n i)) (from' (fun r => decide (me < r)) (Config.linkPoison (n + 2 ^ 32) i)))

/-- One chunk: what the last member sends is written, unless it is poisoned; the origin package reports its own error, from the port die
(17 R451, 18 R464, R465). -/
def foldChunk (s : State) (c : Cmd) (i : Nat) (own : List (Word × Option Word)) : State :=
  let tag := rTag c
  let (n, s1) := s.freeNo
  let origin := chunkOrigin s c i n own
  let s2 := match own.findSome? (·.2) with
    | some pa => if origin = some (ownRank s c.ctx) then s1.reportUe 6 (pa.toNat % 2 ^ 44) 4 else s1
    | none => s1
  let per := 4096 / uBytes tag
  let s3 := match origin with
    | some _ => s2
    | none => (s2.writeEls (c.dst.take per) ((foldedChunk s c i n own).map fun x => natLE (uBytes tag) (uNarrow tag x))).freshCopies c.engine
        (c.dst.take per).flatten
  s3.updCmd c.uid fun c =>
    { c with pos := i + 1, dst := c.dst.drop per, aux := match origin with
        | some r => if c.aux = 0 then BitVec.ofNat 64 (r * 65536 + 1)
            else BitVec.ofNat 64 (Nat.min r (fld c.aux.toNat 16 16) * 65536 + 1)
        | none => c.aux }

/-- COLLECTIVE_CHUNK_FOLD (17 R451): the next chunk of a running TREDUCE, while its links are up. -/
def execCollectiveChunkFold (uid chunk : Nat) (s : State) : Out :=
  match s.cmd uid with
  | none => done s
  | some c =>
    if c.st = .running ∧ cOp c.word.toNat = 4 ∧ c.pos = chunk then
      match c.panel.drop chunk with
      | own :: _ => done (foldChunk s c chunk own)
      | [] => done s
    else done s

/-- The next chunk cannot be written now: a frame moves, or the way to a home is held (16 R414, 17 R443). -/
def chunkWaits (s : State) (c : Cmd) : Bool :=
  (c.dst.take (4096 / uBytes (rTag c))).flatten.any fun l => (match l with
    | .mem k => s.frameMoving k
    | .tile _ _ => false) || !s.wayOpen (engineDie c.engine) (s.homeOf l).1 (s.homeOf l).2 l

/-- A running TREDUCE: its next chunk, VERSION when its draft is open no more, its end, or LINK when a port it needs is down (17 R448). -/
def reduceOn (s : State) (c : Cmd) : State :=
  match c.panel.drop c.pos with
  | [] => s.finishAll c (if c.aux = 0 then 0 else 1) c.aux
  | _ :: _ =>
    if c.dst.flatten.any (draftGone s) then s.failCmd c 6 none
    else
    match reach s (otherRanks s c) with
    | .down => s.failCmd c 9 none
    | .held => s
    | .up => if chunkWaits s c then s else s.later (.collectiveChunkFold c.uid c.pos)

/-- TREDUCE (09 R283). -/
def execTreduce (uid : Nat) (s : State) : Out :=
  match s.cmd uid with
  | none => done s
  | some c =>
    match c.st with
    | .started | .resolved => runOp uid reducePass s
    | .running => done (reduceOn s c)
    | _ => done s

/-! ## Going on (09 R275-R286) -/

/-- A pass that does something. -/
def passes : OpOut → Bool
  | .wait => false
  | _ => true

/-- A move that can go on now. -/
def moveDue (s : State) (c : Cmd) : Bool :=
  !earlierMove s c && match s.ver c.pos with
    | none => true
    | some v =>
      if cOp c.word.toNat = 7 then decide (v.st = .afloat) || (decide (v.st = .racked) && placesDue s c v)
      else decide (v.st = .racked) || (decide (v.st = .afloat) && (s.takeRack (s.verDie v) v.cls).isSome && placesDue s c v)
where
  placesDue (s : State) (c : Cmd) (v : Ver) : Bool :=
    !piecesStand s c v || (placeFirst s c.pieces).isSome || c.pieces.all (·.placed)

/-- A command whose op can go on now. -/
def opDue (s : State) (c : Cmd) : Bool :=
  !isMerged s c &&
    match cOp c.word.toNat, c.st with
    | 1, .running | 1, .finished =>
      (crewReps s c).any fun r => decide (r.st = .running) && (canRead s c || match fetchStep s c r with
        | .blocked => false
        | _ => true)
    | 1, .started => passes (fetchStart s c)
    | 4, .started | 4, .resolved => passes (reducePass s c)
    | 4, .running => decide (c.panel.length ≤ c.pos) || c.dst.flatten.any (draftGone s) || decide (reach s (otherRanks s c) = .down) ||
        (decide (reach s (otherRanks s c) = .up) && !chunkWaits s c)
    | 7, .running | 8, .running => moveDue s c
    | 2, .started | 2, .resolved | 2, .running => passes (runCopy s c)
    | 3, .started | 3, .resolved | 3, .running => passes (runFill s c)
    | 6, .started => passes (runNote s c)
    | _, _ => false

/-- A completion that can be made now: its word has room, or its strand is gone. -/
def completeDue (s : State) (c : Cmd) : Bool :=
  decide (c.st = .finished) && !c.told &&
    (if c.signalled then wordOpen s c c.key && (s.deliver c.key 5 (completionWord c) 0).1 else signalDue s c)

/-- A TFETCH is paused: at a unit's boundary, or in a unit whose strand takes no more of it (18 R476; log 27). -/
def fetchPaused (s : State) (c : Cmd) : Bool :=
  isMerged s c || !decide (c.st = .running) ||
    (crewReps s c).all fun r => atUnit r || (!canRead s c && match fetchStep s c r with
      | .blocked => true
      | _ => false)

/-- What the engines do next by themselves. -/
def engineEvent (s : State) : Option Ev :=
  match s.cmds.find? (completeDue s) with
  | some c => some (.commandComplete c.uid)
  | none =>
    match s.cmds.find? (opDue s) with
    | some c => some (opEvent (cOp c.word.toNat) c.uid)
    | none =>
      match s.cmds.find? fun c => decide (c.st = .held) && decide (c.holdEnd ≤ s.tick) with
      | some c => some (.combiningHoldExpiry c.uid)
      | none =>
        if s.pausing then none
        else (s.cmds.find? fun c => decide ((nextCmd s c.engine).map (·.uid) = some c.uid)).map fun c => .commandStart c.uid

end Sys2Proof.Machine
end

