-- ==== Sys2Proof/Machine/Reservation.lean ====
section
/-! DEFINITION. Queued reservations and atomics (07 R214-R220). -/

namespace Sys2Proof.Machine

open Sys2Proof

/-- The queue of an address. -/
def State.rqueue (s : State) (k : Nat) : RQueue :=
  (s.homes.resv.find? fun r => decide (r.loc = k)).getD { loc := k, q := [], killed := false }

/-- Replace a queue; one with nothing to remember is dropped. -/
def State.setRqueue (s : State) (r : RQueue) : State :=
  s.setHomes fun h =>
    let rest := h.resv.filter fun x => !decide (x.loc = r.loc)
    { h with resv := if r.q.isEmpty && !r.killed then rest else r :: rest }

/-- Reservations a strand holds (07 R216). -/
def State.heldBy (s : State) (key : Nat) : Nat :=
  (s.homes.resv.filter fun r => r.q.any fun x => decide (x.key = key) && x.held).length

/-- Where an address's waiter entries lie: a core's bank, or a slice (07 R215, R219). -/
def State.waiterHome (s : State) (k : Nat) : Nat := if 2 ^ 60 ≤ k then 2 ^ 20 + (k - 2 ^ 60) / 2 ^ 17 else s.sliceOf k

/-- No waiter entry is free (07 R219). -/
def State.waitersFull (s : State) (k : Nat) : Bool :=
  let h := s.waiterHome k
  let n := (s.homes.resv.filter fun r => decide (s.waiterHome r.loc = h)).foldl (fun n r => n + (r.q.length - 1)) 0
  decide ((if 2 ^ 20 ≤ h then 64 else 1024 : Nat) ≤ n)

/-- The holder leaves and the next waiter takes its place (07 R217). Stores that wait for the last of them are parked bundles, tried again
at their turns (03 R101). -/
def State.handOn (s : State) (k : Nat) : State :=
  let r := s.rqueue k
  let s1 := s.setRqueue { r with q := r.q.drop 1 }
  if (r.q.drop 1).isEmpty then s1 else s1.later (.reservationHandoff k)

/-- What an enqueue finds (07 R216). -/
inductive Place where
  | head
  | waits
  | busy
  | self
  | limit
  deriving DecidableEq, Repr

/-- The place of a strand at an address: standing already from its own parked bundle, which goes on once the word has come; or by a new
enqueue. -/
def State.placeAt (s : State) (o : Strand) (k : Nat) : Place :=
  let r := s.rqueue k
  match r.q.find? fun x => decide (x.key = o.key) with
  | some x => if x.held || !o.asked then .self else if x.word.isSome then .head else .waits
  | none =>
    if 4 ≤ s.heldBy o.key then .limit
    else if r.q.isEmpty then .head
    else if s.waitersFull k then .busy
    else .waits

/-- Enter the queue if not yet in it. -/
def State.enqueue (s : State) (key k : Nat) (w32 : Bool) : State :=
  let r := s.rqueue k
  if r.q.any fun x => decide (x.key = key) then s
  else s.setRqueue { r with q := r.q ++ [{ key := key, w32 := w32, held := false, word := none }] }

/-- A parked enqueue: the bundle's own place in the queue. -/
def State.waitFor (s : State) (key k : Nat) (w32 : Bool) : State := (s.enqueue key k w32).setMe fun o => { o with asked := true }

/-- The word that the head of a queue receives: the one handed to it, else what stands at the bank (07 R216). -/
def State.wordOf (s : State) (l : Loc) (k n : Nat) : Nat :=
  match (s.rqueue k).q.head?.bind (·.word) with
  | some w => w.toNat
  | none => s.loadNat l n

/-- The head becomes the holder, its killed status taken. -/
def State.hold (s : State) (k : Nat) : State :=
  let r := s.rqueue k
  s.setRqueue { r with killed := false, q := match r.q with
    | x :: t => { x with held := true, word := none } :: t
    | [] => [] }

/-- Scope of a reservation's annotations: system for a word homed off the package (07 R214). -/
def resvScope (rg : Region) (pa : Option Nat) : Scope :=
  match rg, pa with
  | .plain, none => .sys
  | _, _ => .pkg

/-- The checks of a reservation or atomic; a failure freezes (07 R197, R215). -/
def atomicAt (o : Strand) (s : State) (a : Acc) (size : Nat) (va : Word) (k : El → State → SylOut) : SylOut :=
  match check s o a size 0 va with
  | .bad r => .freeze s r none
  | .defer r => .freeze s r none
  | .wait v => parkFor s v
  | .ok l rg pa =>
    let e : El := { lane := 0, va := va, loc := l, rg := rg, pa := pa }
    if s.away e || s.linePosted l || s.partiesHeld e .atomic then .park s .poll else k e (s.noteUse e)

/-- Coherence of an access of n bytes at the home (02 R60); its cluster's untracked copy takes the words it reads (03 R102). -/
def State.atHome (s : State) (e : El) (n : Nat) : State :=
  match cohPa e with
  | some pa => (s.request (cacheOf s.me.core) pa .atomic).refreshCopy (cacheOf s.me.core) pa (wordMask pa n)
  | none => s

/-- Write the word of a reservation: a counted store (03 R108), which its cluster's untracked copy takes too (03 R102). -/
def State.writeWord (s : State) (e : El) (n x : Nat) : State :=
  let p := s.postOf .nc e ((natLE n x).map some)
  let s1 := match p.slice with
    | some i => s.counted p.key i p.rkey
    | none => if offPackage e.loc then (s.setMe fun o => { o with acks := o.acks + 1 }).later (.remoteAccessComplete p.key) else s
  match cohPa e with
  | some pa => (s1.put e.loc (natLE n x)).updateCopy (cacheOf s.me.core) pa ((natLE n x).map some)
  | none => s1.put e.loc (natLE n x)

/-- LRW (07 R216): the word comes from the bank, or with the hand-off. After a freeze with RESERVATION_ORPHANED or UE_CONSUMED the reservation is held, and FRES retry delivers
the word of the freeze record. -/
def sylLrw (d a : R5) (w : Bool) : Syl := fun o s =>
  let n := wBytes w
  atomicAt o s Acc.lrw n (o.g a) fun e s =>
    let k := locKey e.loc
    match s.placeAt o k with
    | .self => if o.answer = some none then retG (s.acquire .pkg) d o.frz.datum else frz s Cause.reservationSelf
    | .limit => frz s Cause.reservationLimit
    | p =>
      if !o.replay.isEmpty then frz s Cause.replayHold
      else
        match p with
        | .head =>
          let s1 := (s.enqueue o.key k w).atHome e n
          let x := BitVec.ofNat 64 (s1.wordOf e.loc k n)
          if (s1.rqueue k).killed then
            .freeze (s1.hold k) { Raise.of Cause.reservationOrphaned with datum := x } none
          else
            match s1.poisonIn e.loc n with
            | some i => .freeze (s1.hold k) { ueRaise e i with datum := x } none
            | none => retG ((s1.hold k).acquire (resvScope e.rg e.pa)) d x
        | .waits => .park (s.waitFor o.key k w) .poll
        | _ => .park s .poll

/-- Does a strand hold the reservation at an address, with a width where one is asked for. -/
def State.holds (s : State) (key k : Nat) (w : Option Bool) : Bool :=
  match (s.rqueue k).q with
  | x :: _ => decide (x.key = key) && x.held && decide (w.getD x.w32 = x.w32)
  | [] => false

/-- SCH (07 R217). -/
def sylSch (a b : R5) (w : Bool) : Syl := fun o s =>
  let n := wBytes w
  atomicAt o s Acc.sch n (o.g a) fun e s =>
    let k := locKey e.loc
    if !s.holds o.key k (some w) then frz s Cause.reservationNotHeld
    else
      releaseHeld o s (resvScope e.rg e.pa) fun s =>
        .ok (((s.atHome e n).writeWord e n (o.g b).toNat).handOn k) .next

/-- RLS: matching by address alone (07 R217). It names no width: its address is checked as that of the narrower word, 4 bytes
(log 49). -/
def sylRls (a : R5) : Syl := fun o s =>
  atomicAt o s Acc.rls 4 (o.g a) fun e s =>
    let k := locKey e.loc
    if !s.holds o.key k none then frz s Cause.reservationNotHeld
    else releaseHeld o s (resvScope e.rg e.pa) fun s => .ok (s.handOn k) .next

/-- An atomic at an address: the same queue, then one step at the word, whose write is a counted store with room in its round (07 R218,
03 R109). `f` answers the new word, none for a
failing compare; `k` goes on with the old word. -/
def atomicThen (o : Strand) (s : State) (va : Word) (w fenced : Bool) (f : Nat → Option Nat) (k : Nat → State → SylOut) :
    SylOut :=
  let n := wBytes w
  atomicAt o s Acc.atomic n va fun e s =>
    let key := locKey e.loc
    match s.placeAt o key with
    | .self => frz s Cause.reservationSelf
    | .limit => frz s Cause.reservationLimit
    | p =>
      if !o.replay.isEmpty then frz s Cause.replayHold
      else
        let go := fun (s : State) =>
          match p with
          | .head =>
            let s0 := (s.enqueue o.key key w).atHome e n
            let x := s0.wordOf e.loc key n
            let s1 := s0.hold key
            match s1.poisonIn e.loc n with
            | some i => .freeze (s1.handOn key) (ueRaise e i) none
            | none =>
              let s2 := match f x with
                | some y => s1.writeWord e n y
                | none => s1
              let s3 := s2.handOn key
              k x (if fenced then s3.acquire (resvScope e.rg e.pa) else s3)
          | .waits => SylOut.park (s.waitFor o.key key w) .poll
          | _ => SylOut.park s .poll
        if fenced then release o s (resvScope e.rg e.pa) go else withRoom o s (s.countSlice e).toList go

/-- An atomic instruction. -/
def atomic (d a : R5) (w fenced : Bool) (f : Strand → Nat → Option Nat) : Syl := fun o s =>
  atomicThen o s (o.g a) w fenced (f o) fun x s => retG s d (BitVec.ofNat 64 x)

/-- The operations of AMO on words of w bits (07 R218). -/
def amoResult (op : AmoOp) (w x y : Nat) : Nat :=
  match op with
  | .add => (x + y) % 2 ^ w
  | .and => x &&& y
  | .or => x ||| y
  | .xor => x ^^^ y
  | .min => if sintW w y < sintW w x then y else x
  | .max => if sintW w x < sintW w y then y else x
  | .minu => Nat.min x y
  | .maxu => Nat.max x y
  | .swap => y

/-- AMO (07 R218). -/
def sylAmo (d a b : R5) (w : Bool) (op : AmoOp) : Syl :=
  atomic d a w false fun o x => some (amoResult op (8 * wBytes w) x ((o.g b).toNat % 2 ^ (8 * wBytes w)))

/-- ACAS: the expected value is in its own destination (07 R218). -/
def sylAcas (d a b : R5) (w : Bool) : Syl :=
  atomic d a w true fun o x =>
    let m := 2 ^ (8 * wBytes w)
    if x = (o.g d).toNat % m then some ((o.g b).toNat % m) else none

/-- A killed strand leaves every queue: what it held passes on with the status, or stays with it at the bank (07 R220). -/
def State.killReservations (s : State) (key : Nat) : State :=
  (s.homes.resv.map (·.loc)).foldl (fun s k =>
    let r := s.rqueue k
    match r.q with
    | x :: t =>
      if x.key = key then
        let s1 := s.setRqueue { r with q := t, killed := x.held || r.killed }
        if t.isEmpty then s1 else s1.later (.reservationHandoff k)
      else s.setRqueue { r with q := r.q.filter fun x => !decide (x.key = key) }
    | [] => s) s

/-! ## The bundles that hold one of these syllables alone (05 R142) -/

/-- LRW beside an idle syllable (R216). -/
def execLrw (d a : R5) (w : Bool) (s : State) : Out := issueA (sylLrw d a w) s

/-- SCH beside an idle syllable (R217). -/
def execSch (a b : R5) (w : Bool) (s : State) : Out := issueA (sylSch a b w) s

/-- RLS beside an idle syllable (R217). -/
def execRls (a : R5) (s : State) : Out := issueA (sylRls a) s

/-- AMO beside an idle syllable (R218). -/
def execAmo (d a b : R5) (w : Bool) (op : AmoOp) (s : State) : Out := issueA (sylAmo d a b w op) s

/-- ACAS beside an idle syllable (R218). -/
def execAcas (d a b : R5) (w : Bool) (s : State) : Out := issueA (sylAcas d a b w) s

end Sys2Proof.Machine
end

