-- ==== Sys2Proof/Machine/Ends.lean ====
section
/-! DEFINITION. The crew barrier (10 R309-R311, 04 R136) and the end of a strand (10 R298, 11 R327, 01 R26), shared by TEXIT,
FKILL and the end of a launch. -/

namespace Sys2Proof.Machine

open Sys2Proof

/-! ## The crew barrier -/

/-- Members of a crew. -/
def State.members (s : State) (crew : Nat) : List Strand :=
  s.strands.filter fun o => decide (o.crew = some crew) && !decide (o.run = .empty)

/-- Saturating sum of counters (04 R136). -/
def satSum (a b : Vector (BitVec 32) 8) : Vector (BitVec 32) 8 :=
  Vector.zipWith (fun x y => BitVec.ofNat 32 (Nat.min 0xFFFFFFFF (x.toNat + y.toNat))) a b

/-- Counters of nobody. -/
def noSums : Vector (BitVec 32) 8 := Vector.replicate 8 0

/-- Arrivals of a member whose phase is not complete. -/
def openArrivals (o : Strand) : List Arrival := o.arrivals.filter fun a => a.done.isNone

/-- Open arrivals of a crew with a phase tag. -/
def State.arrivalsAt (s : State) (crew : Nat) (tag : Bool) : List Arrival :=
  ((s.members crew).flatMap openArrivals).filter fun a => decide (a.tag = tag)

/-- The counts and sums of a crew, from its members' open arrivals (10 R309, 04 R136). -/
def State.recount (s : State) (crew : Nat) : State :=
  s.updCrew crew fun c =>
    let now := s.arrivalsAt crew c.p
    let nxt := s.arrivalsAt crew (!c.p)
    { c with acur := now.length, anxt := nxt.length, scur := now.foldl (fun v a => satSum v a.sums) noSums,
             snxt := nxt.foldl (fun v a => satSum v a.sums) noSums }

/-- Complete phases while the current one is full; `n` bounds the loop, which can run twice (10 R309). -/
def State.completePhases (s : State) (crew : Nat) : Nat → State
  | 0 => s
  | n + 1 =>
    match s.crew crew with
    | none => s
    | some c =>
      if 0 < c.c ∧ c.acur = c.c then
        let s1 := s.updAll fun o =>
          if o.crew = some crew then
            { o with arrivals := o.arrivals.map fun a =>
                if a.tag = c.p ∧ a.done.isNone then { a with done := some c.scur } else a }
          else o
        ((s1.updCrew crew fun c => { c with p := !c.p }).recount crew).completePhases crew n
      else s

/-- After a change of arrivals or of the member count. -/
def State.settleBarrier (s : State) (crew : Nat) : State := (s.recount crew).completePhases crew 3

/-- One arrival of the strand (10 R309). -/
def State.arriveBarrier (s : State) (key crew : Nat) : State :=
  (s.upd key fun o =>
    { o with arrivals := o.arrivals ++ [{ tag := o.barPhase, sums := o.ev, done := none }], barPhase := !o.barPhase,
             barArrived := true }).settleBarrier crew

/-- A member leaves its crew's barrier: its unfinished arrivals go with it (10 R311). -/
def State.leaveBarrier (s : State) (o : Strand) : State :=
  match o.crew with
  | none => s
  | some w =>
    ((s.upd o.key fun o => { o with arrivals := [] }).updCrew w fun c => { c with c := c.c - 1 }).settleBarrier w

/-! ## The end of a strand -/

/-- Words in inbound channels, and those held for them, are discarded and counted at their senders (01 R26). -/
def State.discardInbound (s : State) (o : Strand) : State :=
  (List.range 4).foldl (fun s q =>
    let n := (o.qin.getD q []).length + (o.inbox.filter fun i => decide (i.q.toNat = q)).length
    match (facing o.core q).bind fun c => s.slotStrand (c * 8 + slotOf o.sid) o.ctx with
    | some f => if n = 0 then s else s.upd f.key (addLost (oppositeQ q) n)
    | none => s) s

/-- The group that a context has joined. -/
def joinedGroup (s : State) (ctx : Nat) : Nat := (((s.ctxOf ctx).bind (·.group)).map (·.1)).getD 0

/-- Words that a strand had pushed and that wait outside go on to their receivers as the network delivers them, or are lost
(10 R290, R294). -/
def State.flushOut (s : State) (o : Strand) : State :=
  let s1 := (List.range 4).foldl (fun s q =>
    match (facing o.core q).bind fun c => s.slotStrand (c * 8 + slotOf o.sid) o.ctx with
    | some f =>
      s.upd f.key fun f =>
        { f with inbox := f.inbox ++ (o.qout.getD q []).map fun w => inItem (oppositeQ q) w 0 }
    | none => s) s
  o.q6.foldl (fun s p =>
    let rank := fld p.1.toNat 16 16
    if p.1.getLsbD 15 && !decide (rank = ownRank s o.ctx) then
      (s.setFw fun f => { f with ports := f.ports ++
        [(BitVec.ofNat 16 rank, BitVec.ofNat 64 (joinedGroup s o.ctx * 2 ^ 16 + p.1.toNat % 2 ^ 15), p.2)] }).flushPorts
    else
      match s.slotStrand (p.1.toNat % 2 ^ 15) o.ctx with
      | some f => s.upd f.key fun f => { f with inbox := f.inbox ++ [inItem 7 p.2 0] }
      | none => s) s1

/-- The areas of a launch on a core are free, in backing memory too (12 R367), when its last strand there has ended; a core that the last strand of its context
has left is zeroed (12 R351). -/
def State.leaveCore (s : State) (core : Nat) (launch : Option Nat) (ctx : Nat) : State :=
  let live := s.strands.filter fun o => decide (o.core = core) && !decide (o.run = .empty) && o.ump.isNone
  let s1 :=
    if live.any fun o => decide (o.launch = launch) then s
    else (s.setCore core fun c => { c with areas := c.areas.filter fun a => !decide (some a.1 = launch) }).setSched fun d =>
      { d with saved := d.saved.filter fun a => !(decide (a.core = core) && decide (some a.launch = launch)) }
  if (live.any fun o => decide (o.ctx = ctx)) || !decide ((s1.core core).owner = some ctx) then s1
  else s1.setCore core fun c => { c with zeroing := some (s1.tick + 2048) }

/-- The place of a crew strand in the partition hash: crew index, row, column and slot (18 R474). -/
def hashKey (s : State) (o : Strand) : Nat :=
  ((o.crew.bind s.crew).map (·.index)).getD 0 * 4096 + (fld o.crewpos.toNat 16 8 * 24 + fld o.crewpos.toNat 8 8) * 8 + slotOf o.sid

/-- A crew strand of a replayed launch adds its CRC to its copy's hash when it ends (18 R474). -/
def State.addHash (s : State) (o : Strand) : State :=
  if o.crew.isSome then
    s.updLaunch (o.launch.getD 0) fun l =>
      if l.partner.isSome then { l with hash := l.hash + o.crc * BitVec.ofNat 64 (2 * hashKey s o + 1) } else l
  else s

/-- A TFETCH unit that the strand has popped stays popped when it is gone (09 R281). -/
def State.settleDue (s : State) (o : Strand) : State :=
  { s with cmds := s.cmds.map fun c =>
      let q := if fld c.word.toNat 62 2 = 1 then 0 else 3
      { c with due := c.due.map fun d => if d.1 = o.key ∧ d.2 ≤ o.popped.getD q 0 then (d.1, 0) else d } }

/-- What every end of a strand does: reservations pass on, mappings and subscriptions go, its channels empty, its queued
commands go to their engines, its slot becomes Empty. -/
def State.retireStrand (s : State) (o : Strand) : State :=
  let s1 := (((((s.settleDue o).addHash o).killReservations o.key).releaseWins o).unsubAll o.key).discardInbound o
  let s2 := ((s1.flushOut o).routeRest o).setHomes fun h =>
    { h with posted := h.posted.map fun p => { p with after := p.after.filter fun k => !decide (k = o.key) }, arrive := h.arrive.filter fun a => !decide (a.key = o.key), resend := h.resend.filter fun p => !decide (p.1 = o.key) }
  ((s2.dropStrand o.key).setSched fun d => { d with cached := d.cached.map fun p => (p.1, p.2.erase o.key) }).leaveCore o.core o.launch o.ctx

/-- A strand ends by TEXIT: a crew member leaves its barrier first (10 R298, R311). -/
def State.endStrand (s : State) (key : Nat) : State :=
  match s.strand key with
  | none => s
  | some o => (s.leaveBarrier o).retireStrand o

end Sys2Proof.Machine
end

