-- ==== Sys2Proof/Machine/Gang.lean ====
section
/-! DEFINITION. Gangs, barriers, notice return, waiting and yielding (01 R30-R33, R40-R44; 10 R307-R314). -/

namespace Sys2Proof.Machine

open Sys2Proof

/-! ## Gangs (01 R40, R41; 10 R307, R308) -/

/-- The last member's position lies inside the crew (01 R41). -/
def gangInside (o : Strand) (nc : BitVec 2) (south : Bool) : Bool :=
  let n := gangSize nc
  let c := if south then crewRow o else crewCol o
  decide (n * (c / n) + n ≤ if south then crewH o else crewW o)

/-- The members' strands: of the crew, by strand id. -/
def gangStrands (s : State) (o : Strand) (ids : List Nat) : List (Option Strand) :=
  ids.map fun i => s.strands.find? fun x => decide (x.sid = i) && decide (x.crew = o.crew) && !decide (x.run = .empty) && x.ump.isNone

/-- The words a gang sets in its members (01 R35, 10 R291). -/
def gangWords (uid : Nat) (nc : BitVec 2) (south : Bool) (lead i : Nat) (o : Strand) : Strand :=
  { o with gang := some uid, gidx := BitVec.ofNat 3 i, q9 := [], q10 := [], echo9 := 0, echo10 := 0,
           gangcfg := BitVec.ofNat 64 (lead * 2 ^ 16 + nc.toNat * 8 + (if south then 4 else 0) + (if i = 0 then 2 else 0) + 1) }

/-- Form a gang of strands, the leader first (01 R40). -/
def State.formGang (s : State) (nc : BitVec 2) (south : Bool) (keys : List Nat) (lead : Nat) : State :=
  let (u, s1) := s.fresh
  let s2 := s1.setSched fun d => { d with gangs := d.gangs ++ [{ uid := u, nc := nc, south := south, members := keys }] }
  (keys.zipIdx).foldl (fun s p => s.upd p.1 (gangWords u nc south lead p.2)) s2

/-- Every waiting member freezes with GANG_FORM_FAILED (01 R41, 10 R307). -/
def State.failForm (s : State) (keys : List Nat) : State :=
  keys.foldl (fun s k => (s.upd k fun o => { o with gangReq := none }).freezeKey k (Raise.of Cause.gangFormFailed) false none) s

/-- GANG at a strand that may ask for it. -/
def gangWait (o : Strand) (s : State) (nc : BitVec 2) (south : Bool) : SylOut :=
  let s1 := s.setMe fun x => { x with gangReq := some (nc, south) }
  let ids := gangSids o nc south
  let ms := gangStrands s1 o ids
  let found := ms.filterMap id
  let lost := found.any Strand.isFrozen || ids.any fun i => (o.crew.bind s.crew).any fun c => c.gone.contains i
  let clash := found.any fun m => m.gangReq.any fun r => decide (r ≠ (nc, south))
  if lost || clash then
    let waiting := (found.filter fun m => m.gangReq.isSome && !decide (m.key = o.key)).map (·.key)
    frz ((s1.failForm waiting).setMe fun x => { x with gangReq := none }) Cause.gangFormFailed
  else if ms.all fun m => m.any fun x => decide (x.gangReq = some (nc, south)) && !x.out then
    let keys := found.map (·.key)
    let lead := keys.headD o.key
    if lead = o.key then
      .ok (((s1.formGang nc south keys o.core).setMe fun x => { x with gangReq := none }).later (.gangForm o.key)) .next
    else .park s1 .poll
  else .park s1 .poll

/-- GANG (01 R40, R41, 18 R463). A follower's GANG completes once the gang stands: it is then in run state Follower. -/
def sylGang (dir : Bool) (nc : BitVec 2) : Syl := fun o s =>
  if o.ganged ∧ o.gangReq.isSome then
    .ok s (.finish fun s => s.setMe fun x =>
      { settle s.tick (clauseEnd o { x with gangReq := none }) with run := .follower })
  else if slotOf o.sid = 7 ∨ o.crew.isNone ∨ o.pair.isSome then frz s Cause.gangSlot
  else if nc = 0 then frz s Cause.gangSize
  else if !gangInside o nc dir then frz s Cause.gangRange
  else if o.ganged then frz s Cause.gangNested
  else if o.inClause then frz s Cause.clauseNested
  else gangWait o s nc dir

/-- UNGANG: the gang disbands when its last member executes it (01 R44, 10 R308). -/
def sylUngang : Syl := fun o s =>
  match s.gangOf o with
  | none => .ok s .next
  | some g => if g.members.getLast? = some o.key then .ok (s.dissolve g) .next else .ok s .next

/-! ## Barriers (10 R309-R311) -/

/-- The arrival of BAR and BARA: its waits and checks, the release, the arrival. -/
def arriveThen (o : Strand) (s : State) (crew : Nat) (k : State → SylOut) : SylOut :=
  if 2 ≤ (openArrivals s.me).length then .park s .poll
  else if 3 ≤ s.me.arrivals.length then frz s Cause.barrierOverrun
  else releaseHeld o s .die fun s => k (s.arriveBarrier o.key crew)

/-- What an arrival does with the sums of its phase before it is taken. -/
abbrev OnSums := State → Vector (BitVec 32) 8 → (State → SylOut) → SylOut

/-- The wait of BAR and BARW: the oldest arrival, once complete (10 R310). `rcd` acts on the record of its phase first. -/
def takeArrival (s : State) (d : R5) (rcd : OnSums) : SylOut :=
  match s.me.arrivals with
  | [] => frz s Cause.barrierNoArrival
  | a :: t =>
    match a.done with
    | none => .park s .poll
    | some sums =>
      rcd s sums fun s => retG ((s.setMe fun o => { o with arrivals := t }).acquire .die) d (if a.tag then 1 else 0)

/-- The checks of the barrier instructions; `k` goes on with the crew (10 R311, 11 R327). -/
def inCrew (o : Strand) (s : State) (k : Nat → SylOut) : SylOut :=
  match o.crew with
  | none => frz s Cause.barrierNotCrew
  | some w => if (s.crew w).any (·.poisoned) then frz s Cause.barrierPoisoned else k w

/-- The four 8-byte elements of a record at an address (10 R310). -/
def recordEls (l : Loc) (rg : Region) (va : Word) (pa : Option Nat) : List El :=
  (List.range 4).map fun i => { lane := 0, va := va + BitVec.ofNat 64 (8 * i), loc := l.add (8 * i), rg := rg, pa := pa.map (· + 8 * i) }

/-- Word i of a record: two counters (04 R136). -/
def recordWord (sums : Vector (BitVec 32) 8) (i : Nat) : List (Option Byte) :=
  (natLE 8 ((sums.getD (2 * i) 0).toNat + (sums.getD (2 * i + 1) 0).toNat * 2 ^ 32)).map some

/-- Write the record of a phase as four 8-byte stores, which wait where other stores wait, and go on (10 R310, 03 R101, R109). -/
def putRecord (o : Strand) (l : Loc) (rg : Region) (va : Word) (pa : Option Nat) : OnSums := fun s sums k =>
  let es := recordEls l rg va pa
  if (es.any s.storeHeld) || s.reservedFrom o.key l 32 then .park s .poll
  else withRoom o s (es.filterMap s.countSlice) fun s =>
    k (es.zipIdx.foldl (fun s e => (s.hashStore [(e.1.va, recordWord sums e.2)]).storeEl .own e.1 (recordWord sums e.2)) s)

/-- BAR after its checks. In a gang the arrival stands before any member waits (10 R311). -/
def barBody (o : Strand) (s : State) (crew : Nat) (d : R5) (rcd : OnSums) : SylOut :=
  if s.me.barArrived then takeArrival s d rcd
  else arriveThen o s crew fun s => if o.ganged then .park s .poll else takeArrival s d rcd

/-- BAR and BAR.ev (10 R310). -/
def sylBar (d a : R5) (ev : Bool) : Syl := fun o s =>
  inCrew o s fun w =>
    if ev then
      match check s o Acc.store 32 0 (o.g a) with
      | .bad r => .freeze s r none
      | .defer r => .freeze s r none
      | .wait v => parkFor s v
      | .ok l rg pa => barBody o s w d (putRecord o l rg (o.g a) pa)
    else barBody o s w d fun s _ k => k s

/-- BARA (10 R310). -/
def sylBara : Syl := fun o s => inCrew o s fun w => arriveThen o s w fun s => .ok s .next

/-- BARW (10 R310). -/
def sylBarw (d : R5) : Syl := fun o s => inCrew o s fun _ => takeArrival s d fun s _ k => k s

/-! ## Notices, waiting, yielding (01 R30-R32; 10 R312-R314) -/

/-- Pending sources as bits (01 R31). -/
def pendingSources (o : Strand) : Nat :=
  (if o.q5.isEmpty then 0 else 1) + (if o.q7.isEmpty then 0 else 2) + (if o.q8.isEmpty then 0 else 4) +
    (if o.qin.toList.all List.isEmpty then 0 else 8) + (if o.isLead && !o.q10.isEmpty then 16 else 0)

/-- Sources that are pending and enabled. -/
def enabledSources (o : Strand) : Nat := pendingSources o &&& o.nhmask.toNat % 32

/-- Notices are enabled (01 R35 NHMASK.en). -/
def noticesOn (o : Strand) : Bool := o.nhmask.getLsbD 15

/-- Exchange g8-g15 with h0-h7 (01 R30). -/
def swapShadow (o : Strand) : Strand :=
  { o with lo := Vector.ofFn fun i : Fin 16 => if i.val < 8 then o.lo.getD i.val 0 else o.h.getD (i.val - 8) 0,
           h := Vector.ofFn fun i : Fin 8 => o.lo.getD (i.val + 8) 0 }

/-- The entry steps of a source at a vector (01 R30). -/
def enterNotice (src : Nat) (vec : Word) (o : Strand) : Strand :=
  { swapShadow o with nepc := o.pc, nhsrc := BitVec.ofNat 3 src, nhbusy := true, susp := o.armed, pc := vec }

/-- The entry undone, given the strand before it (01 R33). -/
def leaveNotice (before x : Strand) : Strand :=
  { swapShadow x with nepc := before.nepc, nhsrc := before.nhsrc, nhbusy := before.nhbusy, susp := before.susp, pc := before.pc }

/-- NRET (10 R312). -/
def sylNret : Syl := fun o s =>
  if !o.nhbusy then frz s Cause.noticeNotActive
  else
    .ok s (.finish fun s => s.setMe fun x =>
      { settle s.tick (swapShadow (clauseEnd o x)) with susp := false, nhbusy := false, pc := x.nepc })

/-- WAIT (10 R313). -/
def sylWait : Syl := fun o s =>
  if o.ganged then frz s Cause.gangTask
  else if o.nhmask.toNat % 32 = 0 ∨ (!noticesOn o ∧ !o.nhbusy) then frz s Cause.waitNoSource
  else if enabledSources o ≠ 0 then .ok s .next
  else .park s .poll

/-- Declared class of a strand's launch. -/
def State.classOf (s : State) (o : Strand) : Nat :=
  ((o.launch.bind s.launch).map fun l => (l.rcd.getD 7 0).toNat % 8).getD 0

/-- YIELD (10 R314): the slot is offered to the scheduler, which decides at the boundary after the bundle (SWAP_OUT). -/
def sylYield : Syl := fun o s =>
  if o.ganged then .ok s .next else .ok ((s.setMe fun x => { x with yields := true }).later (.swapOut o.key)) .next

/-! ## The bundles that hold one of these syllables alone (05 R142) -/

/-- GANG beside an idle syllable (R40). -/
def execGang (dir : Bool) (nc : BitVec 2) (s : State) : Out := issueA (sylGang dir nc) s

/-- UNGANG beside an idle syllable (R308). -/
def execUngang (s : State) : Out := issueA sylUngang s

/-- BAR beside an idle syllable (R310). -/
def execBar (d a : R5) (ev : Bool) (s : State) : Out := issueA (sylBar d a ev) s

/-- BARA beside an idle syllable (R310). -/
def execBara (s : State) : Out := issueA sylBara s

/-- BARW beside an idle syllable (R310). -/
def execBarw (d : R5) (s : State) : Out := issueA (sylBarw d) s

/-- NRET beside an idle syllable (R312). -/
def execNret (s : State) : Out := issueA sylNret s

/-- WAIT beside an idle syllable (R313). -/
def execWait (s : State) : Out := issueA sylWait s

/-- YIELD beside an idle syllable (R314). -/
def execYield (s : State) : Out := issueA sylYield s

end Sys2Proof.Machine
end

