-- ==== Sys2Proof/Machine/Launches.lean ====
section
/-! DEFINITION. Launch records: their fields (12 R338-R342), the refusal reasons (12 R343), acceptance (12 R347, R348) and waits (12 R342, R349). -/

namespace Sys2Proof.Machine

open Sys2Proof

/-- Crew slot set (12 R339). -/
def rSlots (r : Vector Word 16) : Nat := rfld r 5 48 8
/-- Dies allowed, 0 for all. -/
def rDies (r : Vector Word 16) : Nat := rfld r 5 44 4
/-- Number of crews. -/
def rCount (r : Vector Word 16) : Nat := rfld r 5 32 8
/-- Crew height. -/
def rH (r : Vector Word 16) : Nat := rfld r 5 24 8
/-- Crew width. -/
def rW (r : Vector Word 16) : Nat := rfld r 5 16 8
/-- Origin row hint. -/
def rOy (r : Vector Word 16) : Nat := rfld r 5 8 8
/-- Origin column hint. -/
def rOx (r : Vector Word 16) : Nat := rfld r 5 0 8
/-- Window stack size in 256-byte units (12 R340). -/
def rWsz (r : Vector Word 16) : Nat := rfld r 6 40 8
/-- Deque mask. -/
def rDqm (r : Vector Word 16) : Nat := rfld r 6 32 8
/-- Initial DQMASK.se. -/
def rSe (r : Vector Word 16) : Nat := rfld r 6 31 1
/-- Area size in 1 KiB units. -/
def rStride (r : Vector Word 16) : Nat := rfld r 6 16 8
/-- Area of slot 0, in 1 KiB units. -/
def rBase (r : Vector Word 16) : Nat := rfld r 6 0 8
/-- Seed frames (12 R341). -/
def rNseed (r : Vector Word 16) : Nat := rfld r 7 48 16
/-- Launch kind. -/
def rKind (r : Vector Word 16) : Nat := rfld r 7 38 2
/-- Barrier policy: poison. -/
def rBpol (r : Vector Word 16) : Bool := rfld r 7 37 1 = 1
/-- Each crew on a different die. -/
def rSpread (r : Vector Word 16) : Bool := rfld r 7 36 1 = 1
/-- Strand pairs. -/
def rPair (r : Vector Word 16) : Bool := rfld r 7 35 1 = 1
/-- Backfill strands may borrow stroke slots. -/
def rLend (r : Vector Word 16) : Bool := rfld r 7 34 1 = 1
/-- Later records of the queue wait too. -/
def rOrd (r : Vector Word 16) : Bool := rfld r 7 33 1 = 1
/-- Backfill strands at once. -/
def rTmax (r : Vector Word 16) : Nat := rfld r 7 16 16
/-- Launch queue. -/
def rQueue (r : Vector Word 16) : Nat := rfld r 7 8 6
/-- Declared class. -/
def rClass (r : Vector Word 16) : Nat := rfld r 7 0 3
/-- Cox slot set. -/
def rCslots (r : Vector Word 16) : Nat := rfld r 14 40 8
/-- Region pages. -/
def rPages (r : Vector Word 16) : Nat := rfld r 14 0 32

/-- The dies a launch may use, ascending. -/
def allowedDies (r : Vector Word 16) : List Nat :=
  (List.range 4).filter fun d => decide (rDies r = 0) || bit (rDies r) d

/-- The slots whose areas a launch may use (12 R340). -/
def mayUse (r : Vector Word 16) : List Nat :=
  (List.range 8).filter fun i => bit (rSlots r) i || decide (0 < rTmax r)

/-- A deque mask is 2^m - 1 with m = 0-8 (10 R296). -/
def maskOk (m : Nat) : Bool := (List.range 9).any fun i => decide (m + 1 = 2 ^ i)

/-- R340 holds. -/
def memOk (r : Vector Word 16) : Bool :=
  maskOk (rDqm r) && decide (1 ≤ rStride r) && decide (rStride r ≤ 128) && decide (rBase r ≤ 127) &&
    (mayUse r).all fun i =>
      decide (256 * rWsz r + 128 + 64 * (rDqm r + 1) ≤ 1024 * rStride r) && decide (rBase r + (i + 1) * rStride r ≤ 128)

/-- A VA lies in the region that page tables map (02 R48). -/
def plainVa (va : Nat) : Bool := decide (va < 2 ^ 64) && decide (regionOf (BitVec.ofNat 64 va) = .inr .plain)

/-- A 64 KiB page is mapped readable at user level in a context. -/
def pageReadable (s : State) (ctx va : Nat) : Bool :=
  plainVa va && match translate s ctx va with
    | .leaf l => (leafCheck s { Strand.blank with ctx := ctx } Acc.load false l).isNone
    | .bad _ _ => false

/-- A 64 KiB page is mapped plain. -/
def pagePlain (s : State) (ctx va : Nat) : Bool :=
  plainVa va && match translate s ctx va with
    | .leaf l => decide (l.kind = .plain) && paExists l.pa && decide (s.kindOf (l.pa / 65536) = .plain)
    | .bad _ _ => false

/-- Pages of the seed frames. -/
def seedPages (r : Vector Word 16) : List Nat :=
  let a := (r.getD 4 0).toNat
  let p0 := a / 65536
  (List.range ((a + 64 * rNseed r - 1) / 65536 + 1 - p0)).map fun i => p0 + i

/-- The queue of a context. -/
def State.queueOf (s : State) (ctx q : Nat) : Option LQueue := (s.ctxOf ctx).bind fun c => c.queues.find? fun x => decide (x.id = q)

/-- Reserved bits of a record are zero, its writes aligned (12 R343 reason 8); bits 6-1 of its seal are among them (12 R346). -/
def reservedOk (r : Vector Word 16) : Bool :=
  decide (rfld r 5 56 8 = 0) && decide (rfld r 5 40 4 = 0) && decide (rfld r 6 48 16 = 0) && decide (rfld r 6 24 7 = 0) &&
    decide (rfld r 6 8 8 = 0) && decide (rfld r 7 40 8 = 0) && decide (rfld r 7 32 1 = 0) && decide (rfld r 7 14 2 = 0) &&
    decide (rfld r 7 3 5 = 0) && decide (rfld r 8 32 28 = 0) && decide (rfld r 14 48 16 = 0) && decide (rfld r 14 32 8 = 0) &&
    decide (rfld r 10 0 5 = 0) && decide (rfld r 11 0 3 = 0) && decide (rfld r 15 57 6 = 0)

/-- The first reason of 12 R343 to refuse a record; `ring` is the queue of the ring it came from. -/
def refuseReason (s : State) (ctx : Nat) (ring : Option Nat) (r : Vector Word 16) : Option Nat :=
  let sl := decide (rSlots r ≠ 0)
  let seeds := (r.getD 4 0).toNat
  if rfld r 0 0 3 ≠ 0 ∨ rfld r 13 0 3 ≠ 0 ∨ (r.getD 0 0 = 0 ∧ sl = true) then some 1
  else if bit (rSlots r) 7 ∨ (sl = true ∧ (rCount r = 0 ∨ 16 < rCount r)) ∨ (sl = false ∧ rCount r ≠ 0) ∨
      (sl = true ∧ (rW r = 0 ∨ 24 < rW r ∨ rH r = 0 ∨ 24 < rH r ∨ (rOy r ≠ 255 ∧ 24 < rOy r + rH r) ∨
        (rOx r ≠ 255 ∧ 24 < rOx r + rW r) ∨ (rSpread r = true ∧ (allowedDies r).length < rCount r))) then some 2
  else if !memOk r then some 3
  else if (0 < rNseed r ∧ (seeds = 0 ∨ seeds % 64 ≠ 0 ∨ (sl = false ∧ rTmax r = 0))) ∨
      (sl = false ∧ rTmax r = 0 ∧ rKind r = 0) ∨
      (0 < rNseed r ∧ (seedPages r).any (fun p => !pageReadable s ctx (p * 65536)) = true) then some 4
  else if 3 ≤ rWkind r ∨ (rWkind r = 1 ∧ rfld r 9 0 3 ≠ 0) ∨ (rWkind r = 2 ∧ rfld r 9 32 32 ≠ 0) then some 5
  else if (s.queueOf ctx (rQueue r)).any (fun q => decide (q.maxClass < rClass r)) then some 6
  else if 2 ≤ rKind r ∨ bit (rCslots r) 7 ∨ (rKind r = 1 ∧ (rfld r 12 0 16 ≠ 0 ∨ rPages r = 0 ∨
      (List.range (rPages r)).any (fun i => !pagePlain s ctx ((r.getD 12 0).toNat + i * 65536)) = true)) then
    some 7
  else if !reservedOk r then some 8
  else if (s.queueOf ctx (rQueue r)).isNone ∨ (ring.any fun q => decide (q ≠ rQueue r)) then some 9
  else none

/-- Records accepted into a queue and not yet placed (12 R347). -/
def State.acceptedCount (s : State) (ctx q : Nat) : Nat :=
  (s.sched.launches.filter fun l => decide (l.ctx = ctx) && decide (l.queue = q) && decide (l.st = .accepted)).length

/-- A record with its seal byte masked by `keep` (12 R346, R347). -/
def maskSeal (keep : Nat) (r : Vector Word 16) : Vector Word 16 :=
  r.setIfInBounds 15 (r.getD 15 0 &&& BitVec.ofNat 64 (keep * 2 ^ 56 + 0x00FFFFFFFFFFFFFF))

/-- A walk of the dispatcher for a VA that meets a table line with an uncorrectable error blocks and reports it (16 R421). -/
def State.noteBad (s : State) (ctx va : Nat) : State :=
  match translate s ctx va with
  | .bad _ (some (line, level)) => s.blockLine line level ctx
  | _ => s

/-- The walks that the checks of a record make: its seed pages and its region (12 R343). -/
def State.noteWalks (s : State) (ctx : Nat) (r : Vector Word 16) : State :=
  ((if rNseed r = 0 then [] else (seedPages r).map (· * 65536)) ++
    (if rKind r = 1 then (List.range (rPages r)).map fun i => (r.getD 12 0).toNat + i * 65536 else [])).foldl
    (fun s va => s.noteBad ctx va) s

/-- Accept a record (12 R347, R348). -/
def State.acceptLaunch (s : State) (ctx : Nat) (r : Vector Word 16) (issuer : Option Nat) : State :=
  let (u, s1) := s.fresh
  let held := decide (rWkind r = 0)
  let l : Launch :=
    { uid := u, ctx := ctx, queue := rQueue r, rcd := r, st := .accepted, waitHeld := held, accepted := s.tick,
      ready := if held then some s.tick else none, effClass := rClass r, issuer := issuer, start := none,
      sq := Vector.replicate 256 0, home := 0, disc := 0, killed := false, partner := none, copyB := false, hash := 0 }
  s1.setSched fun d => { d with launches := d.launches ++ [l] }

/-! ## Records in memory (12 R338) -/

/-- A 128-byte record as dwords. -/
def recordOf (bs : List Byte) : Vector Word 16 := Vector.ofFn fun i : Fin 16 => leWord ((bs.drop (8 * i.val)).take 8)

end Sys2Proof.Machine
end

