-- ==== Sys2Proof/Machine/Task.lean ====
section
/-! DEFINITION. Tasks: deques, frames, wait pools, data triggers and LAUNCH (10 R295-R306). -/

namespace Sys2Proof.Machine

open Sys2Proof

/-! ## Frames and deques (10 R295, R296, R299) -/

/-- A frame as eight dwords: pc, wsp, fp, jc, a0, a1, a2, kind. -/
abbrev Frame := Vector Word 8

/-- Kind of a frame: the whole of bytes 57-56 (10 R295; log 39). -/
def frameKind (f : Frame) : Nat := (f.getD 7 0).toNat % 65536

/-- The frame of the running task, resuming at `pc` (10 R297, R301). -/
def frameOf (o : Strand) (pc : Word) (kind : Nat) : Frame :=
  #v[pc, o.wsp, o.lo.getD 15 0, o.lo.getD 14 0, o.lo.getD 11 0, o.lo.getD 12 0, o.lo.getD 13 0, BitVec.ofNat 64 kind]

/-- Registers a frame restores (10 R295). -/
def restoreFrame (f : Frame) (o : Strand) : Strand :=
  { o with
    lo := ((((o.lo.setIfInBounds 11 (f.getD 4 0)).setIfInBounds 12 (f.getD 5 0)).setIfInBounds 13 (f.getD 6 0)).setIfInBounds 14
      (f.getD 3 0)).setIfInBounds 15 (f.getD 2 0),
    pc := f.getD 0 0 }

/-- Bytes of a frame. -/
def frameBytes (f : Frame) : List Byte := f.toList.flatMap fun w => natLE 8 w.toNat

/-- A frame from bytes. -/
def frameFrom (bs : List Byte) : Frame := Vector.ofFn fun i : Fin 8 => leWord ((bs.drop (8 * i.val)).take 8)

/-- The deque of a strand as memory key and mask; none where it fails R296. -/
def dequeOf (o : Strand) : Option (Nat × Nat) :=
  let m := o.dqmask.toNat % 256
  match regionOf o.dqbase with
  | .inr (.mine off) =>
    if off % 128 = 0 ∧ maskOk m = true ∧ off + 128 + 64 * (m + 1) ≤ 2 ^ 17 then some (lkey o.core off, m) else none
  | _ => none

/-- Stealing is enabled (DQMASK.se). -/
def stealOn (o : Strand) : Bool := o.dqmask.getLsbD 15

/-- top of a deque. -/
def dqTop (s : State) (k : Nat) : Word := s.word k
/-- bottom of a deque. -/
def dqBottom (s : State) (k : Nat) : Word := s.word (k + 8)
/-- Key of the slot of an index. -/
def dqSlot (k m : Nat) (i : Word) : Nat := k + 128 + 64 * (i.toNat % (m + 1))

/-- Frames on a deque. -/
def dqCount (s : State) (k : Nat) : Nat := (dqBottom s k - dqTop s k).toNat

/-- The launch tag of a slot (10 R295). -/
def State.tagAt (s : State) (slot : Nat) : Nat := ((s.homes.tags.find? fun p => decide (p.1 = slot)).map (·.2)).getD 0

/-- Set the launch tag of a slot. -/
def State.setTag (s : State) (slot launch : Nat) : State :=
  s.setHomes fun h => { h with tags := (slot, launch) :: h.tags.filter fun p => !decide (p.1 = slot) }

/-- Read a frame. -/
def frameAt (s : State) (slot : Nat) : Frame := frameFrom (s.bytes (.mem slot) 64)

/-- The strand's area is in its core's bank, not in backing memory (12 R365). -/
def State.bankHolds (s : State) (o : Strand) : Bool :=
  !(s.sched.saved.any fun a => decide (a.core = o.core) && decide (some a.launch = o.launch))

/-- Push a frame at the bottom; none when the deque is full or not configured (10 R297, R303). -/
def State.pushFrame (s : State) (o : Strand) (f : Frame) (launch : Nat) : Option State :=
  match dequeOf o with
  | none => none
  | some (k, m) =>
    if m + 1 ≤ dqCount s k ∨ s.bankHolds o = false then none
    else
      let b := dqBottom s k
      let slot := dqSlot k m b
      some (((s.put (.mem slot) (frameBytes f)).setTag slot launch).setWord (k + 8) (b + 1))

/-- The owner's pop (10 R299). -/
def State.popFrame (s : State) (k m : Nat) : Option Frame × State :=
  let b := dqBottom s k - 1
  let t := dqTop s k
  if t.toNat < b.toNat ∧ dqCount s k ≠ 0 then (some (frameAt s (dqSlot k m b)), s.setWord (k + 8) b)
  else if b = t then (some (frameAt s (dqSlot k m b)), (s.setWord k (t + 1)).setWord (k + 8) (t + 1))
  else (none, s.setWord (k + 8) t)

/-- Poison in a frame at a slot: the VA of its first poisoned granule, in the owner's own local memory or in the global space
(18 R456, R457). -/
def State.framePoison (s : State) (own : Bool) (slot : Nat) : Option Raise :=
  (s.poisonIn (.mem slot) 64).map fun i =>
    let off := (slot - 2 ^ 60 + i) / 8 * 8
    Raise.at' Cause.ueConsumed 0 (BitVec.ofNat 64 (if own then 0x00FD000000000000 + off % 2 ^ 17 else 0x00FC000000000000 + off))

/-- The owner's pop would take a poisoned frame. -/
def State.popPoison (s : State) (k m : Nat) : Option Raise :=
  if (s.popFrame k m).1.isSome then s.framePoison true (dqSlot k m (dqBottom s k - 1)) else none

/-- Slot of the oldest frame of a victim, if it is of a launch. -/
def State.oldestSlot (s : State) (v : Strand) (launch : Nat) : Option Nat :=
  match dequeOf v with
  | none => none
  | some (k, m) =>
    let t := dqTop s k
    let slot := dqSlot k m t
    if t.toNat < (dqBottom s k).toNat ∧ s.tagAt slot = launch then some slot else none

/-- Take the oldest frame of a victim for a launch (10 R300). -/
def State.takeOldest (s : State) (v : Strand) (launch : Nat) : Option (Frame × State) :=
  (s.oldestSlot v launch).bind fun slot => (dequeOf v).map fun d => (frameAt s slot, s.setWord d.1 (dqTop s d.1 + 1))

/-- Strands whose deques a core's bank holds, in ascending slot order; a killed strand's deque stays (11 R327). -/
def victimsOf (s : State) (core : Nat) : List Strand :=
  (List.range 8).flatMap fun i =>
    s.strands.filter fun o => decide (o.sid = core * 8 + i) && decide (o.level = .user) && o.ump.isNone && !o.trailer && s.bankHolds o

/-- The first victim that has a frame of the launch. -/
def stealFrom (s : State) (launch : Nat) (vs : List Strand) : Option (Frame × State) :=
  vs.findSome? fun v => s.takeOldest v launch

/-- A victim's bank cannot be reached from a core now (17 R439, R443). -/
def State.bankAway (s : State) (core : Nat) (v : Strand) : Bool :=
  let off := v.dqbase.toNat % 2 ^ 17
  !s.wayOpen (dieOf core) (dieOf v.core) (coreKey v.core off) (.mem (lkey v.core off))

/-- A probe has to wait: a victim that it meets before it finds a frame lies behind a module that holds messages. -/
def stealWaits (s : State) (core launch : Nat) : List Strand → Bool
  | [] => false
  | v :: t => s.bankAway core v || ((s.oldestSlot v launch).isNone && stealWaits s core launch t)

/-- The frame that a probe takes is poisoned (18 R456). -/
def stealPoison (s : State) (launch : Nat) (vs : List Strand) : Option Raise :=
  (vs.findSome? fun v => s.oldestSlot v launch).bind (s.framePoison false)

/-- Cores of a launch, ascending. -/
def launchCores (s : State) (launch : Nat) : List Nat :=
  (s.strands.filter fun o => decide (o.launch = some launch)).foldl (fun l o => insertCl o.core l) []

/-- The victims of the hardware policy: those of the cores of the launch in ring order, from one chosen at random (10 R300; log 12). -/
def State.stealOrder (s : State) (launch : Nat) : List Strand :=
  let cs := launchCores s launch
  let n := Config.stealPick s.free % (cs.length + 1)
  (cs.drop n ++ cs.take n).flatMap (victimsOf s)

/-- A steal by the hardware policy. -/
def State.stealAny (s : State) (launch : Nat) : Option (Frame × State) :=
  stealFrom { s with free := s.free + 1 } launch (s.stealOrder launch)

/-- Resume a frame in the issuing strand: an acquire, then its registers and PC (10 R295, R303). -/
def resumeFrame (f : Frame) (s : State) : State :=
  (s.acquire .pkg).setMe fun x => settle s.tick (restoreFrame f x)

/-- Enter the steal loop (10 R300). -/
def enterSteal (s : State) : State := s.setMe fun x => { settle s.tick x with run := .parked, park := .steal }

/-- The freeze of every task instruction in a gang (10 R306). -/
def notGanged (o : Strand) (s : State) (k : SylOut) : SylOut := if o.ganged then frz s Cause.gangTask else k

/-! ## SPAWN, TEXIT, JOIN, STEAL -/

/-- A release at package scope of a task instruction, then an atomic change of a counter word, if any (10 R297, R298). The
release is made before the change, which it orders no less. -/
def countThen (o : Strand) (s : State) (va : Word) (f : Nat → Nat) (k : State → SylOut) : SylOut :=
  if va = 0 then releaseHeld o s .pkg k
  else
    atomicAt o s Acc.atomic 8 va fun _ s =>
      releaseHeld o s .pkg fun s => atomicThen o s va false false (fun x => some (f x % 2 ^ 64)) fun _ s => k s

/-- SPAWN (10 R297). -/
def sylSpawn (a b : R5) : Syl := fun o s =>
  notGanged o s <|
    if (o.g a).toNat % 8 ≠ 0 then frz s Cause.pcMisaligned
    else
      match dequeOf o with
      | none => frz s Cause.dequeConfig
      | some (k, m) =>
        if m + 1 ≤ dqCount s k then frz s Cause.dequeFull
        else
          countThen o s (o.g b) (· + 1) fun s =>
            match s.pushFrame o (frameOf o (o.pc + 8) 0) (o.launch.getD 0) with
            | none => frz s Cause.dequeFull
            | some s1 =>
              .ok (s1.setMe fun x => { x with lo := x.lo.setIfInBounds 14 (o.g b) })
                (.finish fun s => s.setMe fun x => { settle s.tick (clauseEnd o x) with pc := o.g a })

/-- The end of a task: the next frame of the deque, the steal loop, or the end of the strand (10 R298). -/
def afterTask (o : Strand) (k m : Nat) (s : State) : SylOut :=
  match s.popPoison k m with
  | some r => .freeze s r none
  | none =>
    match s.popFrame k m with
    | (some f, s1) => .ok s1 (.finish fun s => resumeFrame f (s.setMe fun x => clauseEnd o x))
    | (none, s1) =>
      if stealOn o then .ok s1 (.finish fun s => enterSteal (s.setMe fun x => clauseEnd o x))
      else if o.ump.isSome then frz s Cause.dequeConfig
      else .ok s1 (.finish fun s => s.endStrand o.key)

/-- A freeze leaves nothing of what came before it in the syllable. -/
def SylOut.orNothing (s : State) : SylOut → SylOut
  | .freeze _ r qa => .freeze s r qa
  | x => x

/-- TEXIT (10 R298). An umpire ends only by UEXIT, FKILL or firmware (11 R318): a TEXIT that would end one freezes it (log 49). -/
def sylTexit : Syl := fun o s =>
  notGanged o s <|
    match dequeOf o with
    | none => frz s Cause.dequeConfig
    | some (k, m) =>
      let jc := o.lo.getD 14 0
      if jc = 0 then (if o.replay.isEmpty then (afterTask o k m s).orNothing s else frz s Cause.replayHold)
      else (countThen o s jc (· + (2 ^ 64 - 1)) (afterTask o k m)).orNothing s

/-- Frames of a wait pool. -/
def State.poolCount (s : State) (slice : Nat) : Nat := (s.homes.wframes.filter fun w => decide (w.slice = slice)).length

/-- Place a frame in a wait pool (10 R302). -/
def State.poolFrame (s : State) (slice key launch : Nat) (f : Frame) (cs : List Cond) : State :=
  let (u, s1) := s.fresh
  s1.setHomes fun h =>
    { h with wframes := h.wframes ++
      [{ uid := u, slice := slice, key := key, launch := launch, frame := f, conds := cs, fired := false, retry := 0 }] }

/-- The slice of a watched word (10 R302, 02 R54). -/
def wordSlice (s : State) (k : Nat) : Nat :=
  if 2 ^ 60 ≤ k ∧ k < 2 ^ 61 then bankSlice ((k - 2 ^ 60) / 2 ^ 17) else s.sliceOf k

/-- JOIN (10 R301). -/
def sylJoin (a : R5) : Syl := fun o s =>
  notGanged o s <|
    match dequeOf o with
    | none => frz s Cause.dequeConfig
    | some _ =>
      atomicAt o s Acc.atomic 8 (o.g a) fun e s =>
        let s1 := s.atHome e 8
        match s1.poisonIn e.loc 8 with
        | some i => .freeze s (ueRaise e i) none
        | none =>
          if s1.loadNat e.loc 8 = 0 ∨ s1.me.woken = true then .ok (s1.acquire .pkg) .next
          else if !stealOn o then .park (s1.awaits (.zero (locKey e.loc))) .poll
          else if a.toNat < 11 ∨ 15 < a.toNat then frz s Cause.joinRegister
          else
            let k := locKey e.loc
            let slice := wordSlice s1 k
            if 4096 ≤ s1.poolCount slice then frz s Cause.waitpoolFull
            else .ok (s1.poolFrame slice o.key (o.launch.getD 0) (frameOf o o.pc 2) [.zero k])
              (.finish fun s => enterSteal (s.setMe fun x => clauseEnd o x))

/-- STEAL (10 R300). -/
def sylSteal (d a : R5) : Syl := fun o s =>
  notGanged o s <|
    match dequeOf o with
    | none => frz s Cause.dequeConfig
    | some (k, _) =>
      let core := (o.g a).toNat
      if 2559 < core then frz s Cause.msgDest
      else
        let l := o.launch.getD 0
        let vs := if core = 0 then s.stealOrder l else victimsOf s core
        if stealWaits s o.core l vs then .park s .poll
        else
        match stealPoison s l vs with
        | some r => .freeze s r none
        | none =>
        match (if core = 0 then s.stealAny l else stealFrom s l vs) with
        | some (f, s1) => retG ((s1.put (.mem (k + 64)) (frameBytes f)).acquire .pkg) d (o.dqbase + 64)
        | none => retG { s with free := s.free + 1 } d 0

/-! ## TASKW and VTRIG (10 R302, R304) -/

/-- One condition of a record: none, TASKW_RECORD, another freeze, a frame that is being moved (16 R414), or the condition. -/
inductive CondRead where
  | none
  | bad
  | freeze (r : Raise)
  | wait (v : Option Nat)
  | cond (c : Cond) (slice : Nat)

/-- Read a condition of 16 bytes, as two dwords (10 R302). -/
def readCond (o : Strand) (s : State) (lo hi : Word) : CondRead :=
  let t := BitVec.ofNat 32 (fld lo.toNat 32 32)
  let word := fun (mk : Nat → Cond) =>
    match regionOf hi with
    | .inl _ => CondRead.bad
    | .inr (.window _ _) => CondRead.bad
    | .inr _ =>
      if hi.toNat % 8 ≠ 0 then CondRead.bad
      else
        match check s o Acc.load 8 0 hi with
        | .ok (.mem k) _ _ => CondRead.cond (mk k) (wordSlice s k)
        | .bad r => CondRead.freeze r
        | .defer r => CondRead.freeze r
        | .wait v => CondRead.wait v
        | .ok (.tile _ _) _ _ => CondRead.bad
  match fld lo.toNat 0 32 with
  | 0 => CondRead.none
  | 1 => word fun k => .counter k t
  | 2 =>
    if fld hi.toNat 8 56 ≠ 0 then CondRead.bad
    else
      match s.fileOf o with
      | some f => CondRead.cond (.seq f (BitVec.ofNat 8 hi.toNat) t) (s.fileSlice f)
      | none => CondRead.freeze (Raise.of Cause.sqNoFile)
  | 3 =>
    if fld hi.toNat 0 32 ≠ 0 then CondRead.bad
    else
      let name := fld hi.toNat 32 32
      let space := s.spaceOf o.ctx name
      CondRead.cond (.ver space name t) (s.nameSlice space name)
  | 4 => word .zero
  | _ => CondRead.bad

/-- The conditions of a record: TASKW_RECORD, the first other freeze, a wait, or the conditions and the slice of the first. -/
inductive CondsRead where
  | bad
  | freeze (r : Raise)
  | wait (v : Option Nat)
  | ok (cs : List Cond) (slice : Option Nat)

/-- Read the conditions of a record in order; the first slice decides the pool. -/
def readConds (o : Strand) (s : State) : List (Word × Word) → CondsRead
  | [] => .ok [] none
  | (lo, hi) :: t =>
    match readCond o s lo hi, readConds o s t with
    | .bad, _ => .bad
    | _, .bad => .bad
    | .freeze r, _ => .freeze r
    | _, .freeze r => .freeze r
    | .wait v, _ => .wait v
    | _, .wait v => .wait v
    | .none, x => x
    | .cond c i, .ok cs _ => .ok (c :: cs) (some i)

/-- Load a record of n 64-byte lines aligned to a size, as dwords (10 R302: checks of 07 R197 per 64 bytes). -/
def loadRecord (o : Strand) (s : State) (a : Word) (align n : Nat) (k : List Word → State → SylOut) : SylOut :=
  match earlyCause align a with
  | some c => .freeze s (Raise.at' c 0 a) none
  | none =>
    loadEls o s .own 64 ((List.range n).map fun i => (0, a + BitVec.ofNat 64 (64 * i))) fun l s1 =>
      k (l.flatMap fun p => (lanesOf 64 8 (BitVec.ofNat 512 p.2)).map (BitVec.ofNat 64)) s1

/-- A frame from the first 8 dwords of a record. -/
def frameOfWords (ws : List Word) : Frame := Vector.ofFn fun i : Fin 8 => ws.getD i.val 0

/-- TASKW (10 R302). -/
def sylTaskw (a : R5) : Syl := fun o s =>
  notGanged o s <|
    loadRecord o s (o.g a) 128 2 fun ws s =>
      let f := frameOfWords ws
      match readConds o s ((List.range 4).map fun i => (ws.getD (8 + 2 * i) 0, ws.getD (9 + 2 * i) 0)) with
      | .bad => frz s Cause.taskwRecord
      | .freeze r => if 2 ≤ frameKind f then frz s Cause.taskwRecord else .freeze s r none
      | .wait v => if 2 ≤ frameKind f then frz s Cause.taskwRecord else parkFor s v
      | .ok cs at0 =>
        if 2 ≤ frameKind f then frz s Cause.taskwRecord
        else
          releaseHeld o s .pkg fun s =>
            let slice := at0.getD (homeUnit o.core)
            if 4096 ≤ s.poolCount slice then frz s Cause.waitpoolFull
            else .ok (s.poolFrame slice o.key (o.launch.getD 0) f cs) .next

/-- Bindings of a slice (10 R304). -/
def State.trigCount (s : State) (slice : Nat) : Nat :=
  (s.homes.names.filter fun n => decide (s.nameSlice n.space n.name = slice)).foldl (fun k n => k + n.trigs.length) 0

/-- VTRIG (10 R304). -/
def sylVtrig (a b : R5) : Syl := fun o s =>
  notGanged o s <|
    loadRecord o s (o.g b) 64 1 fun ws s =>
      let f := frameOfWords ws
      if frameKind f ≠ 1 then frz s Cause.taskwRecord
      else
        releaseHeld o s .pkg fun s =>
          let name := nameOf o a
          let v := fld (o.g a).toNat 32 32
          let space := s.spaceOf o.ctx name
          let n0 := s.nameRec space name
          atHome o s space name <|
          let n := { n0 with trigs := n0.trigs.filter fun t => !decide (t.key = o.key) }
          let t : Trig := { key := o.key, v := v, launch := o.launch.getD 0, frame := f }
          let slice := s.nameSlice space name
          if v ≠ 0 ∧ v ≤ n.latest then .ok ((s.setName n).fire space name slice t v) .next
          else if 4096 ≤ s.trigCount slice ∧ n.trigs.length = n0.trigs.length then frz s Cause.triggerFull
          else .ok (s.setName { n with trigs := n.trigs ++ [t] }) .next

/-! ## LAUNCH (10 R305) -/

/-- LAUNCH: the record is read after the release, its seal byte is ignored (12 R347). -/
def sylLaunch (a : R5) : Syl := fun o s =>
  notGanged o s <|
    loadRecord o s (o.g a) 128 2 fun _ s =>
      releaseHeld o s .pkg fun s =>
        loadRecord o s (o.g a) 128 2 fun ws s =>
          let r := maskSeal 0 (Vector.ofFn fun i : Fin 16 => ws.getD i.val 0)
          match refuseReason s o.ctx none r with
          | some _ => frz (s.noteWalks o.ctx r) Cause.launchInvalid
          | none =>
            if 64 ≤ s.acceptedCount o.ctx (rQueue r) then .park s .poll
            else .ok (s.acceptLaunch o.ctx r (some o.key)) .next

/-! ## Tests and dispatch (10 R302, R303) -/

/-- The strand that takes a dispatched frame: the issuer, else the lowest strand id of the launch (10 R303). -/
def frameTarget (s : State) (w : WFrame) : Option Strand :=
  match s.strand w.key with
  | some o => some o
  | none =>
    (s.strands.filter fun o => decide (o.launch = some w.launch) && !decide (o.run = .empty) && o.ump.isNone && !o.trailer).foldl
      (fun (b : Option Strand) o => match b with
        | some x => if o.sid < x.sid then some o else some x
        | none => some o) none

/-- Every racked version that the frame's conditions name starts floating (02 R87). -/
def State.floatConds (s : State) (cs : List Cond) : State :=
  cs.foldl (fun s c => match c with
    | .ver space name t =>
      match s.pubVer space name t.toNat with
      | some v => s.wantFloat v.uid
      | none => s
    | _ => s) s

/-- Dispatch a frame whose conditions hold: onto its deque, or kept for a try 256 cycles on while there is no room (10 R303). -/
def State.dispatchFrame (s : State) (uid : Nat) : State :=
  match s.homes.wframes.find? fun w => decide (w.uid = uid) with
  | none => s
  | some w =>
    if !w.fired && !(w.conds.all (condHolds s)) then s
    else
      let s1 := s.floatConds w.conds
      match (frameTarget s1 w).bind fun o => s1.pushFrame o w.frame w.launch with
      | some s2 => s2.setHomes fun h => { h with wframes := h.wframes.filter fun x => !decide (x.uid = uid) }
      | none =>
        s1.setHomes fun h =>
          { h with wframes := h.wframes.map fun x => if x.uid = uid then { x with fired := true, retry := s.tick + 256 } else x }

/-- A frame that can leave its pool now. -/
def dispatchable (s : State) (w : WFrame) : Bool :=
  (w.fired || w.conds.all (condHolds s)) && decide (w.retry ≤ s.tick)

/-! ## The bundles that hold one of these syllables alone (05 R142) -/

/-- SPAWN beside an idle syllable (R297). -/
def execSpawn (a b : R5) (s : State) : Out := issueA (sylSpawn a b) s

/-- JOIN beside an idle syllable (R301). -/
def execJoin (a : R5) (s : State) : Out := issueA (sylJoin a) s

/-- STEAL beside an idle syllable (R300). -/
def execSteal (d a : R5) (s : State) : Out := issueA (sylSteal d a) s

/-- TASKW beside an idle syllable (R302). -/
def execTaskw (a : R5) (s : State) : Out := issueA (sylTaskw a) s

/-- TEXIT beside an idle syllable (R298). -/
def execTexit (s : State) : Out := issueA sylTexit s

/-- LAUNCH beside an idle syllable (R305). -/
def execLaunch (a : R5) (s : State) : Out := issueA (sylLaunch a) s

/-- VTRIG beside an idle syllable (R304). -/
def execVtrig (a b : R5) (s : State) : Out := issueA (sylVtrig a b) s

end Sys2Proof.Machine
end

