-- ==== Sys2Proof/Machine/System.lean ====
section
/-! DEFINITION. State words (01 R34, R35; 06 R194-R196; 11 R316; 12 R371; 16 R436; 17 R441; 18 R458, R470) and the system
instructions (11 R336). -/

namespace Sys2Proof.Machine

open Sys2Proof

/-! ## State words -/

/-- Rank of a level (00 R10). -/
def Level.rank : Level → Nat
  | .user => 0 | .umpire => 1 | .firmware => 2

/-- Level a selector asks for (06 R195). -/
def selLevel (sel : Nat) : Nat := sel / 256

/-- The selectors that exist (01 R34, 16 R436). -/
def selDefined (sel : Nat) : Bool :=
  decide (sel ≤ 7) || decide (sel = 0x10) || decide (sel = 0x11) || (decide (0x18 ≤ sel) && decide (sel ≤ 0x25)) ||
    (decide (0x30 ≤ sel) && decide (sel ≤ 0x32)) || decide (sel = 0x38) || decide (sel = 0x39) ||
    (decide (0x40 ≤ sel) && decide (sel ≤ 0x43)) || (decide (0x48 ≤ sel) && decide (sel ≤ 0x4B)) || decide (sel = 0x50) ||
    decide (sel = 0x58) || (decide (0x60 ≤ sel) && decide (sel ≤ 0x67)) || (decide (0x100 ≤ sel) && decide (sel ≤ 0x102)) ||
    (decide (0x108 ≤ sel) && decide (sel ≤ 0x10F)) || decide (sel = 0x200) || (decide (0x210 ≤ sel) && decide (sel ≤ 0x213)) ||
    (decide (0x230 ≤ sel) && decide (sel ≤ 0x232)) || decide (sel = 0x250) || decide (sel = 0x251) || decide (sel = 0x270) ||
    (decide (0x280 ≤ sel) && decide (sel ≤ 0x286))

/-- Words MTS cannot write at a level: the halves of cap0-cap3 are writable at firmware level only (11 R321). -/
def selReadonly (lv : Level) (sel : Nat) : Bool :=
  decide (sel ≤ 7) || decide (sel = 0x32) || decide (sel = 0x42) || decide (sel = 0x50) || decide (sel = 0x58) ||
    (decide (0x100 ≤ sel) && decide (sel ≤ 0x102)) || (decide (0x108 ≤ sel) && decide (sel ≤ 0x10F) && decide (lv ≠ .firmware)) ||
    decide (sel = 0x210) || decide (sel = 0x211) || decide (sel = 0x250) || decide (sel = 0x251) || decide (sel = 0x270) ||
    decide (sel = 0x281) || decide (sel = 0x284)

/-- Words that hold bundle addresses (06 R195). -/
def selAligned (sel : Nat) : Bool := decide (sel = 0x40) || decide (sel = 0x43) || decide (sel = 0x48) || decide (sel = 0x49)

/-- The checks of 06 R195 at a level; `wr` holds the value of a write. -/
def selCause (lv : Level) (sel : Nat) (wr : Option Word) : Option Cause :=
  if !selDefined sel then some Cause.stateUndefined
  else if lv.rank < selLevel sel then some Cause.statePrivilege
  else
    match wr with
    | none => none
    | some x =>
      if selReadonly lv sel then some Cause.stateReadonly
      else if selAligned sel && decide (x.toNat % 8 ≠ 0) then some Cause.pcMisaligned
      else none

/-- A flag as a bit at a place. -/
def flagAt (b : Bool) (i : Nat) : Nat := if b then 2 ^ i else 0

/-- NHCAUSE (01 R35). -/
def nhcause (o : Strand) : Word :=
  BitVec.ofNat 64 (flagAt o.nhbusy 15 + o.nhsrc.toNat * 2 ^ 8 + pendingSources o)

/-- The strand that cap0 names. -/
def State.capZero (s : State) (o : Strand) : Option Strand :=
  let c := o.caps.getD 0 0
  if capValid c then s.capStrand c else none

/-- FROZENID (11 R316). -/
def frozenId (x : Strand) : Word := BitVec.ofNat 64 (x.sid + x.ctx * 2 ^ 16 + x.serial.toNat * 2 ^ 32)

/-- UMPDEPTH (11 R316). -/
def umpDepth (o : Strand) : Word :=
  match o.ump with
  | some u => BitVec.ofNat 64 (u.umpid * 2 ^ 16 + u.depth)
  | none => 0

/-- A half of cap0-cap3: selector 0x108 + 2i is the low one (01 R34). -/
def capHalf (o : Strand) (sel : Nat) : Word :=
  BitVec.ofNat 64 (fld (o.caps.getD ((sel - 0x108) / 2) 0).toNat (if sel % 2 = 1 then 64 else 0) 64)

/-- Context units that a strand's saved context takes: one, and more for an extension record beyond 1,280 bytes
(12 R366, R367; its layout is not given: log 24). -/
def ctxUnits (o : Strand) : Nat :=
  let ext := 64 * o.older.length + 8 * o.counts.length + 128 + 16 * o.inbox.length +
    o.replay.foldl (fun n e => n + 32 + e.stores.foldl (fun n x => n + 8 + x.2.length) 0) 0
  1 + (ext - 1280 + 4095) / 4096

/-- A swapped strand whose context is in its cluster's cache, not in backing memory. -/
def State.inCache (s : State) (key : Nat) : Bool := s.sched.cached.any fun p => p.2.contains key

/-- Free context units of backing memory: 131,072, less what written-back contexts and areas take (12 R367). -/
def State.freeUnits (s : State) : Nat :=
  let ctx := (s.strands.filter fun o => o.out && !decide (o.run = .empty) && !s.inCache o.key).foldl (fun n o => n + ctxUnits o) 0
  let kib := s.sched.saved.foldl (fun n a => n + a.size) 0
  (524288 - 4 * ctx - kib) / 4

/-- SCHSTAT (12 R371). -/
def schstat (s : State) : Word :=
  let l := s.sched.launches.filter fun l => decide (l.st = .accepted)
  BitVec.ofNat 64 (Nat.min 0xFFFF l.length * 2 ^ 48 + Nat.min 0xFFFF (l.filter (·.waitHeld)).length * 2 ^ 32 +
    s.sched.pre.toNat * 2 ^ 16 + Nat.min 0xFFFF s.freeUnits)

/-- The words of the strand itself, below 0x100 (01 R34). -/
def readUser (s : State) (o : Strand) (sel : Nat) : Word :=
  match sel with
  | 0x00 => BitVec.ofNat 64 (slotOf o.sid)
  | 0x01 => BitVec.ofNat 64 o.core
  | 0x02 => BitVec.ofNat 64 o.cluster
  | 0x03 => BitVec.ofNat 64 (dieOf o.core)
  | 0x04 => BitVec.ofNat 64 o.gidx.toNat
  | 0x05 => BitVec.ofNat 64 o.ctx
  | 0x06 => BitVec.ofNat 64 s.tick
  | 0x07 => o.crewpos
  | 0x10 => o.fpmode
  | 0x11 => o.rngs
  | 0x20 => o.fmta
  | 0x21 => o.fmtb
  | 0x22 => o.scla
  | 0x23 => o.sclb
  | 0x24 => o.mxacc
  | 0x25 => o.mxcfg
  | 0x30 => o.wsp
  | 0x31 => o.wlim
  | 0x32 => BitVec.ofNat 64 (o.spilled.toNat * 8 + o.res)
  | 0x38 => o.dqbase
  | 0x39 => o.dqmask
  | 0x40 => o.nhvec
  | 0x41 => o.nhmask
  | 0x42 => nhcause o
  | 0x43 => o.nepc
  | 0x48 => o.lstart
  | 0x49 => o.lend
  | 0x4A => o.lcount
  | 0x4B => BitVec.ofNat 64 (flagAt o.susp 1 + flagAt o.armed 0)
  | 0x50 => o.gangcfg
  | 0x58 => twmap s o
  | _ =>
    if 0x18 ≤ sel ∧ sel < 0x20 then BitVec.ofNat 64 (o.ev.getD (sel - 0x18) 0).toNat
    else o.h.getD (sel - 0x60) 0

/-- The umpire-level words (11 R316, R321). -/
def readUmpire (s : State) (o : Strand) (sel : Nat) : Word :=
  match sel with
  | 0x100 => ((s.capZero o).map fun x => BitVec.ofNat 64 x.frz.cause.toNat).getD 0
  | 0x101 => ((s.capZero o).map frozenId).getD 0
  | 0x102 => umpDepth o
  | _ => capHalf o sel

/-- The words of the selected link; ids above 113 read 0 (17 R441). -/
def readLink (s : State) (o : Strand) (sel : Nat) : Word :=
  let l := o.lnksel.toNat
  let x := s.link l
  if sel = 0x280 then BitVec.ofNat 64 l
  else if 114 ≤ l then 0
  else
    match sel with
    | 0x281 => s.lnkstatOf l
    | 0x282 => lnkerr x
    | 0x283 => lnkctl x
    | 0x284 => lnkbad l x
    | 0x285 => BitVec.ofNat 64 x.map.toNat
    | _ => BitVec.ofNat 64 x.thr.toNat

/-- The firmware-level words (16 R436). -/
def readFirmware (s : State) (o : Strand) (sel : Nat) : Word :=
  let c := s.core o.core
  match sel with
  | 0x200 => BitVec.ofNat 64 (flagAt c.lendOn 0)
  | 0x210 => schstat s
  | 0x211 => s.sched.rsvWord
  | 0x212 => BitVec.ofNat 64 (s.sched.latMax.toNat * 2 ^ 32 + s.sched.latLast.toNat)
  | 0x213 => BitVec.ofNat 64 (flagAt s.sched.nopre 2 + flagAt s.sched.nolend 1 + flagAt s.sched.hold 0)
  | 0x230 => s.ras.ce
  | 0x231 => s.ras.ue
  | 0x232 => BitVec.ofNat 64 s.ras.ctl.toNat
  | 0x250 => BitVec.ofNat 64 (c.trcFrames * 2 ^ 32 + c.trcCtx % 2 ^ 12 * 2 ^ 20 + flagAt c.trcOn 0)
  | 0x251 => BitVec.ofNat 64 (c.trcBase % 2 ^ 28 * 2 ^ 20)
  | 0x270 => BitVec.ofNat 64 (s.ras.capw.toNat * 2 ^ 32 + s.ras.pw.toNat * 2 ^ 16 + s.ras.mhz.toNat)
  | _ => readLink s o sel

/-- A state word of a strand, as MFS returns it (06 R196). -/
def readWord (s : State) (o : Strand) (sel : Nat) : Word :=
  if sel < 0x100 then readUser s o sel else if sel < 0x200 then readUmpire s o sel else readFirmware s o sel

/-- The bits of a word that a write keeps (00 R7); for FPMODE the reserved rounding codes store 0 (04 R125). -/
def keepBits (sel : Nat) (x : Word) : Word :=
  let n := x.toNat
  match sel with
  | 0x10 => BitVec.ofNat 64 ((if 6 ≤ n % 8 then 0 else n % 8) + fld n 4 2 * 16)
  | 0x25 => BitVec.ofNat 64 (fld n 32 32 * 2 ^ 32 + fld n 8 1 * 2 ^ 8 + n % 4)
  | 0x39 => BitVec.ofNat 64 (fld n 15 1 * 2 ^ 15 + n % 256)
  | 0x41 => BitVec.ofNat 64 (fld n 15 1 * 2 ^ 15 + n % 32)
  | _ => x

/-- Write a half of a capability (11 R321). -/
def setCapHalf (o : Strand) (sel : Nat) (x : Word) : Strand :=
  let i := (sel - 0x108) / 2
  let c := (o.caps.getD i 0).toNat
  let c' := if sel % 2 = 1 then fld c 0 64 + x.toNat / 2 ^ 57 * 2 ^ 121 else fld c 64 64 * 2 ^ 64 + (x.toNat - fld x.toNat 15 1 * 2 ^ 15)
  { o with caps := o.caps.setIfInBounds i (BitVec.ofNat 128 c') }

/-- Write a word that the strand itself holds (06 R196). -/
def setStrandWord (sel : Nat) (v : Word) (o : Strand) : Strand :=
  let x := keepBits sel v
  match sel with
  | 0x10 => { o with fpmode := x }
  | 0x11 => { o with rngs := x }
  | 0x20 => { o with fmta := x }
  | 0x21 => { o with fmtb := x }
  | 0x22 => { o with scla := x }
  | 0x23 => { o with sclb := x }
  | 0x24 => { o with mxacc := x }
  | 0x25 => { o with mxcfg := x }
  | 0x30 => { o with wsp := x }
  | 0x31 => { o with wlim := x }
  | 0x38 => { o with dqbase := x }
  | 0x39 => { o with dqmask := x }
  | 0x40 => { o with nhvec := x }
  | 0x41 => { o with nhmask := x }
  | 0x43 => { o with nepc := x }
  | 0x48 => { o with lstart := x }
  | 0x49 => { o with lend := x }
  | 0x4A => { o with lcount := x }
  | 0x4B => { o with susp := x.getLsbD 1, armed := x.getLsbD 0 }
  | 0x280 => { o with lnksel := BitVec.ofNat 7 x.toNat }
  | _ =>
    if 0x18 ≤ sel ∧ sel < 0x20 then { o with ev := o.ev.setIfInBounds (sel - 0x18) (BitVec.ofNat 32 x.toNat) }
    else if 0x60 ≤ sel ∧ sel < 0x68 then { o with h := o.h.setIfInBounds (sel - 0x60) x }
    else if 0x108 ≤ sel ∧ sel < 0x110 then setCapHalf o sel x
    else o

/-- A changed table pointer makes the core's decode RAM reload and ends its order verdicts (04 R122, R130). -/
def State.changedTable (s : State) (o : Strand) (sel : Nat) (x : Word) : State :=
  if sel = 0x20 ∧ o.fmta ≠ x then s.setCore o.core fun c =>
      { c with ramA := c.ramA.map fun r => { r with stale := true }, verdicts := [] }
  else if sel = 0x21 ∧ o.fmtb ≠ x then s.setCore o.core fun c =>
      { c with ramB := c.ramB.map fun r => { r with stale := true }, verdicts := [] }
  else s

/-- Write a word of the selected link (17 R441, R442): a refused command changes cerr alone. -/
def State.setLinkWord (s : State) (l sel : Nat) (x : Word) : State :=
  let n := x.toNat
  if 114 ≤ l then s
  else if sel = 0x286 then s.setLink l fun k => { k with thr := BitVec.ofNat 16 n }
  else if linkType l = 3 then (if sel = 0x283 then s.linkCmd l (n % 8) else s)
  else
    match sel with
    | 0x282 => s.setLink l fun k => { k with retry := BitVec.ofNat 32 (n / 2 ^ 32) }
    | 0x283 =>
      if n % 8 = 0 ∨ cmdAccepted l (s.link l).st.toNat (n % 8) = true then
        (s.setLink l fun k => { k with ctlHalf := bit n 5, ctlWidth := bit n 4 }).linkCmd l (n % 8)
      else s.linkRefuse l
    | 0x285 => s.setLink l fun k => { k with map := BitVec.ofNat 28 n }
    | _ => s

/-- Write a word of the core or the package (12 R371; 18 R458). -/
def State.setShared (s : State) (o : Strand) (sel : Nat) (x : Word) : State :=
  let n := x.toNat
  match sel with
  | 0x200 => s.setCore o.core fun c => { c with lendOn := bit n 0 }
  | 0x212 => s.setSched fun d => { d with latMax := BitVec.ofNat 32 (n / 2 ^ 32) }
  | 0x213 => s.setSched fun d => { d with hold := bit n 0, nolend := bit n 1, nopre := bit n 2 }
  | 0x230 => s.setRas fun r => { r with ce := x }
  | 0x231 => s.setRas fun r => { r with ue := BitVec.ofNat 64 (n / 2 ^ 48 * 2 ^ 48 + r.ue.toNat % 2 ^ 48) }
  | 0x232 => s.setRas fun r => { r with ctl := BitVec.ofNat 4 n }
  | _ => if 0x281 ≤ sel ∧ sel ≤ 0x286 then s.setLinkWord o.lnksel.toNat sel x else s

/-- Write a state word of a strand, with the rules of 06 R196. -/
def State.writeWordOf (s : State) (key sel : Nat) (x : Word) : State :=
  match s.strand key with
  | none => s
  | some o => ((s.changedTable o sel x).setShared o sel x).upd key (setStrandWord sel x)

/-! ## The instructions -/

/-- MFS (06 R194-R196). -/
def sylMfs (d : R5) (sel : BitVec 12) : Syl := fun o s =>
  match selCause o.level sel.toNat none with
  | some c => frz s c
  | none => retG s d (readWord s o sel.toNat)

/-- MTS: the word is written after everything else of its bundle (05 R142, 06 R196). -/
def sylMts (a : R5) (sel : BitVec 12) : Syl := fun o s =>
  match selCause o.level sel.toNat (some (o.g a)) with
  | some c => frz s c
  | none => .ok s (.finish fun s => (s.complete o .next).writeWordOf o.key sel.toNat (o.g a))

/-- ECALL (11 R336). -/
def sylEcall : Syl := fun _ s => frz s Cause.serviceCall

/-- BRK: an armed debug module stops the strand before it; a gang member freezes (11 R336). -/
def sylBrk : Syl := fun o s =>
  if (s.core o.core).armed && !o.ganged then .park s .brk else frz s Cause.breakpoint

/-- TRMARK (11 R336, 18 R471). -/
def sylTrmark (a : R5) : Syl := fun o s => .ok (s.traceOf o 7 (o.g a)) .next

/-- HALT (11 R336). -/
def sylHalt : Syl := fun o s =>
  if o.level = .firmware then .ok s (.finish fun s => s.endStrand o.key) else frz s Cause.privilegedOp

/-! ## The bundles that hold one of these syllables alone (05 R142) -/

/-- MFS beside an idle syllable (R194). -/
def execMfs (d : R5) (sel : BitVec 12) (s : State) : Out := issueA (sylMfs d sel) s

/-- MTS beside an idle syllable (R196). -/
def execMts (a : R5) (sel : BitVec 12) (s : State) : Out := issueA (sylMts a sel) s

/-- ECALL beside an idle syllable (R336). -/
def execEcall (s : State) : Out := issueA sylEcall s

/-- BRK beside an idle syllable (R336). -/
def execBrk (s : State) : Out := issueA sylBrk s

/-- TRMARK beside an idle syllable (R336). -/
def execTrmark (a : R5) (s : State) : Out := issueA (sylTrmark a) s

/-- HALT beside an idle syllable (R336). -/
def execHalt (s : State) : Out := issueA sylHalt s

end Sys2Proof.Machine
end

