-- ==== Sys2Proof/Machine/Caps.lean ====
section
/-! DEFINITION. Capabilities at work: spawning and escalating (11 R317-R319, R329, R331), firmware's table (16 R403, R422),
resuming (11 R326, R330), the replay queue (11 R325 items 7 and 8) and killing (11 R327). Umpires, CAP_RESOLVE and CTX_DESTROY
share them. -/

namespace Sys2Proof.Machine

open Sys2Proof

/-! ## Acting as another strand -/

/-- Do something as the strand of a handle, then come back. -/
def State.asStrand (s : State) (key : Nat) (f : State → State) : State :=
  let s1 := f (s.focus key)
  if s.me.run = .empty then s1 else s1.focus s.me.key

/-! ## Spawning (11 R317, R319, R329) -/

/-- Frames of a pool (11 R317). -/
def State.pool (s : State) (id : Nat) : Pool := (s.pools.find? fun p => decide (p.id = id)).getD { id := id, used := [], pend := [] }

/-- Change a pool. -/
def State.setPool (s : State) (id : Nat) (f : Pool → Pool) : State :=
  { s with pools := f (s.pool id) :: s.pools.filter fun p => !decide (p.id = id) }

/-- The set that a gang's fault left (11 R330). -/
def State.setOf (s : State) (key : Nat) : Option HeldSet := s.sched.sets.find? fun h => h.members.contains key

/-- The strands that the umpire of a frozen strand receives: itself, then the other members of its gang or its pair
(11 R329, 18 R463). A member with an umpire of its own, through its replay queue, has its one capability there (11 R321, R332). -/
def State.wards (s : State) (o : Strand) : List Strand :=
  let others := match s.setOf o.key with
    | some h => if o.frz.cause = Cause.gangDisbanded then [] else ((h.members.filter fun k => !decide (k = o.key)).filterMap s.strand).filter (!·.attached)
    | none =>
      if o.frz.cause = Cause.redundancyMismatch then (o.pair.bind s.strand).toList else []
  o :: others

/-- Registers of a fresh umpire (11 R317). The spec gives a freeze serial no first value: an umpire's starts at a number of its frame's own,
so that no two strands of a stroke slot that are frozen at once go by one name (DESIGN CHOICE, log 39). -/
def umpireOf (s : State) (key umpid depth : Nat) (o : Strand) (caps : List (BitVec 128)) : Strand :=
  let area := ((s.ctxOf o.ctx).map (·.umparea)).getD 0
  let vec := ((s.ctxOf o.ctx).map fun c => c.umpvec.getD (o.frz.cause.toNat / 16) 0).getD 0
  { Strand.blank with
    key := key
    sid := o.core * 8 + 7
    level := .umpire
    ctx := o.ctx
    run := .ready
    turn := alignTurn (o.core * 8 + 7) (s.tick + 1)
    pc := vec
    lo := #v[0, BitVec.ofNat 64 o.frz.cause.toNat, frozenId o,
             if area = 0 then 0 else area + BitVec.ofNat 64 (4096 * umpid), 0, 0, 0, 0, 0, 0, 0, 0, 0, 0, 0, 0]
    caps := Vector.ofFn fun i : Fin 4 => caps.getD i.val 0
    serial := BitVec.ofNat 32 ((umpid % 32 + 1) * 2 ^ 26)
    ump := some { umpid := umpid, depth := depth, pend := caps.drop 4 } }

/-- The capabilities an umpire gets (11 R317, R321, R330). -/
def State.capsOf (s : State) (o : Strand) : List (BitVec 128) :=
  (s.wards o).map fun x => capFor x x.heldSet.isSome

/-- Give a capability to an umpire: its lowest free register, else its pending list of 8; none when that is full (11 R321). -/
def giveCap (u : Strand) (c : BitVec 128) : Option Strand :=
  match (List.range 4).find? fun i => !capValid (u.caps.getD i 0) with
  | some i => some { u with caps := u.caps.setIfInBounds i c }
  | none =>
    match u.ump with
    | some r => if r.pend.length < 8 then some { u with ump := some { r with pend := r.pend ++ [c] } } else none
    | none => none

/-- Capabilities an umpire holds: registers, then the pending list. -/
def heldCaps (u : Strand) : List (BitVec 128) :=
  u.caps.toList.filter capValid ++ ((u.ump.map (·.pend)).getD [])

/-- First umpire id of a pool (11 R316). -/
def umpidBase (pool : Nat) : Nat := if pool < 144 then pool * 32 else 4608 + (pool - 144) * 32

/-! ## Firmware's table (16 R403, R422) -/

/-- The blocked table line that an address needs (16 R422). -/
def neededLine (s : State) (ctx : Nat) (va : Word) : Option Nat :=
  match translate s ctx va.toNat with
  | .bad _ (some (line, _)) => if s.fw.blocked.contains line then some line else none
  | _ => none

/-- Room for one more capability. -/
def State.capRoom (s : State) : Bool := decide (s.fw.caps.length < 1024)

/-- Clear the gs right of the capabilities of strands. -/
def noGs (ids : List (Nat × Nat)) (c : BitVec 128) : BitVec 128 :=
  if ids.contains (capSid c, capCtx c) then c &&& ~~~(1#128 <<< 121) else c

/-- Set the gs right of the capabilities of strands. -/
def withGs (ids : List (Nat × Nat)) (c : BitVec 128) : BitVec 128 :=
  if capValid c && ids.contains (capSid c, capCtx c) then c ||| (1#128 <<< 121) else c

/-- Change every capability that umpires and firmware hold. -/
def State.mapCaps (s : State) (f : BitVec 128 → BitVec 128) : State :=
  (s.updAll fun o => { o with caps := o.caps.map f, ump := o.ump.map fun u => { u with pend := u.pend.map f } }).setFw fun x =>
    { x with caps := x.caps.map fun c => { c with cap := f c.cap } }

/-- Take the gs mark off every capability that names one of the strands. -/
def State.clearGs (s : State) (ids : List (Nat × Nat)) : State := s.mapCaps (noGs ids)

/-- The members of a held set that have an umpire of their own carry gs = 1 there (11 R330). -/
def State.markGs (s : State) (o : Strand) : State :=
  match s.setOf o.key with
  | some h => if o.heldSet.isSome then
      s.mapCaps (withGs (((h.members.filterMap s.strand).filter (·.attached)).map fun x => (x.sid, x.ctx)))
    else s
  | none => s

/-! ## The replay queue (11 R325, R326; 03 R115) -/

/-- What performing an entry gives. -/
inductive Replay where
  | done (s : State)
  | fault (s : State) (c : Cause)
  | wait (s : State) (v : Option Nat)

/-- Room in the round's counts for stores to some slices: of this round, or of the next once its query holds (03 R109, R115). -/
def roomNow (s : State) (slices : List Nat) : Option State :=
  let full := slices.any fun i =>
    s.me.counts.any fun p => decide (p.1 = i) && decide (4096 ≤ p.2 + (slices.filter fun j => decide (j = i)).length)
  if !full then some s
  else if queryHolds s s.me false then some ((s.freeRound s.me.key s.me.round).setMe nextRound)
  else none

/-- Perform the issuing strand's head entry as its store; a fault keeps it, and blocks a table line with an uncorrectable error that its walk
met (16 R421). -/
def performHead (s : State) : Replay :=
  match s.me.replay with
  | [] => .done s
  | e :: t =>
    let sts := e.stores.map fun x => (0, BitVec.ofNat 64 x.1, x.2)
    let size := ((e.stores.head?).map fun x => x.2.length).getD 1
    match splan s s.me size sts with
    | .ok es =>
      if (es.any s.storeHeld) || (es.zip sts).any fun x => s.reservedBytes s.me.key x.1.loc x.2.2.2 then .wait s none
      else
      match roomNow s (es.filterMap s.countSlice) with
      | some s => .done (((es.zip sts).foldl (fun s x => s.storeEl e.rq x.1 x.2.2.2) s).setMe fun o => { o with replay := t })
      | none => .wait s none
    | .bad r => .fault (s.setMe fun o => { o with replay := { e with addr := r.addr } :: t }) r.cause
    | .defer r =>
      let s1 := s.setMe fun o => { o with replay := { e with addr := r.addr } :: t }
      .fault (match r.ueLine with
        | some (line, level) => s1.blockLine line level s.me.ctx
        | none => s1) r.cause
    | .wait v => .wait s v

/-- Perform all entries in order; the queue holds at most 8. -/
def performAll : Nat → State → Replay
  | 0, s => .done s
  | n + 1, s =>
    if s.me.replay.isEmpty then .done s
    else
      match performHead s with
      | .done s1 => performAll n s1
      | x => x

/-- The same, acting for another strand and coming back. -/
def State.replayAs (s : State) (key : Nat) (f : State → Replay) : Replay :=
  let back := fun (x : State) => if s.me.run = .empty then x else x.focus s.me.key
  match f (s.focus key) with
  | .done x => .done (back x)
  | .fault x c => .fault (back x) c
  | .wait x v => .wait (back x) v

/-! ## Resuming (11 R326, R330) -/

/-- The three forms of FRES. -/
inductive Resume where
  | retry
  | skip
  | redirect (pc : Word)
  deriving DecidableEq, Repr

/-- An LRW that froze holding its reservation: a retry delivers the word it received (07 R216, 18 R457). -/
def lrwHeld (s : State) (o : Strand) : Bool :=
  (decide (o.frz.cause = Cause.reservationOrphaned) || decide (o.frz.cause = Cause.ueConsumed)) &&
    !o.frz.bsyl &&
    (match decodeA (fld o.frz.bundle.toNat 0 32) (fld o.frz.bundle.toNat 32 32) with
    | .ins (.lrw _ a _) =>
      match check s o Acc.lrw 4 0 (o.g a) with
      | .ok l _ _ => s.holds o.key (locKey l) none
      | _ => false
    | _ => false)

/-- Make a frozen strand ready: an acquire of its own, a resume record, the turn after the next cycle. -/
def State.wake (s : State) (key : Nat) : State :=
  (s.asStrand key fun s => (s.acquire .pkg).traceOf s.me 3 s.me.pc).upd key fun o =>
    { readyAt s.tick o with attached := false }

/-- The move of the PC that a form makes (01 R38, R39; 08 R232). -/
def State.resumePc (s : State) (key : Nat) (m : Resume) : State :=
  match s.strand key, m with
  | none, _ => s
  | some o, .retry => if lrwHeld s o then s.upd key fun o => { o with answer := some none } else s
  | some o, .skip =>
    let s1 := s.upd key fun x => { clauseEnd o x with answer := none, asked := false, askWin := none }
    match o.frz.qa with
    | some q => s.asStrand key fun _ => (s1.focus key).setMe (dropWords q 8) |>.pullMesh o q
    | none => s1
  | some _, .redirect pc => s.upd key fun o => { o with armed := false, pc := pc, answer := none, asked := false, askWin := none }

/-- The strands a resume or a kill acts on: a pair goes as one (18 R463). -/
def State.both (s : State) (o : Strand) : List Nat := o.key :: ((o.pair.bind s.strand).map (·.key)).toList

/-- End a held set: every marked member resumes as a singleton (11 R330). -/
def State.endSet (s : State) (key : Nat) : State :=
  match (s.strand key).bind (·.heldSet) with
  | none => s
  | some u =>
    match s.sched.sets.find? fun h => decide (h.uid = u) with
    | none => s
    | some h =>
      let s1 := (s.setSched fun d => { d with sets := d.sets.filter fun x => !decide (x.uid = u) }).updAll fun o =>
        if o.heldSet = some u then { o with heldSet := none } else o
      let s2 := s1.clearGs ((h.members.filterMap s.strand).map fun o => (o.sid, o.ctx))
      h.marked.foldl (fun s k => (s.resumePc k .retry).wake k) s2

/-- The set resumes as the original gang: the leader ready, the others following it (11 R330). -/
def State.reform (s : State) (h : HeldSet) : State :=
  let lead := h.members.headD 0
  let core := ((s.strand lead).map Strand.core).getD 0
  let s1 := (s.setSched fun d => { d with sets := d.sets.filter fun x => !decide (x.uid = h.uid) }).updAll fun o =>
    if o.heldSet = some h.uid then { o with heldSet := none } else o
  let s2 := (h.members.foldl (fun s k => (s.resumePc k .retry).wake k) s1).formGang h.nc h.south h.members core
  (h.members.drop 1).foldl (fun s k => s.upd k fun o => { o with run := .follower }) s2

/-- FRES after its release: the entries have been performed. -/
def State.resume (s : State) (key : Nat) (m : Resume) : State :=
  match s.strand key with
  | none => s
  | some o =>
    match m, o.heldSet with
    | .retry, some u =>
      match s.sched.sets.find? fun h => decide (h.uid = u) with
      | none => s
      | some h =>
        let h1 := { h with marked := h.marked ++ [key] }
        let s1 := s.setSched fun d => { d with sets := d.sets.map fun x => if x.uid = u then h1 else x }
        if h1.members.all fun k => h1.marked.contains k then s1.reform h1 else s1
    | m, _ => (s.both o).foldl (fun s k => (s.resumePc k m).wake k) (s.endSet key)

/-! ## Receiving capabilities (16 R403, R422) -/

/-- Change an entry of firmware's table. -/
def State.updCap (s : State) (h : Nat) (f : FwCap → FwCap) : State :=
  s.setFw fun w => { w with caps := w.caps.map fun x => if x.handle = h then f x else x }

/-- An entry leaves firmware's table. -/
def State.dropCap (s : State) (h : Nat) : State := s.setFw fun f => { f with caps := f.caps.filter fun x => !decide (x.handle = h) }

/-- A held capability waits for the blocked table line that its strand's address needs, behind those that wait for it already (16 R422, R423);
none when no such line is blocked. -/
def State.parkCap (s : State) (h : FwCap) (o : Strand) : Option State :=
  (neededLine s o.ctx o.frz.addr).map fun line =>
    ((s.dropCap h.handle).setFw fun f => { f with caps := f.caps ++ [{ h with line := some line, again := false }] }).event 2 (BitVec.ofNat 64 h.handle) (BitVec.ofNat 64 line) (capCtx h.cap)

/-- A strand that goes on without its capability's holder: a frozen one resumes, one that has kept running has lost its umpire's interest
(11 R326, R332). -/
def State.letGo (s : State) (o : Strand) : State :=
  if o.isFrozen then s.resume o.key .retry else s.upd o.key fun x => { x with attached := false }

/-- FRES retry by firmware (16 R422, R423): a replay that faults again leaves the strand as it is with its cause, and the capability held, on a
blocked line where it needs one; one that has to wait is tried again. -/
def State.retryCap (s : State) (h : FwCap) (o : Strand) : State :=
  match s.replayAs o.key (performAll 8) with
  | .done s1 => (s1.letGo o).dropCap h.handle
  | .fault s1 c =>
    let s2 := (s1.upd o.key fun x => { x with frz := { x.frz with cause := c } }).updCap h.handle fun x => { x with line := none, again := false }
    match s2.strand o.key with
    | some x => if c = Cause.pteUncorrectable then (s2.parkCap h x).getD s2 else s2
    | none => s2
  | .wait s1 _ => s1.updCap h.handle fun x => { x with line := none, again := true }

/-- FRES retries that had to wait are tried again, in the order in which they were held (16 R423). -/
def State.retryAgain (s : State) : State :=
  (s.fw.caps.filter (·.again)).foldl (fun s h => (s.capStrand h.cap).elim s (s.retryCap h)) s

/-- Firmware receives a capability; one of PTE_UNCORRECTABLE waits for its table line or is retried at once, that of a deferred store
included (16 R422). -/
def State.receiveCap (s : State) (c : BitVec 128) : State :=
  let h : FwCap := { handle := firstFree (s.fw.caps.map (·.handle)) 1024 0, cap := c, line := none }
  let s1 := (s.setFw fun f => { f with caps := f.caps ++ [h] }).event 1
    (BitVec.ofNat 64 h.handle) (BitVec.ofNat 64 (fld c.toNat 0 64)) (capCtx c)
  match s1.capStrand c with
  | none => s1
  | some o =>
    if o.frz.cause = Cause.pteUncorrectable ∧ (o.isFrozen || o.attached) = true then (s1.parkCap h o).getD (s1.retryCap h o) else s1

/-- What waits for the table's room: escalations, and operations of umpires (their strand's handle), in the order in which they began; an
operation goes on at its umpire's turn (16 R403). -/
def State.queueUp (s : State) (key : Nat) : State :=
  if s.fw.capWait.any fun w => decide (w.2 = key) then s else s.setFw fun f => { f with capWait := f.capWait ++ [(0, key)] }

/-- Firmware's table has room for n capabilities of an umpire's operation, and nothing that began earlier waits (16 R403). -/
def State.firmwareRoom (s : State) (key n : Nat) : Bool :=
  decide (s.fw.caps.length + n ≤ 1024) && ((s.fw.capWait.head?).all fun w => decide (w.2 = key))

/-- Escalations wait for room in order (16 R403). -/
def State.sendCap (s : State) (c : BitVec 128) : State :=
  if s.capRoom && s.fw.capWait.isEmpty then s.receiveCap c
  else s.setFw fun f => { f with capWait := f.capWait ++ [(c, 0)] }

/-- A table entry was freed: those that wait come in, up to an operation, which takes its own turn. `n` bounds them. -/
def State.admitCaps (s : State) : Nat → State
  | 0 => s
  | n + 1 =>
    match s.fw.capWait with
    | [] => s
    | (c, key) :: t =>
      if key ≠ 0 then (if (s.strand key).isSome then s else (s.setFw fun f => { f with capWait := t }).admitCaps n)
      else if s.capRoom then ((s.setFw fun f => { f with capWait := t }).receiveCap c).admitCaps n else s

/-- An umpire's operation waits no more: it went on, or its umpire is gone. -/
def State.unqueue (s : State) (key : Nat) : State :=
  if s.fw.capWait.any fun w => decide (w.2 = key) then
    let s1 := s.setFw fun f => { f with capWait := f.capWait.filter fun w => !decide (w.2 = key) }
    s1.admitCaps s1.fw.capWait.length
  else s

/-- Free the entry of a handle (16 R403). -/
def State.freeHandle (s : State) (h : Nat) : State :=
  let s1 := s.dropCap h
  s1.admitCaps s1.fw.capWait.length

/-- Forget a gang of 8 once its members' capabilities are given out: it is no held set (11 R330). -/
def State.forgetGang (s : State) (o : Strand) : State :=
  s.setSched fun d => { d with sets := d.sets.filter fun h => !(h.members.contains o.key && decide (4 < h.members.length)) }

/-- Escalate a freeze to firmware: reasons 1 no entry, 2 pool timeout, 3 depth (11 R318, R319, R331; 18 R465); 0 for a firmware
service, which is no recorded escalation. -/
def State.escalate (s : State) (o : Strand) (reason : Nat) : State :=
  let s1 := if reason = 0 then s
    else s.blackBox (dieOf o.core) 2 reason o.sid o.ctx (BitVec.ofNat 64 o.frz.cause.toNat)
  ((s1.capsOf o).foldl (fun s c => s.sendCap c) s1).forgetGang o

/-- A capability names the strand as it stands. -/
def names (o : Strand) (c : BitVec 128) : Bool :=
  capValid c && decide (capSid c = o.sid) && decide (capCtx c = o.ctx) && decide (capSerial c = o.serial.toNat)

/-- A strand with a deferred store has its umpire, waits for one, or is firmware's: whoever holds its capability receives those of its
gang (11 R329, R332); nobody receives them before its umpire has a frame. None: it has no umpire yet. -/
def State.joinUmpire (s : State) (o : Strand) : Option State :=
  let caps := (s.capsOf o).drop 1
  if !o.attached then none
  else if (s.pool (poolOf o.core)).pend.contains o.key then some s
  else
    match s.strands.find? fun u => (heldCaps u).any (names o) with
    | some u => some ((caps.foldl (fun s c =>
        match (s.strand u.key).bind fun u => giveCap u c with
        | some u => s.upd u.key fun _ => u
        | none => s.sendCap c) (s.markGs o)).forgetGang o)
    | none =>
      if (s.fw.caps.any fun h => names o h.cap) || (s.fw.capWait.any fun w => names o w.1) then
        some ((caps.foldl (fun s c => s.sendCap c) (s.markGs o)).forgetGang o)
      else none

/-- Spawn the umpire of a frozen strand, or of one with a deferred store, or escalate, or wait for a frame (11 R317-R319). -/
def State.spawnUmpire (s0 : State) (key : Nat) : State :=
  match s0.strand key with
  | none => s0
  | some o =>
  match s0.joinUmpire o with
  | some s1 => s1
  | none =>
    let s := (s0.markGs o).upd key fun x => { x with run := if x.run = .frozenPending then .frozen else x.run }
    let depth := (o.ump.map (·.depth)).getD 0
    let vec := ((s.ctxOf o.ctx).map fun c => c.umpvec.getD (o.frz.cause.toNat / 16) 0).getD 0
    if 2 ≤ depth then s.escalate o 3
    else if o.level = .firmware then s.escalate o 0
    else if vec = 0 ∨ vec.toNat % 8 ≠ 0 then s.escalate o 1
    else
      let id := poolOf o.core
      let p := s.pool id
      if 32 ≤ p.used.length then
        (s.setPool id fun p => { p with pend := p.pend ++ [key] }).upd key fun o =>
          if o.run = .frozen then { o with run := .frozenPending, since := s.tick } else o
      else
        let i := firstFree p.used 32 0
        let (u, s1) := s.fresh
        let s2 := s1.setPool id fun p => { p with used := i :: p.used }
        let borrower := s2.strands.find? fun x => x.borrower && decide (x.core = o.core) && !x.out && !decide (x.run = .empty)
        let s3 := (s2.addStrand (umpireOf s2 u (umpidBase id + i) (depth + 1) o (s2.capsOf o))).forgetGang o
        if borrower.isSome then s3.later (.strokeSlotReclaim o.core) else s3

/-- Free frames of a pool go to the oldest strands that wait for one; a strand that is gone, or escalates, takes none. `n` bounds
them (11 R319). -/
def State.servePool (s : State) (id : Nat) : Nat → State
  | 0 => s
  | n + 1 =>
    match (s.pool id).pend with
    | [] => s
    | k :: t =>
      if 32 ≤ (s.pool id).used.length then s
      else ((s.setPool id fun p => { p with pend := t }).spawnUmpire k).servePool id n

/-- A frame returns to its pool (11 R319). -/
def State.freeFrame (s : State) (o : Strand) : State :=
  match o.ump with
  | none => s
  | some u =>
    let id := poolOf o.core
    let s1 := s.setPool id fun p => { p with used := p.used.filter fun i => !decide (umpidBase id + i = u.umpid) }
    s1.servePool id (s1.pool id).pend.length

/-! ## Killing (11 R327) -/

/-- Count a discarded message at its sender (10 R294, 01 R26). -/
def State.countDrop (s : State) (i : InItem) : State :=
  if i.src = 0 then s
  else s.upd i.src (addLost (if i.q.toNat = 7 then 6 else if i.q.toNat < 4 then oppositeQ i.q.toNat else i.q.toNat) 1)

/-- Drafts a killed strand maps: abandoned, or counted as VDONE would unless that passes the set count. -/
def State.killDrafts (s : State) (o : Strand) (count : Bool) : State :=
  o.win.toList.foldl (fun s w =>
    match w with
    | .draft u _ =>
      if !count then s.abandon u
      else
        match s.ver u with
        | some v => if v.count.any fun c => decide (c ≤ v.contrib) then s else s.contribute u
        | none => s
    | _ => s) s

/-- The partner of a strand in XSWAP freezes when it waits for it (07 R209). -/
def State.killPartner (s : State) (o : Strand) : State :=
  if crewCol o = crewRow o then s
  else
    match s.memberAt o (crewRow o) (crewCol o) with
    | some p =>
      if p.xs.any fun x => !x.fin then
        (s.upd p.key fun x => { x with xs := none }).freezeAny p.key (Raise.of Cause.xswapPartnerLost)
      else s
    | none => s

/-- The barrier of a killed member, by its crew's policy. -/
def State.killBarrier (s : State) (o : Strand) : State :=
  match o.crew with
  | none => s
  | some w =>
    let s1 := s.updCrew w fun c => { c with gone := c.gone ++ [o.sid] }
    if (s1.crew w).any (·.poison) then s1.updCrew w fun c => { c with poisoned := true } else s1.leaveBarrier o

/-- Free a cap register: the oldest pending capability enters the lowest free one (11 R321). -/
def freeCap (i : Nat) (u : Strand) : Strand :=
  let u1 := { u with caps := u.caps.setIfInBounds i 0 }
  match u1.ump with
  | some r =>
    match r.pend, (List.range 4).find? fun j => !capValid (u1.caps.getD j 0) with
    | c :: t, some j => { u1 with caps := u1.caps.setIfInBounds j c, ump := some { r with pend := t } }
    | _, _ => u1
  | none => u1

/-- Room an umpire has for capabilities. -/
def capPlaces (u : Strand) : Nat :=
  (u.caps.toList.filter fun c => !capValid c).length + ((u.ump.map fun r => 8 - r.pend.length).getD 0)

/-- Pass the capabilities of a killed umpire to its killer, the rest to firmware. -/
def State.passCaps (s : State) (killer : Option Nat) (cs : List (BitVec 128)) : State :=
  cs.foldl (fun s c =>
    match (killer.bind s.strand).bind fun u => giveCap u c with
    | some u => s.upd u.key fun _ => u
    | none => if killer.isSome && s.capRoom then s.receiveCap c else s.sendCap c) s

/-- Kill one strand. Its record stays without a slot while its launch lives, so that thieves and dispatch find its deque. Whoever waits at
GANG for it freezes (01 R41). -/
def State.killOne (s : State) (killer : Option Nat) (key : Nat) (count : Bool) : State :=
  match s.strand key with
  | none => s
  | some o =>
    let s0 := match s.gangOf o with
      | some g => s.dissolve g
      | none => s
    let s1 := (((s0.endSet key).killDrafts o count).killPartner o).killBarrier o
    let held := o.inbox.filter fun i => decide (4 ≤ i.q.toNat)
    let s2 := { held.foldl State.countDrop s1 with undo := s1.undo.filter fun p => !decide (p.key = key) }.setCore o.core fun c =>
      { c with pipe := c.pipe.filter fun m => m.started || !decide (m.key = key) }
    let s3 := s2.setPool (poolOf o.core) fun p => { p with pend := p.pend.filter fun k => !decide (k = key) }
    let s4 := (s3.updLaunch (o.launch.getD 0) fun l => { l with killed := true }).retireStrand o
    let s5 := if o.launch.isSome ∧ o.ump.isNone then
        s4.addStrand { Strand.blank with key := o.key, sid := o.sid, level := o.level, ctx := o.ctx, launch := o.launch,
                                          dqbase := o.dqbase, dqmask := o.dqmask }
      else s4
    ((((s5.unqueue key).passCaps killer (if o.ump.isSome then heldCaps o else [])).freeFrame o).failFormers 8 (gangWaiters s o))

/-- FKILL's effect on a strand, and on the other of its pair. -/
def State.kill (s : State) (killer : Option Nat) (key : Nat) (count : Bool) : State :=
  match s.strand key with
  | none => s
  | some o => (s.both o).foldl (fun s k => s.killOne killer k count) s

end Sys2Proof.Machine
end

