-- ==== Sys2Proof/Machine/Vector.lean ====
section
/-! DEFINITION. The vector slot: masks, lanes, floating point, conversion and coding, permutes, reductions and queue pushes
(08 R230-R256). -/

namespace Sys2Proof.Machine

open Sys2Proof

/-! ## Mask operations and VNOP (08 R234) -/

/-- VNOP (08 R234). -/
def sylVnop : Syl := fun _ s => .ok s .next

/-- A mask result. -/
def maskOp (kd : K3) (f : Strand → Word) : Syl := fun o s => .ok (s.wk kd (f o)) .next

/-- KAND (08 R234). -/
def sylKand (kd ka kb : K3) : Syl := maskOp kd fun o => o.kr ka &&& o.kr kb

/-- KOR (08 R234). -/
def sylKor (kd ka kb : K3) : Syl := maskOp kd fun o => o.kr ka ||| o.kr kb

/-- KXOR (08 R234). -/
def sylKxor (kd ka kb : K3) : Syl := maskOp kd fun o => o.kr ka ^^^ o.kr kb

/-- KNOT (08 R234). -/
def sylKnot (kd ka : K3) : Syl := maskOp kd fun o => ~~~o.kr ka

/-- KMOV (08 R234). -/
def sylKmov (kd ka : K3) : Syl := maskOp kd fun o => o.kr ka

/-! ## Vector integer (08 R235-R237) -/

/-- A lane-by-lane integer operation of two sources. -/
def vint2 (vd : R5) (va : VSrc) (vb : R5) (k : K3) (ew : Ew) (f : Nat → Nat → Nat → Nat × Evs) : Syl := fun o s =>
  withSrc va o s fun a s1 =>
    let w := ew.bits
    let b := o.vr vb
    retV s1 vd (overLanes w ew.lanes (o.active k) (o.vr vd) fun i => f w (laneOf w a i) (laneOf w b i))

/-- A lane-by-lane integer operation of one source. -/
def vint1 (vd : R5) (va : VSrc) (k : K3) (ew : Ew) (f : Nat → Nat → Nat) : Syl := fun o s =>
  withSrc va o s fun a s1 =>
    let w := ew.bits
    retV s1 vd (overLanes w ew.lanes (o.active k) (o.vr vd) fun i => (f w (laneOf w a i), Evs.zero))

/-- A lane function that counts nothing. -/
def quiet (f : Nat → Nat → Nat → Nat) : Nat → Nat → Nat → Nat × Evs := fun w a b => (f w a b, Evs.zero)

/-- A signed result clamped to w bits, counted in EVSAT (08 R235). -/
def satLane (w : Nat) (x : Int) : Nat × Evs :=
  let c := clampInt (-((2 ^ (w - 1) : Nat) : Int)) (((2 ^ (w - 1) : Nat) : Int) - 1) x
  (wrapInt w c, if c = x then Evs.zero else Evs.clamp)

/-- VADD (08 R235). -/
def sylVadd (vd : R5) (va : VSrc) (vb : R5) (k : K3) (ew : Ew) : Syl :=
  vint2 vd va vb k ew (quiet fun w a b => (a + b) % 2 ^ w)

/-- VADD.sat (08 R235). -/
def sylVaddSat (vd : R5) (va : VSrc) (vb : R5) (k : K3) (ew : Ew) : Syl :=
  vint2 vd va vb k ew fun w a b => satLane w (sintW w a + sintW w b)

/-- VSUB of vectors (08 R235). -/
def sylVsubVector (vd : R5) (va : VSrc) (vb : R5) (k : K3) (ew : Ew) : Syl :=
  vint2 vd va vb k ew (quiet fun w a b => (a + (2 ^ w - b)) % 2 ^ w)

/-- VSUB.sat (08 R235). -/
def sylVsubSat (vd : R5) (va : VSrc) (vb : R5) (k : K3) (ew : Ew) : Syl :=
  vint2 vd va vb k ew fun w a b => satLane w (sintW w a - sintW w b)

/-- VMUL (08 R235). -/
def sylVmul (vd : R5) (va : VSrc) (vb : R5) (k : K3) (ew : Ew) : Syl :=
  vint2 vd va vb k ew (quiet fun w a b => a * b % 2 ^ w)

/-- VMULH (08 R235). -/
def sylVmulh (vd : R5) (va : VSrc) (vb : R5) (k : K3) (ew : Ew) : Syl :=
  vint2 vd va vb k ew (quiet fun w a b => wrapInt w (sintW w a * sintW w b / ((2 ^ w : Nat) : Int)))

/-- VAND (08 R235). -/
def sylVand (vd : R5) (va : VSrc) (vb : R5) (k : K3) (ew : Ew) : Syl := vint2 vd va vb k ew (quiet fun _ a b => a &&& b)

/-- VOR (08 R235). -/
def sylVor (vd : R5) (va : VSrc) (vb : R5) (k : K3) (ew : Ew) : Syl := vint2 vd va vb k ew (quiet fun _ a b => a ||| b)

/-- VXOR (08 R235). -/
def sylVxor (vd : R5) (va : VSrc) (vb : R5) (k : K3) (ew : Ew) : Syl := vint2 vd va vb k ew (quiet fun _ a b => a ^^^ b)

/-- VANDN (08 R235). -/
def sylVandn (vd : R5) (va : VSrc) (vb : R5) (k : K3) (ew : Ew) : Syl :=
  vint2 vd va vb k ew (quiet fun w a b => a &&& (2 ^ w - 1 - b))

/-- VSLL: 0 from the width on (08 R235). -/
def sylVsll (vd : R5) (va : VSrc) (vb : R5) (k : K3) (ew : Ew) : Syl :=
  vint2 vd va vb k ew (quiet fun w a b => if w ≤ b then 0 else a * 2 ^ b % 2 ^ w)

/-- VSRL: 0 from the width on (08 R235). -/
def sylVsrl (vd : R5) (va : VSrc) (vb : R5) (k : K3) (ew : Ew) : Syl :=
  vint2 vd va vb k ew (quiet fun w a b => if w ≤ b then 0 else a / 2 ^ b)

/-- VSRA: the sign from the width on (08 R235). -/
def sylVsra (vd : R5) (va : VSrc) (vb : R5) (k : K3) (ew : Ew) : Syl :=
  vint2 vd va vb k ew (quiet fun w a b => wrapInt w (sintW w a / ((2 ^ Nat.min b w : Nat) : Int)))

/-- VMIN (08 R235). -/
def sylVmin (vd : R5) (va : VSrc) (vb : R5) (k : K3) (ew : Ew) : Syl :=
  vint2 vd va vb k ew (quiet fun w a b => if sintW w a < sintW w b then a else b)

/-- VMAX (08 R235). -/
def sylVmax (vd : R5) (va : VSrc) (vb : R5) (k : K3) (ew : Ew) : Syl :=
  vint2 vd va vb k ew (quiet fun w a b => if sintW w a < sintW w b then b else a)

/-- VMINU (08 R235). -/
def sylVminu (vd : R5) (va : VSrc) (vb : R5) (k : K3) (ew : Ew) : Syl :=
  vint2 vd va vb k ew (quiet fun _ a b => Nat.min a b)

/-- VMAXU (08 R235). -/
def sylVmaxu (vd : R5) (va : VSrc) (vb : R5) (k : K3) (ew : Ew) : Syl :=
  vint2 vd va vb k ew (quiet fun _ a b => Nat.max a b)

/-- VABS (08 R235). -/
def sylVabs (vd : R5) (va : VSrc) (k : K3) (ew : Ew) : Syl := vint1 vd va k ew fun w a => wrapInt w (sintW w a).natAbs

/-- VPOPC (08 R235). -/
def sylVpopc (vd : R5) (va : VSrc) (k : K3) (ew : Ew) : Syl := vint1 vd va k ew fun w a => popcNat a w

/-- VSEL: the mask chooses, every lane is written (08 R236). -/
def sylVsel (vd : R5) (va : VSrc) (vb : R5) (k : K3) (ew : Ew) : Syl := fun o s =>
  withSrc va o s fun a s1 =>
    let w := ew.bits
    retV s1 vd
      (packLanes w ((List.range ew.lanes).map fun i => if o.active k i then laneOf w a i else laneOf w (o.vr vb) i), Evs.zero)

/-- An integer comparison into a mask (08 R236). -/
def vcmp (kd : K3) (va : VSrc) (vb : R5) (k : K3) (ew : Ew) (c : Nat → Nat → Nat → Bool) : Syl := fun o s =>
  withSrc va o s fun a s1 =>
    let w := ew.bits
    retK s1 kd
      (packMask ((List.range ew.lanes).map fun i => o.active k i && c w (laneOf w a i) (laneOf w (o.vr vb) i))) Evs.zero

/-- VCMP.eq (08 R236). -/
def sylVcmpEq (kd : K3) (va : VSrc) (vb : R5) (k : K3) (ew : Ew) : Syl := vcmp kd va vb k ew fun _ a b => decide (a = b)

/-- VCMP.ne (08 R236). -/
def sylVcmpNe (kd : K3) (va : VSrc) (vb : R5) (k : K3) (ew : Ew) : Syl := vcmp kd va vb k ew fun _ a b => !decide (a = b)

/-- VCMP.lt (08 R236). -/
def sylVcmpLt (kd : K3) (va : VSrc) (vb : R5) (k : K3) (ew : Ew) : Syl :=
  vcmp kd va vb k ew fun w a b => decide (sintW w a < sintW w b)

/-- VCMP.le (08 R236). -/
def sylVcmpLe (kd : K3) (va : VSrc) (vb : R5) (k : K3) (ew : Ew) : Syl :=
  vcmp kd va vb k ew fun w a b => decide (sintW w a ≤ sintW w b)

/-- VCMP.ltu (08 R236). -/
def sylVcmpLtu (kd : K3) (va : VSrc) (vb : R5) (k : K3) (ew : Ew) : Syl := vcmp kd va vb k ew fun _ a b => decide (a < b)

/-- VCMP.leu (08 R236). -/
def sylVcmpLeu (kd : K3) (va : VSrc) (vb : R5) (k : K3) (ew : Ew) : Syl := vcmp kd va vb k ew fun _ a b => decide (a ≤ b)

/-- VMADD (08 R237). -/
def sylVmadd (vd va vb vc : R5) (k : K3) (ew : Ew) : Syl := fun o s =>
  let w := ew.bits
  retV s vd (overLanes w ew.lanes (o.active k) (o.vr vd) fun i =>
    ((laneOf w (o.vr va) i * laneOf w (o.vr vb) i + laneOf w (o.vr vc) i) % 2 ^ w, Evs.zero))

/-! ## Vector floating point (08 R238-R243) -/

/-- The format of a width. -/
def Fw.ff : Fw → FF
  | .f32 => ff32
  | .f64 => ff64

/-- Lanes of a width. -/
def Fw.lanes : Fw → Nat
  | .f32 => 16
  | .f64 => 8

/-- In trap mode, the first active lane with a subnormal among the sources freezes the strand (04 R132, R133; 08 R233). -/
def subTrap (o : Strand) (n : Nat) (act : Nat → Bool) (isSub : Nat → Bool) : Option Nat :=
  if o.flush then none else (List.range n).find? fun i => act i && isSub i

/-- Run a lane computation unless a source subnormal traps. -/
def trapOr (o : Strand) (s : State) (n : Nat) (act : Nat → Bool) (isSub : Nat → Bool) (x : SylOut) : SylOut :=
  match subTrap o n act isSub with
  | some i => .freeze s { Raise.of Cause.subnormalOperand with lane := i } none
  | none => x

/-- A rounding operation of two sources (08 R240). -/
def vfp2 (vd : R5) (va : VSrc) (vb : R5) (k : K3) (w : Fw) (f : FF → RMode → Bool → Nat → Nat → Nat × Evs) : Syl :=
  fun o s =>
    withSrc va o s fun a s1 =>
      let g := Fw.ff w
      let n := Fw.lanes w
      let b := o.vr vb
      trapOr o s1 n (o.active k) (fun i => g.isSub (laneOf g.width a i) || g.isSub (laneOf g.width b i))
        (retV s1 vd (overLanes g.width n (o.active k) (o.vr vd) fun i =>
          f g o.mode o.flush (laneOf g.width a i) (laneOf g.width b i)))

/-- A rounding operation of one source (08 R240). -/
def vfp1 (vd : R5) (va : VSrc) (k : K3) (w : Fw) (op : FOp) : Syl := fun o s =>
  withSrc va o s fun a s1 =>
    let g := Fw.ff w
    let n := Fw.lanes w
    trapOr o s1 n (o.active k) (fun i => g.isSub (laneOf g.width a i))
      (retV s1 vd (overLanes g.width n (o.active k) (o.vr vd) fun i => g.lane op o.mode o.flush (laneOf g.width a i) 0))

/-- VFADD (08 R240). -/
def sylVfadd (vd : R5) (va : VSrc) (vb : R5) (k : K3) (w : Fw) : Syl := vfp2 vd va vb k w fun g m z a b => g.lane .add m z a b

/-- VFSUB (08 R240). -/
def sylVfsub (vd : R5) (va : VSrc) (vb : R5) (k : K3) (w : Fw) : Syl := vfp2 vd va vb k w fun g m z a b => g.lane .sub m z a b

/-- VFMUL (08 R240). -/
def sylVfmul (vd : R5) (va : VSrc) (vb : R5) (k : K3) (w : Fw) : Syl := vfp2 vd va vb k w fun g m z a b => g.lane .mul m z a b

/-- VFDIV (08 R240). -/
def sylVfdiv (vd : R5) (va : VSrc) (vb : R5) (k : K3) (w : Fw) : Syl := vfp2 vd va vb k w fun g m z a b => g.lane .div m z a b

/-- Flush the sources of a minimum or comparison, then apply it (04 R133, 08 R242). -/
def flushed2 {α : Type} (g : FF) (z : Bool) (a b : Nat) (f : Nat → Nat → α × Evs) : α × Evs :=
  let (a1, ea) := g.source z a
  let (b1, eb) := g.source z b
  let (r, e) := f a1 b1
  (r, (e.add ea).add eb)

/-- VFMIN (08 R242). -/
def sylVfmin (vd : R5) (va : VSrc) (vb : R5) (k : K3) (w : Fw) : Syl :=
  vfp2 vd va vb k w fun g _ z a b => flushed2 g z a b (g.minmax false)

/-- VFMAX (08 R242). -/
def sylVfmax (vd : R5) (va : VSrc) (vb : R5) (k : K3) (w : Fw) : Syl :=
  vfp2 vd va vb k w fun g _ z a b => flushed2 g z a b (g.minmax true)

/-- VFSQRT (08 R240). -/
def sylVfsqrt (vd : R5) (va : VSrc) (k : K3) (w : Fw) : Syl := vfp1 vd va k w .sqrt

/-- VFRCP (08 R240). -/
def sylVfrcp (vd : R5) (va : VSrc) (k : K3) (w : Fw) : Syl := vfp1 vd va k w .rcp

/-- VFRSQ (08 R240). -/
def sylVfrsq (vd : R5) (va : VSrc) (k : K3) (w : Fw) : Syl := vfp1 vd va k w .rsq

/-- VFEXP2 (08 R240). -/
def sylVfexp2 (vd : R5) (va : VSrc) (k : K3) (w : Fw) : Syl := vfp1 vd va k w .exp2

/-- VFLOG2 (08 R240). -/
def sylVflog2 (vd : R5) (va : VSrc) (k : K3) (w : Fw) : Syl := vfp1 vd va k w .log2

/-- VTSUM writes the pair to vd and vd+1 (08 R243). -/
def sylVtsum (vd : R5) (va : VSrc) (vb : R5) (k : K3) (w : Fw) : Syl := fun o s =>
  withSrc va o s fun a s1 =>
    let g := Fw.ff w
    let n := Fw.lanes w
    let b := o.vr vb
    let t := fun i => g.laneTsum o.flush (laneOf g.width a i) (laneOf g.width b i)
    trapOr o s1 n (o.active k) (fun i => g.isSub (laneOf g.width a i) || g.isSub (laneOf g.width b i))
      (let x := overLanes g.width n (o.active k) (o.vr vd) fun i => ((t i).1, (t i).2.2)
       let y := overLanes g.width n (o.active k) (o.vr (vd + 1)) fun i => ((t i).2.1, Evs.zero)
       retV (s1.wv (vd + 1) y.1) vd x)

/-- A floating-point comparison into a mask (08 R242). -/
def vfcmp (c : FCond) (kd : K3) (va : VSrc) (vb : R5) (k : K3) (w : Fw) : Syl := fun o s =>
  withSrc va o s fun a s1 =>
    let g := Fw.ff w
    let n := Fw.lanes w
    let b := o.vr vb
    let t := (List.range n).map fun i =>
      if o.active k i then flushed2 g o.flush (laneOf g.width a i) (laneOf g.width b i) (g.cmp c) else (false, Evs.zero)
    trapOr o s1 n (o.active k) (fun i => g.isSub (laneOf g.width a i) || g.isSub (laneOf g.width b i))
      (retK s1 kd (packMask (t.map (·.1))) (sumEvs (t.map (·.2))))

/-- VFCMP.eq (08 R242). -/
def sylVfcmpEq (kd : K3) (va : VSrc) (vb : R5) (k : K3) (w : Fw) : Syl := vfcmp .eq kd va vb k w

/-- VFCMP.lt (08 R242). -/
def sylVfcmpLt (kd : K3) (va : VSrc) (vb : R5) (k : K3) (w : Fw) : Syl := vfcmp .lt kd va vb k w

/-- VFCMP.le (08 R242). -/
def sylVfcmpLe (kd : K3) (va : VSrc) (vb : R5) (k : K3) (w : Fw) : Syl := vfcmp .le kd va vb k w

/-- VFCMP.un (08 R242). -/
def sylVfcmpUn (kd : K3) (va : VSrc) (vb : R5) (k : K3) (w : Fw) : Syl := vfcmp .un kd va vb k w

/-- A sign operation: the sign bit from the two signs, the magnitude of a (08 R242). -/
def vsgn (f : Bool → Bool → Bool) (vd : R5) (va : VSrc) (vb : R5) (k : K3) (w : Fw) : Syl := fun o s =>
  withSrc va o s fun a s1 =>
    let g := Fw.ff w
    let m := 2 ^ (g.width - 1)
    retV s1 vd (overLanes g.width (Fw.lanes w) (o.active k) (o.vr vd) fun i =>
      let x := laneOf g.width a i
      (x % m + g.sgn (f (g.neg x) (g.neg (laneOf g.width (o.vr vb) i))), Evs.zero))

/-- VFSGN.cp (08 R242). -/
def sylVfsgnCp (vd : R5) (va : VSrc) (vb : R5) (k : K3) (w : Fw) : Syl := vsgn (fun _ y => y) vd va vb k w

/-- VFSGN.neg (08 R242). -/
def sylVfsgnNeg (vd : R5) (va : VSrc) (vb : R5) (k : K3) (w : Fw) : Syl := vsgn (fun _ y => !y) vd va vb k w

/-- VFSGN.xor (08 R242). -/
def sylVfsgnXor (vd : R5) (va : VSrc) (vb : R5) (k : K3) (w : Fw) : Syl := vsgn xor vd va vb k w

/-- VFCLASS (08 R242). -/
def sylVfclass (vd : R5) (va : VSrc) (k : K3) (w : Fw) : Syl := fun o s =>
  withSrc va o s fun a s1 =>
    let g := Fw.ff w
    retV s1 vd (overLanes g.width (Fw.lanes w) (o.active k) (o.vr vd) fun i => (g.classOf (laneOf g.width a i), Evs.zero))

/-- A fused multiply-add (08 R241). -/
def vfma (negate : Bool) (vd va vb vc : R5) (k : K3) (w : Fw) : Syl := fun o s =>
  let g := Fw.ff w
  let n := Fw.lanes w
  let l := fun (r : R5) (i : Nat) => laneOf g.width (o.vr r) i
  trapOr o s n (o.active k) (fun i => g.isSub (l va i) || g.isSub (l vb i) || g.isSub (l vc i))
    (retV s vd (overLanes g.width n (o.active k) (o.vr vd) fun i =>
      g.laneFma negate o.mode o.flush (l va i) (l vb i) (l vc i)))

/-- VFMA (08 R241). -/
def sylVfma (vd va vb vc : R5) (k : K3) (w : Fw) : Syl := vfma false vd va vb vc k w

/-- VFNMA (08 R241). -/
def sylVfnma (vd va vb vc : R5) (k : K3) (w : Fw) : Syl := vfma true vd va vb vc k w

/-! ## Conversion and coding (08 R244-R249) -/

/-- Does an instruction with this rm field and target draw stochastic bits (04 R124-R126). -/
def draws (o : Strand) (rm : Rm) (dst : Fmt) : Bool :=
  decide (rmCode o.fpmode rm = 5) && rmOk .sr dst && o.sre

/-- Run active lanes in ascending order, drawing one step for each when `dr` holds (04 R126): values, events and the new
RNGS. `f` takes the draw and the lane. -/
def drawLanes (dr : Bool) (act : Nat → Bool) (f : Option Nat → Nat → Nat × Evs) (keep : Nat → Nat) :
    List Nat → Word → List Nat × Evs × Word
  | [], r => ([], Evs.zero, r)
  | i :: t, r =>
    if act i then
      let (r1, d) := if dr then (let p := rngStep r; (p.1, some p.2)) else (r, none)
      let (x, e) := f d i
      let (xs, es, r2) := drawLanes dr act f keep t r1
      (x :: xs, e.add es, r2)
    else
      let (xs, es, r2) := drawLanes dr act f keep t r
      (keep i :: xs, es, r2)

/-- Replace the low bits of a vector by packed lanes, keeping the rest (08 R231, R245). -/
def lowLanes (old : Vec) (w n : Nat) (l : List Nat) : Vec :=
  BitVec.ofNat 512 (packNat w l + old.toNat / 2 ^ (w * n) * 2 ^ (w * n))

/-- Finish a conversion: registers, RNGS and counters (08 R231). -/
def retConv (s : State) (vd : R5) (x : Vec) (e : Evs) (dr : Bool) (r : Word) : SylOut :=
  let s1 := s.wv vd x
  .ok ((if dr then s1.setMe fun o => { o with rngs := r } else s1).tally e) .next

/-- VCVT (08 R245). -/
def sylVcvt (vd va : R5) (src dst : Fmt) (rm : Rm) (sat : Bool) (k : K3) : Syl := fun o s =>
  let ws := Fmt.width src
  let wd := Fmt.width dst
  let n := 512 / Nat.max ws wd
  let a := o.vr va
  let isSub := fun i => match Fmt.ff src with
    | some f => f.isSub (fld (laneOf ws a i) 0 f.width)
    | none => false
  let dr := draws o rm dst
  let (l, e, r) := drawLanes dr (o.active k)
    (fun d i => convert src dst (modeOf (rmCode o.fpmode rm) d) sat o.flush (laneOf ws a i)) (laneOf wd (o.vr vd))
    (List.range n) o.rngs
  trapOr o s n (o.active k) isSub (retConv s vd (lowLanes (o.vr vd) wd n l) e dr r)

/-- The table image of FMTA or FMTB (04 R120): its 256 entries, or none where the pointer is not a 1 KiB-aligned address in
own local memory. -/
def tableImage (s : State) (o : Strand) (p : Word) : Option (Nat × List (BitVec 32)) :=
  match regionOf p with
  | .inr (.mine off) =>
    if off % 1024 = 0 then
      let b := lkey o.core off
      some (b, (List.range 256).map fun i => BitVec.ofNat 32 (s.loadNat (.mem (b + 4 * i)) 4))
    else none
  | _ => none

/-- The image an instruction names (08 R244). -/
def imageOf (s : State) (o : Strand) (tbl : Bool) : Option (Nat × List (BitVec 32)) :=
  tableImage s o (if tbl then o.fmtb else o.fmta)

/-- Use a table image and its key, freezing where there is none; poison in it is consumed (04 R120, 18 R456). -/
def withImage (s : State) (o : Strand) (tbl : Bool) (k : Nat → List (BitVec 32) → SylOut) : SylOut :=
  let p := if tbl then o.fmtb else o.fmta
  match imageOf s o tbl with
  | none => frz s Cause.tableAddress
  | some (b, t) =>
    match s.poisonIn (.mem b) 1024 with
    | some i => .freeze s (Raise.at' Cause.ueConsumed 0 (p + BitVec.ofNat 64 i)) none
    | none => k b t

/-- The scale of a coded vector (08 R246); 1.0 for the unscaled forms. -/
def scaleOf (scaled : Bool) (v : Vec) : Option (Nat × Int) := if scaled then s9 (fld v.toNat 496 9) else some (1, 0)

/-- The order check of an image for encoding, made when no verdict is kept (04 R130, 08 R246): it counts the NaN codes it decodes
(04 R121) and keeps the verdict. -/
def State.checkOrder (s : State) (b : Nat) (t : List (BitVec 32)) (c4 : Bool) : State :=
  if (s.core s.me.core).verdicts.contains (b, c4) then s
  else
    let s1 := s.setCore s.me.core fun c => { c with verdicts := c.verdicts ++ [(b, c4)] }
    s1.tally { Evs.zero with nan := nanCodes t (if c4 then 16 else 256) }

/-- VENC and VENC.s (08 R247). -/
def venc (scaled : Bool) (vd va : R5) (c4 : Bool) (rm : Rm) (sat : Bool) (k : K3) (tbl : Bool) : Syl := fun o s =>
  withImage s o tbl fun b t =>
    if !tableOrdered t c4 then frz s Cause.tableUnordered
    else
      let w := if c4 then 4 else 8
      let sc := scaleOf scaled (o.vr vd)
      let dr := draws o rm (if c4 then .c4 else .c8)
      let x := fun i => laneOf 32 (o.vr va) i
      let (l, e, r) := drawLanes dr (o.active k)
        (fun d i => encLane t c4 (modeOf (rmCode o.fpmode rm) d) sat o.flush sc (x i)) (laneOf w (o.vr vd))
        (List.range 16) o.rngs
      trapOr o s 16 (o.active k) (fun i => encSub sc (x i)) (retConv (s.checkOrder b t c4) vd (lowLanes (o.vr vd) w 16 l) e dr r)

/-- VDEC and VDEC.s (08 R248). -/
def vdec (scaled : Bool) (vd va : R5) (c4 : Bool) (rm : Rm) (sat : Bool) (k : K3) (tbl : Bool) : Syl := fun o s =>
  withImage s o tbl fun _ t =>
    let w := if c4 then 4 else 8
    let sc := scaleOf scaled (o.vr va)
    retV s vd (overLanes 32 16 (o.active k) (o.vr vd) fun i =>
      decLane t (modeOf (rmCode o.fpmode rm) none) sat o.flush sc (laneOf w (o.vr va) i))

/-- VENC (08 R247). -/
def sylVenc (vd va : R5) (c4 : Bool) (rm : Rm) (sat : Bool) (k : K3) (tbl : Bool) : Syl := venc false vd va c4 rm sat k tbl

/-- VENC.s (08 R247). -/
def sylVencS (vd va : R5) (c4 : Bool) (rm : Rm) (sat : Bool) (k : K3) (tbl : Bool) : Syl := venc true vd va c4 rm sat k tbl

/-- VDEC (08 R248). -/
def sylVdec (vd va : R5) (c4 : Bool) (rm : Rm) (sat : Bool) (k : K3) (tbl : Bool) : Syl := vdec false vd va c4 rm sat k tbl

/-- VDEC.s (08 R248). -/
def sylVdecS (vd va : R5) (c4 : Bool) (rm : Rm) (sat : Bool) (k : K3) (tbl : Bool) : Syl := vdec true vd va c4 rm sat k tbl

/-- VFKEY (08 R249). -/
def sylVfkey (vd : R5) (va : VSrc) (k : K3) : Syl :=
  vint1 vd va k .e32 fun _ a => if a < 2 ^ 31 then a + 2 ^ 31 else 2 ^ 32 - 1 - a

/-! ## Permute, reduce, scan and compress (08 R250-R254) -/

/-- VPERM (08 R250). -/
def sylVperm (vd : R5) (va : VSrc) (vb : R5) (k : K3) (ew : Ew) : Syl := fun o s =>
  withSrc va o s fun a s1 =>
    let w := ew.bits
    retV s1 vd (overLanes w ew.lanes (o.active k) (o.vr vd) fun i =>
      (laneOf w a (laneOf w (o.vr vb) i % ew.lanes), Evs.zero))

/-- VBCAST (08 R250). -/
def sylVbcast (vd a : R5) (k : K3) (ew : Ew) : Syl := fun o s =>
  retV s vd (overLanes ew.bits ew.lanes (o.active k) (o.vr vd) fun _ => ((o.g a).toNat % 2 ^ ew.bits, Evs.zero))

/-- VEXT (08 R250). -/
def sylVext (d : R5) (va : VSrc) (b : R5) (ew : Ew) : Syl := fun o s =>
  withSrc va o s fun a s1 => retG s1 d (BitVec.ofNat 64 (laneOf ew.bits a ((o.g b).toNat % ew.lanes)))

/-- VINS (08 R250). -/
def sylVins (vd a b : R5) (ew : Ew) : Syl := fun o s =>
  .ok (s.wv vd (setLane ew.bits (o.vr vd) ((o.g b).toNat % ew.lanes) (o.g a).toNat)) .next

/-- VSLIDE.up (08 R250). -/
def sylVslideUp (vd : R5) (va : VSrc) (b : R5) (k : K3) (ew : Ew) : Syl := fun o s =>
  withSrc va o s fun a s1 =>
    let sh := (o.g b).toNat
    retV s1 vd (overLanes ew.bits ew.lanes (o.active k) (o.vr vd) fun i =>
      (if sh ≤ i then laneOf ew.bits a (i - sh) else 0, Evs.zero))

/-- VSLIDE.dn (08 R250). -/
def sylVslideDn (vd : R5) (va : VSrc) (b : R5) (k : K3) (ew : Ew) : Syl := fun o s =>
  withSrc va o s fun a s1 =>
    let sh := (o.g b).toNat
    retV s1 vd (overLanes ew.bits ew.lanes (o.active k) (o.vr vd) fun i =>
      (if i + sh < ew.lanes then laneOf ew.bits a (i + sh) else 0, Evs.zero))

/-- The binary format of an fp kind's lanes. -/
def ewFf : Ew → FF
  | .e64 => ff64
  | _ => ff32

/-- Identity of a reduction kind (08 R251). -/
def redIdentity (kind : RedKind) (ew : Ew) : Nat :=
  let w := ew.bits
  match kind with
  | .add | .or | .xor | .maxu => 0
  | .min => 2 ^ (w - 1) - 1
  | .max => 2 ^ (w - 1)
  | .minu | .and => 2 ^ w - 1
  | .fadd => (ewFf ew).sgn true
  | .fmax => (ewFf ew).inf true
  | .fmin => (ewFf ew).inf false

/-- One node of a reduction (08 R251). -/
def redOp (kind : RedKind) (ew : Ew) (md : RMode) (flush : Bool) (a b : Nat) : Nat × Evs :=
  let w := ew.bits
  let g := ewFf ew
  match kind with
  | .add => ((a + b) % 2 ^ w, Evs.zero)
  | .min => (if sintW w b < sintW w a then b else a, Evs.zero)
  | .max => (if sintW w a < sintW w b then b else a, Evs.zero)
  | .minu => (Nat.min a b, Evs.zero)
  | .maxu => (Nat.max a b, Evs.zero)
  | .and => (a &&& b, Evs.zero)
  | .or => (a ||| b, Evs.zero)
  | .xor => (a ^^^ b, Evs.zero)
  | .fadd => g.lane .add md flush a b
  | .fmax => flushed2 g flush a b (g.minmax true)
  | .fmin => flushed2 g flush a b (g.minmax false)

/-- One level of the tree of 08 R251. -/
def redLevel (f : Nat → Nat → Nat × Evs) : List Nat → List Nat × Evs
  | a :: b :: t =>
    let (x, e) := f a b
    let (xs, es) := redLevel f t
    (x :: xs, e.add es)
  | l => (l, Evs.zero)

/-- The fixed tree of 08 R251, n levels. -/
def redTree (f : Nat → Nat → Nat × Evs) : Nat → List Nat → Nat × Evs
  | 0, l => (l.headD 0, Evs.zero)
  | n + 1, l =>
    let (l1, e) := redLevel f l
    let (x, es) := redTree f n l1
    (x, e.add es)

/-- VRED (08 R251). -/
def sylVred (vd : R5) (va : VSrc) (kind : RedKind) (k : K3) (ew : Ew) : Syl := fun o s =>
  withSrc va o s fun a s1 =>
    let w := ew.bits
    let l := (List.range ew.lanes).map fun i => if o.active k i then laneOf w a i else redIdentity kind ew
    let (x, e) := redTree (redOp kind ew o.mode o.flush) (Nat.log2 ew.lanes) l
    trapOr o s1 ew.lanes (o.active k) (fun i => kind.isFp && (ewFf ew).isSub (laneOf w a i))
      (retV s1 vd (setLane w (o.vr vd) 0 x, e))

/-- The running reduction of 08 R252. -/
def scanFrom (f : Nat → Nat → Nat × Evs) (act : Nat → Bool) (x keep : Nat → Nat) : List Nat → Nat → List Nat × Evs
  | [], _ => ([], Evs.zero)
  | i :: t, acc =>
    if act i then
      let (r, e) := f acc (x i)
      let (xs, es) := scanFrom f act x keep t r
      (r :: xs, e.add es)
    else
      let (xs, es) := scanFrom f act x keep t acc
      (keep i :: xs, es)

/-- VSCAN (08 R252). -/
def sylVscan (vd : R5) (va : VSrc) (kind : RedKind) (k : K3) (ew : Ew) : Syl := fun o s =>
  withSrc va o s fun a s1 =>
    let w := ew.bits
    let (l, e) := scanFrom (redOp kind ew o.mode o.flush) (o.active k) (laneOf w a) (laneOf w (o.vr vd))
      (List.range ew.lanes) (redIdentity kind ew)
    trapOr o s1 ew.lanes (o.active k) (fun i => kind.isFp && (ewFf ew).isSub (laneOf w a i))
      (retV s1 vd (packLanes w l, e))

/-- VCMPRS (08 R253). -/
def sylVcmprs (vd : R5) (va : VSrc) (k : K3) (ew : Ew) : Syl := fun o s =>
  withSrc va o s fun a s1 =>
    let l := ((List.range ew.lanes).filter (o.active k)).map (laneOf ew.bits a)
    retV s1 vd (packLanes ew.bits l, Evs.zero)

/-- Insert into an ascending list. -/
def insertAsc (x : Nat) : List Nat → List Nat
  | [] => [x]
  | y :: t => if x ≤ y then x :: y :: t else y :: insertAsc x t

/-- Sort ascending. -/
def sortAsc : List Nat → List Nat
  | [] => []
  | x :: t => insertAsc x (sortAsc t)

/-- VSORT (08 R254). -/
def vsort (desc : Bool) (vd : R5) (va : VSrc) : Syl := fun o s =>
  withSrc va o s fun a s1 =>
    let l := sortAsc (lanesOf 64 8 a)
    retV s1 vd (packLanes 64 (if desc then l.reverse else l), Evs.zero)

/-- VMERGE (08 R254). -/
def vmerge (desc : Bool) (vd : R5) (va : VSrc) (vb : R5) : Syl := fun o s =>
  withSrc va o s fun a s1 =>
    let l0 := sortAsc (lanesOf 64 8 a ++ lanesOf 64 8 (o.vr vb))
    let l := if desc then l0.reverse else l0
    retV (s1.wv (vd + 1) (packLanes 64 (l.drop 8))) vd (packLanes 64 (l.take 8), Evs.zero)

/-- VSORT.a (08 R254). -/
def sylVsortA (vd : R5) (va : VSrc) : Syl := vsort false vd va

/-- VSORT.d (08 R254). -/
def sylVsortD (vd : R5) (va : VSrc) : Syl := vsort true vd va

/-- VMERGE.a (08 R254). -/
def sylVmergeA (vd : R5) (va : VSrc) (vb : R5) : Syl := vmerge false vd va vb

/-- VMERGE.d (08 R254). -/
def sylVmergeD (vd : R5) (va : VSrc) (vb : R5) : Syl := vmerge true vd va vb

/-- VQPUSH: 8 words entered together (08 R256). -/
def sylVqpush (q : Q4) (va : R5) : Syl := fun o s =>
  match queueCause o true q with
  | some c => frz s c
  | none =>
    match s.pushQ o q ((lanesOf 64 8 (o.vr va)).map (BitVec.ofNat 64)) with
    | some s1 => .ok s1 .next
    | none => .park s .poll

/-! ## The bundles that hold one of these syllables alone (05 R142) -/

/-- VNOP beside an idle syllable (R234). -/
def execVnop (s : State) : Out := issueB sylVnop s

/-- KAND beside an idle syllable (R234). -/
def execKand (kd ka kb : K3) (s : State) : Out := issueB (sylKand kd ka kb) s

/-- KOR beside an idle syllable (R234). -/
def execKor (kd ka kb : K3) (s : State) : Out := issueB (sylKor kd ka kb) s

/-- KXOR beside an idle syllable (R234). -/
def execKxor (kd ka kb : K3) (s : State) : Out := issueB (sylKxor kd ka kb) s

/-- KNOT beside an idle syllable (R234). -/
def execKnot (kd ka : K3) (s : State) : Out := issueB (sylKnot kd ka) s

/-- KMOV beside an idle syllable (R234). -/
def execKmov (kd ka : K3) (s : State) : Out := issueB (sylKmov kd ka) s

/-- VADD beside an idle syllable (R235). -/
def execVadd (vd : R5) (va : VSrc) (vb : R5) (k : K3) (ew : Ew) (s : State) : Out := issueB (sylVadd vd va vb k ew) s

/-- VADD_SAT beside an idle syllable (R235). -/
def execVaddSat (vd : R5) (va : VSrc) (vb : R5) (k : K3) (ew : Ew) (s : State) : Out := issueB (sylVaddSat vd va vb k ew) s

/-- VSUB_VECTOR beside an idle syllable (R235). -/
def execVsubVector (vd : R5) (va : VSrc) (vb : R5) (k : K3) (ew : Ew) (s : State) : Out := issueB (sylVsubVector vd va vb k ew) s

/-- VSUB_SAT beside an idle syllable (R235). -/
def execVsubSat (vd : R5) (va : VSrc) (vb : R5) (k : K3) (ew : Ew) (s : State) : Out := issueB (sylVsubSat vd va vb k ew) s

/-- VMUL beside an idle syllable (R235). -/
def execVmul (vd : R5) (va : VSrc) (vb : R5) (k : K3) (ew : Ew) (s : State) : Out := issueB (sylVmul vd va vb k ew) s

/-- VMULH beside an idle syllable (R235). -/
def execVmulh (vd : R5) (va : VSrc) (vb : R5) (k : K3) (ew : Ew) (s : State) : Out := issueB (sylVmulh vd va vb k ew) s

/-- VAND beside an idle syllable (R235). -/
def execVand (vd : R5) (va : VSrc) (vb : R5) (k : K3) (ew : Ew) (s : State) : Out := issueB (sylVand vd va vb k ew) s

/-- VOR beside an idle syllable (R235). -/
def execVor (vd : R5) (va : VSrc) (vb : R5) (k : K3) (ew : Ew) (s : State) : Out := issueB (sylVor vd va vb k ew) s

/-- VXOR beside an idle syllable (R235). -/
def execVxor (vd : R5) (va : VSrc) (vb : R5) (k : K3) (ew : Ew) (s : State) : Out := issueB (sylVxor vd va vb k ew) s

/-- VANDN beside an idle syllable (R235). -/
def execVandn (vd : R5) (va : VSrc) (vb : R5) (k : K3) (ew : Ew) (s : State) : Out := issueB (sylVandn vd va vb k ew) s

/-- VSLL beside an idle syllable (R235). -/
def execVsll (vd : R5) (va : VSrc) (vb : R5) (k : K3) (ew : Ew) (s : State) : Out := issueB (sylVsll vd va vb k ew) s

/-- VSRL beside an idle syllable (R235). -/
def execVsrl (vd : R5) (va : VSrc) (vb : R5) (k : K3) (ew : Ew) (s : State) : Out := issueB (sylVsrl vd va vb k ew) s

/-- VSRA beside an idle syllable (R235). -/
def execVsra (vd : R5) (va : VSrc) (vb : R5) (k : K3) (ew : Ew) (s : State) : Out := issueB (sylVsra vd va vb k ew) s

/-- VMIN beside an idle syllable (R235). -/
def execVmin (vd : R5) (va : VSrc) (vb : R5) (k : K3) (ew : Ew) (s : State) : Out := issueB (sylVmin vd va vb k ew) s

/-- VMAX beside an idle syllable (R235). -/
def execVmax (vd : R5) (va : VSrc) (vb : R5) (k : K3) (ew : Ew) (s : State) : Out := issueB (sylVmax vd va vb k ew) s

/-- VMINU beside an idle syllable (R235). -/
def execVminu (vd : R5) (va : VSrc) (vb : R5) (k : K3) (ew : Ew) (s : State) : Out := issueB (sylVminu vd va vb k ew) s

/-- VMAXU beside an idle syllable (R235). -/
def execVmaxu (vd : R5) (va : VSrc) (vb : R5) (k : K3) (ew : Ew) (s : State) : Out := issueB (sylVmaxu vd va vb k ew) s

/-- VABS beside an idle syllable (R235). -/
def execVabs (vd : R5) (va : VSrc) (k : K3) (ew : Ew) (s : State) : Out := issueB (sylVabs vd va k ew) s

/-- VPOPC beside an idle syllable (R235). -/
def execVpopc (vd : R5) (va : VSrc) (k : K3) (ew : Ew) (s : State) : Out := issueB (sylVpopc vd va k ew) s

/-- VSEL beside an idle syllable (R236). -/
def execVsel (vd : R5) (va : VSrc) (vb : R5) (k : K3) (ew : Ew) (s : State) : Out := issueB (sylVsel vd va vb k ew) s

/-- VCMP_EQ beside an idle syllable (R236). -/
def execVcmpEq (kd : K3) (va : VSrc) (vb : R5) (k : K3) (ew : Ew) (s : State) : Out := issueB (sylVcmpEq kd va vb k ew) s

/-- VCMP_NE beside an idle syllable (R236). -/
def execVcmpNe (kd : K3) (va : VSrc) (vb : R5) (k : K3) (ew : Ew) (s : State) : Out := issueB (sylVcmpNe kd va vb k ew) s

/-- VCMP_LT beside an idle syllable (R236). -/
def execVcmpLt (kd : K3) (va : VSrc) (vb : R5) (k : K3) (ew : Ew) (s : State) : Out := issueB (sylVcmpLt kd va vb k ew) s

/-- VCMP_LE beside an idle syllable (R236). -/
def execVcmpLe (kd : K3) (va : VSrc) (vb : R5) (k : K3) (ew : Ew) (s : State) : Out := issueB (sylVcmpLe kd va vb k ew) s

/-- VCMP_LTU beside an idle syllable (R236). -/
def execVcmpLtu (kd : K3) (va : VSrc) (vb : R5) (k : K3) (ew : Ew) (s : State) : Out := issueB (sylVcmpLtu kd va vb k ew) s

/-- VCMP_LEU beside an idle syllable (R236). -/
def execVcmpLeu (kd : K3) (va : VSrc) (vb : R5) (k : K3) (ew : Ew) (s : State) : Out := issueB (sylVcmpLeu kd va vb k ew) s

/-- VMADD beside an idle syllable (R237). -/
def execVmadd (vd va vb vc : R5) (k : K3) (ew : Ew) (s : State) : Out := issueB (sylVmadd vd va vb vc k ew) s

/-- VFADD beside an idle syllable (R240). -/
def execVfadd (vd : R5) (va : VSrc) (vb : R5) (k : K3) (w : Fw) (s : State) : Out := issueB (sylVfadd vd va vb k w) s

/-- VFSUB beside an idle syllable (R240). -/
def execVfsub (vd : R5) (va : VSrc) (vb : R5) (k : K3) (w : Fw) (s : State) : Out := issueB (sylVfsub vd va vb k w) s

/-- VFMUL beside an idle syllable (R240). -/
def execVfmul (vd : R5) (va : VSrc) (vb : R5) (k : K3) (w : Fw) (s : State) : Out := issueB (sylVfmul vd va vb k w) s

/-- VFDIV beside an idle syllable (R240). -/
def execVfdiv (vd : R5) (va : VSrc) (vb : R5) (k : K3) (w : Fw) (s : State) : Out := issueB (sylVfdiv vd va vb k w) s

/-- VFMIN beside an idle syllable (R242). -/
def execVfmin (vd : R5) (va : VSrc) (vb : R5) (k : K3) (w : Fw) (s : State) : Out := issueB (sylVfmin vd va vb k w) s

/-- VFMAX beside an idle syllable (R242). -/
def execVfmax (vd : R5) (va : VSrc) (vb : R5) (k : K3) (w : Fw) (s : State) : Out := issueB (sylVfmax vd va vb k w) s

/-- VFSQRT beside an idle syllable (R240). -/
def execVfsqrt (vd : R5) (va : VSrc) (k : K3) (w : Fw) (s : State) : Out := issueB (sylVfsqrt vd va k w) s

/-- VFRCP beside an idle syllable (R240). -/
def execVfrcp (vd : R5) (va : VSrc) (k : K3) (w : Fw) (s : State) : Out := issueB (sylVfrcp vd va k w) s

/-- VFRSQ beside an idle syllable (R240). -/
def execVfrsq (vd : R5) (va : VSrc) (k : K3) (w : Fw) (s : State) : Out := issueB (sylVfrsq vd va k w) s

/-- VFEXP2 beside an idle syllable (R240). -/
def execVfexp2 (vd : R5) (va : VSrc) (k : K3) (w : Fw) (s : State) : Out := issueB (sylVfexp2 vd va k w) s

/-- VFLOG2 beside an idle syllable (R240). -/
def execVflog2 (vd : R5) (va : VSrc) (k : K3) (w : Fw) (s : State) : Out := issueB (sylVflog2 vd va k w) s

/-- VTSUM beside an idle syllable (R243). -/
def execVtsum (vd : R5) (va : VSrc) (vb : R5) (k : K3) (w : Fw) (s : State) : Out := issueB (sylVtsum vd va vb k w) s

/-- VFCMP_EQ beside an idle syllable (R242). -/
def execVfcmpEq (kd : K3) (va : VSrc) (vb : R5) (k : K3) (w : Fw) (s : State) : Out := issueB (sylVfcmpEq kd va vb k w) s

/-- VFCMP_LT beside an idle syllable (R242). -/
def execVfcmpLt (kd : K3) (va : VSrc) (vb : R5) (k : K3) (w : Fw) (s : State) : Out := issueB (sylVfcmpLt kd va vb k w) s

/-- VFCMP_LE beside an idle syllable (R242). -/
def execVfcmpLe (kd : K3) (va : VSrc) (vb : R5) (k : K3) (w : Fw) (s : State) : Out := issueB (sylVfcmpLe kd va vb k w) s

/-- VFCMP_UN beside an idle syllable (R242). -/
def execVfcmpUn (kd : K3) (va : VSrc) (vb : R5) (k : K3) (w : Fw) (s : State) : Out := issueB (sylVfcmpUn kd va vb k w) s

/-- VFSGN_CP beside an idle syllable (R242). -/
def execVfsgnCp (vd : R5) (va : VSrc) (vb : R5) (k : K3) (w : Fw) (s : State) : Out := issueB (sylVfsgnCp vd va vb k w) s

/-- VFSGN_NEG beside an idle syllable (R242). -/
def execVfsgnNeg (vd : R5) (va : VSrc) (vb : R5) (k : K3) (w : Fw) (s : State) : Out := issueB (sylVfsgnNeg vd va vb k w) s

/-- VFSGN_XOR beside an idle syllable (R242). -/
def execVfsgnXor (vd : R5) (va : VSrc) (vb : R5) (k : K3) (w : Fw) (s : State) : Out := issueB (sylVfsgnXor vd va vb k w) s

/-- VFCLASS beside an idle syllable (R242). -/
def execVfclass (vd : R5) (va : VSrc) (k : K3) (w : Fw) (s : State) : Out := issueB (sylVfclass vd va k w) s

/-- VFMA beside an idle syllable (R241). -/
def execVfma (vd va vb vc : R5) (k : K3) (w : Fw) (s : State) : Out := issueB (sylVfma vd va vb vc k w) s

/-- VFNMA beside an idle syllable (R241). -/
def execVfnma (vd va vb vc : R5) (k : K3) (w : Fw) (s : State) : Out := issueB (sylVfnma vd va vb vc k w) s

/-- VCVT beside an idle syllable (R245). -/
def execVcvt (vd va : R5) (src dst : Fmt) (rm : Rm) (sat : Bool) (k : K3) (s : State) : Out := issueB (sylVcvt vd va src dst rm sat k) s

/-- VENC beside an idle syllable (R247). -/
def execVenc (vd va : R5) (c4 : Bool) (rm : Rm) (sat : Bool) (k : K3) (tbl : Bool) (s : State) : Out := issueB (sylVenc vd va c4 rm sat k tbl) s

/-- VDEC beside an idle syllable (R248). -/
def execVdec (vd va : R5) (c4 : Bool) (rm : Rm) (sat : Bool) (k : K3) (tbl : Bool) (s : State) : Out := issueB (sylVdec vd va c4 rm sat k tbl) s

/-- VENC_S beside an idle syllable (R247). -/
def execVencS (vd va : R5) (c4 : Bool) (rm : Rm) (sat : Bool) (k : K3) (tbl : Bool) (s : State) : Out := issueB (sylVencS vd va c4 rm sat k tbl) s

/-- VDEC_S beside an idle syllable (R248). -/
def execVdecS (vd va : R5) (c4 : Bool) (rm : Rm) (sat : Bool) (k : K3) (tbl : Bool) (s : State) : Out := issueB (sylVdecS vd va c4 rm sat k tbl) s

/-- VFKEY beside an idle syllable (R249). -/
def execVfkey (vd : R5) (va : VSrc) (k : K3) (s : State) : Out := issueB (sylVfkey vd va k) s

/-- VPERM beside an idle syllable (R250). -/
def execVperm (vd : R5) (va : VSrc) (vb : R5) (k : K3) (ew : Ew) (s : State) : Out := issueB (sylVperm vd va vb k ew) s

/-- VBCAST beside an idle syllable (R250). -/
def execVbcast (vd a : R5) (k : K3) (ew : Ew) (s : State) : Out := issueB (sylVbcast vd a k ew) s

/-- VEXT beside an idle syllable (R250). -/
def execVext (d : R5) (va : VSrc) (b : R5) (ew : Ew) (s : State) : Out := issueB (sylVext d va b ew) s

/-- VINS beside an idle syllable (R250). -/
def execVins (vd a b : R5) (ew : Ew) (s : State) : Out := issueB (sylVins vd a b ew) s

/-- VSLIDE_UP beside an idle syllable (R250). -/
def execVslideUp (vd : R5) (va : VSrc) (b : R5) (k : K3) (ew : Ew) (s : State) : Out := issueB (sylVslideUp vd va b k ew) s

/-- VSLIDE_DN beside an idle syllable (R250). -/
def execVslideDn (vd : R5) (va : VSrc) (b : R5) (k : K3) (ew : Ew) (s : State) : Out := issueB (sylVslideDn vd va b k ew) s

/-- VRED beside an idle syllable (R251). -/
def execVred (vd : R5) (va : VSrc) (kind : RedKind) (k : K3) (ew : Ew) (s : State) : Out := issueB (sylVred vd va kind k ew) s

/-- VSCAN beside an idle syllable (R252). -/
def execVscan (vd : R5) (va : VSrc) (kind : RedKind) (k : K3) (ew : Ew) (s : State) : Out := issueB (sylVscan vd va kind k ew) s

/-- VCMPRS beside an idle syllable (R253). -/
def execVcmprs (vd : R5) (va : VSrc) (k : K3) (ew : Ew) (s : State) : Out := issueB (sylVcmprs vd va k ew) s

/-- VSORT_A beside an idle syllable (R254). -/
def execVsortA (vd : R5) (va : VSrc) (s : State) : Out := issueB (sylVsortA vd va) s

/-- VSORT_D beside an idle syllable (R254). -/
def execVsortD (vd : R5) (va : VSrc) (s : State) : Out := issueB (sylVsortD vd va) s

/-- VMERGE_A beside an idle syllable (R254). -/
def execVmergeA (vd : R5) (va : VSrc) (vb : R5) (s : State) : Out := issueB (sylVmergeA vd va vb) s

/-- VMERGE_D beside an idle syllable (R254). -/
def execVmergeD (vd : R5) (va : VSrc) (vb : R5) (s : State) : Out := issueB (sylVmergeD vd va vb) s

/-- VQPUSH beside an idle syllable (R256). -/
def execVqpush (q : Q4) (va : R5) (s : State) : Out := issueB (sylVqpush q va) s

end Sys2Proof.Machine
end

