-- ==== Sys2Proof/Machine/Matrix.lean ====
section
/-! DEFINITION. The matrix pipe: MMAS, MZERO and MTAB, staging, and what a step computes (09 R257-R271, 04 R122, R138, R139); start and
retirement stand in Pipe.lean. -/

namespace Sys2Proof.Machine

open Sys2Proof

/-! ## Formats and layouts (09 R257-R261) -/

/-- MXCFG.fmt. -/
def mFmt (cfg : Word) : Nat := fld cfg.toNat 0 2
/-- MXCFG.kofs. -/
def mKofs (cfg : Word) : Nat := fld cfg.toNat 48 16
/-- MXCFG.nkb. -/
def mNkb (cfg : Word) : Nat := fld cfg.toNat 32 16
/-- MXCFG.adv. -/
def mAdv (cfg : Word) : Bool := bit cfg.toNat 8

/-- K elements of a step (09 R257). -/
def mK (cfg : Word) (c4 : Bool) : Nat := if mFmt cfg = 0 ∧ c4 = true then 32 else 16

/-- Vectors of 64 bytes of an operand (09 R257). -/
def mVecs (cfg : Word) : Nat := if mFmt cfg = 0 then 8 else 16

/-- Offset of C(i, j) in its subtile (09 R259). -/
def cOff (i j : Nat) : Nat := 1024 * (2 * (i / 16) + j / 16) + 64 * (i % 16) + 4 * (j % 16)

/-- Byte n of an operand of 64-bit words (09 R258). -/
def opByte (op : List Word) (n : Nat) : Nat := fld (op.getD (n / 8) 0).toNat (8 * (n % 8)) 8

/-- An element of an operand by its number: a nibble, a byte or 16 bits (09 R258). -/
def opElem (cfg : Word) (c4 : Bool) (tbl : List (BitVec 32)) (op : List Word) (n : Nat) : Fx :=
  match mFmt cfg with
  | 0 => if c4 then codeValue tbl (fld (opByte op (n / 2)) (4 * (n % 2)) 4) else codeValue tbl (opByte op n)
  | 1 => ffb.unpack (opByte op (2 * n) + 256 * opByte op (2 * n + 1))
  | _ => ff16.unpack (opByte op (2 * n) + 256 * opByte op (2 * n + 1))

/-- A scale of a row or column at a block; a pointer of 0 is 1.0 (09 R261, 04 R123). -/
def scaleAt (s : State) (core : Nat) (p : Word) (nkb i b : Nat) : Option (Nat × Int) :=
  if p = 0 then some (1, 0) else s9 (s.loadNat (.mem (lkey core (p.toNat % 2 ^ 17 + 2 * (i * nkb + b)))) 2)

/-! ## The group dot (04 R138, R139) -/

/-- floor(log2) of a dyadic magnitude. -/
def log2Dy (m : Nat) (e : Int) : Int := (Nat.log2 m : Int) + e

/-- A product in units of 2^q, truncated toward zero. -/
def truncAt (neg : Bool) (m : Nat) (e q : Int) : Int :=
  let x : Int := if q ≤ e then ((m * 2 ^ (e - q).toNat : Nat) : Int) else ((m / 2 ^ (q - e).toNat : Nat) : Int)
  if neg then -x else x

/-- Largest exponent of the non-zero products. -/
def topExp : List Fx → Option Int
  | [] => none
  | .num _ m e :: t =>
    if m = 0 then topExp t
    else
      match topExp t with
      | some x => some (max x (log2Dy m e))
      | none => some (log2Dy m e)
  | _ :: t => topExp t

/-- Sum of the truncated products. -/
def truncSum (q : Int) : List Fx → Int
  | [] => 0
  | .num n m e :: t => truncAt n m e q + truncSum q t
  | _ :: t => truncSum q t

/-- A group's value v as fp32 with its overflow and NaN counts: none is a NaN. -/
def groupValue (prods : List (Option Fx)) (sa sb : Option (Nat × Int)) : Option (Nat × Nat) :=
  match sa, sb with
  | some (ma, ea), some (mb, eb) =>
    if prods.any (·.isNone) then none
    else
      let ps := prods.filterMap id
      if anyNan ps then none
      else
        let up := ps.any fun p => decide (p = .inf false)
        let dn := ps.any fun p => decide (p = .inf true)
        if up && dn then none
        else if up then some (ff32.inf false, 0)
        else if dn then some (ff32.inf true, 0)
        else
          match topExp ps with
          | none => some (0, 0)
          | some e =>
            let x := truncSum (e - 48) ps
            if x = 0 then some (0, 0)
            else
              let (r, ev) := ff32.round .near false false (decide (x < 0)) (x.natAbs * ma * mb) (e - 48 + ea + eb)
              some (r, ev.ovf)
  | _, _ => none

/-- Apply a group to an accumulator element: the new element, overflows and NaNs counted (04 R138, R139). -/
def applyGroup (c : Nat) (v : Option (Nat × Nat)) : Nat × Nat × Nat :=
  match ff32.unpack c with
  | .nan _ => (ff32.cnan, 0, 0)
  | x =>
    match v with
    | none => (ff32.cnan, 0, 1)
    | some (v, ovf) =>
      let (r, ev) := ff32.addFx .near false x (ff32.unpack v)
      (r, ovf + ev.ovf, ev.inv)

/-- The groups of one element, ascending: A values, B values and scales by group. -/
def foldGroups (c : Nat) (l : List (List Fx × List Fx × Option (Nat × Int) × Option (Nat × Int))) : Nat × Nat × Nat :=
  l.foldl (fun acc g =>
    let (r, o, n) := applyGroup acc.1 (groupValue (List.zipWith mulFx g.1 g.2.1) g.2.2.1 g.2.2.2)
    (r, acc.2.1 + o, acc.2.2 + n)) (c, 0, 0)

/-! ## Decode RAMs (04 R122) -/

/-- The decode RAM after the comparison at the start of a step: reloaded when pointer or image changed. -/
def refresh (s : State) (o : Strand) (p : Word) (r : Option DecRam) : Option DecRam :=
  match tableImage s o p with
  | none => r
  | some (b, img) =>
    match r with
    | some d => if d.base = b ∧ d.stale = false then some d else some { base := b, img := img, stale := false }
    | none => some { base := b, img := img, stale := false }

/-- A strand record standing on a core, for the image address. -/
def onCore (core : Nat) : Strand := { Strand.blank with sid := core * 8 }

/-! ## Issue (09 R262-R265, R270, R271) -/

/-- The queue of a source is reserved. -/
def srcReserved : MSrc → Bool
  | .que q => decide (11 ≤ q.toNat)
  | .regs _ => false

/-- A register group that a 16-bit format cannot name. -/
def srcOdd : MSrc → Bool
  | .que _ => false
  | .regs g => decide (g.toNat % 2 = 1)

/-- Words of a register operand, read at issue (09 R262, R264). -/
def srcRegs (o : Strand) (n : Nat) : MSrc → List Word
  | .que _ => []
  | .regs g => (List.range n).flatMap fun i => (lanesOf 64 8 (o.vr (BitVec.ofNat 5 (8 * g.toNat + i)))).map (BitVec.ofNat 64)

/-- Scale pointers against the configuration (09 R263 row 2). -/
def scaleBad (cfg p : Word) (c4 : Bool) : Bool :=
  !decide (p = 0) && (decide (mNkb cfg = 0) || decide (mNkb cfg ≤ (16 * mKofs cfg + mK cfg c4 - 1) / 32))

/-- A scale array lies in own local memory (09 R261). -/
def scaleInside (cfg p : Word) : Bool :=
  decide (p = 0) ||
    (match regionOf p with
    | .inr (.mine off) => decide (off % 2 = 0) && decide (off + 64 * mNkb cfg ≤ 2 ^ 17)
    | _ => false)

/-- The accumulator base as local offset, where it is valid (09 R259). -/
def accBase (o : Strand) (acc : BitVec 12) : Option Nat :=
  match regionOf (o.mxacc + BitVec.ofNat 64 (1024 * acc.toNat)) with
  | .inr (.mine off) => if off % 1024 = 0 ∧ off + 4096 ≤ 2 ^ 17 then some off else none
  | _ => none

/-- A pointer passes 04 R120. -/
def tableOk (p : Word) : Bool :=
  match regionOf p with
  | .inr (.mine off) => decide (off % 1024 = 0)
  | _ => false

/-- The checks of 09 R263. A strand that is swapped out is still a member of its crew. -/
def mmasCause (s : State) (o : Strand) (qa qb : MSrc) (acc : BitVec 12) (t g f : Bool) : Option Cause :=
  let cfg := o.mxcfg
  if srcReserved qa || srcReserved qb then some Cause.queueReserved
  else if mFmt cfg = 3 ∨ (t = true ∧ mFmt cfg ≠ 0) ∨ (mFmt cfg ≠ 0 ∧ (srcOdd qa || srcOdd qb) = true) ∨
      scaleBad cfg o.scla t = true ∨ scaleBad cfg o.sclb t = true then some Cause.matrixConfig
  else if (accBase o acc).isNone || !scaleInside cfg o.scla || !scaleInside cfg o.sclb then some Cause.matrixAddress
  else if mFmt cfg = 0 ∧ (tableOk o.fmta && tableOk o.fmtb) = false then some Cause.tableAddress
  else if (f || g) && o.crew.isNone then some Cause.matrixForward
  else if f && (s.memberAt o (crewCol o + 1) (crewRow o)).isNone then some Cause.matrixForward
  else if g && (s.memberAt o (crewCol o) (crewRow o + 1)).isNone then some Cause.matrixForward
  else none

/-- Issuers that still wait for a place, gang followers among them. -/
def waiters (s : State) (core : Nat) : List Nat :=
  (s.core core).mwait.filter fun k => (s.strand k).any fun o =>
    decide (o.run = .parked) || (decide (o.run = .follower) && decide (o.park = .poll)) || decide (k = s.me.key)

/-- A fresh step of the issuing strand. -/
def freshStep (o : Strand) (uid : Nat) (k : MKind) (acc : BitVec 12) : MStep :=
  { uid := uid, key := o.key, kind := k, started := false, qa := .regs 0, qb := .regs 0,
    base := lkey o.core ((accBase o acc).getD 0), va := o.mxacc + BitVec.ofNat 64 (1024 * acc.toNat), c4 := false, zero := false,
    fwdB := false, fwdA := false, cfg := o.mxcfg, fmta := o.fmta, fmtb := o.fmtb, scla := o.scla, sclb := o.sclb, regA := [],
    regB := [], opA := [], opB := [], sentA := 0, sentB := 0, result := [], ovf := 0, nan := 0, poison := none }

/-- A bundle whose step has its place: the strand parks before it, and what its A syllable does is held back until the step takes its
snapshot, in a gang until the members' steps retire together (09 R264, R268; 01 R28, R43; log 34). -/
def holdBundle (o : Strand) (u : Nat) (a : Instr) (oa : Strand) (s : State) : State :=
  ({ s with undo := { key := o.key, before := o, view := oa, asyl := a, held := true } :: s.undo.filter fun p => !decide (p.key = o.key) }).upd
    o.key fun x => { x with run := if x.run = RunState.follower then .follower else .parked, park := .matrix u, turn := s.tick + 8 }

/-- Take a place in the pipe, or wait for one in issue order; then the strand parks (09 R265). -/
def takePlace (o : Strand) (s : State) (f : Nat → MStep) : SylOut :=
  let c := s.core o.core
  let w := waiters s o.core
  if 3 ≤ c.pipe.length ∨ (w.head?.any fun k => decide (k ≠ o.key)) = true then
    .park (s.setCore o.core fun c => { c with mwait := if w.contains o.key then w else w ++ [o.key] }) .poll
  else
    let (u, s1) := s.fresh
    .ok (s1.setCore o.core fun c => { c with pipe := c.pipe ++ [f u], mwait := w.filter fun k => !decide (k = o.key) })
      (.hold (holdBundle o u))

/-- MMAS (09 R262-R265). -/
def sylMmas (qa qb : MSrc) (acc : BitVec 12) (t z g f : Bool) : Syl := fun o s =>
  match mmasCause s o qa qb acc t g f with
  | some c => frz s c
  | none =>
    let n := mVecs o.mxcfg
    takePlace o s fun u =>
      { freshStep o u .mmas acc with
        qa := qa, qb := qb, c4 := t, zero := z, fwdB := g, fwdA := f, regA := srcRegs o n qa, regB := srcRegs o n qb }

/-- MZERO (09 R270). -/
def sylMzero (acc : BitVec 12) : Syl := fun o s =>
  if (accBase o acc).isNone then frz s Cause.matrixAddress else takePlace o s fun u => freshStep o u .mzero acc

/-- MTAB (09 R271). -/
def sylMtab (b a : Bool) : Syl := fun o s =>
  if (a && !tableOk o.fmta) || (b && !tableOk o.fmtb) then frz s Cause.tableAddress
  else takePlace o s fun u => freshStep o u (.mtab b a) 0

/-! ## Staging (09 R265, R269) -/

/-- Change a step of a core's pipe. -/
def State.updStep (s : State) (core uid : Nat) (f : MStep → MStep) : State :=
  s.setCore core fun c => { c with pipe := c.pipe.map fun m => if m.uid = uid then f m else m }

/-- The next vector of an operand: from the registers read at issue, popped from the strand's queue with its poison, or the echo of
its last push (10 R291). -/
def nextVector (o : Strand) (src : MSrc) (regs : List Word) (have' : Nat) : Option (List Word × Option Word × Option Q4) :=
  match src with
  | .regs _ => some ((regs.drop have').take 8, none, none)
  | .que q =>
    let l := inWords o q
    if popsEcho o q then some ((lanesOf 64 8 (if q.toNat = 9 then o.echo9 else o.echo10)).map (BitVec.ofNat 64), none, none)
    else if l.length < 8 then none else some (l.take 8, (poisonedPop o q 8).map (·.addr), some q)

/-- Stage one vector of operand A (`isA`) or B of a step; none while it must wait. -/
def stageOne (s : State) (core : Nat) (m : MStep) (isA : Bool) : Option State :=
  let (src, regs, got, fwd, sent, q) :=
    if isA then (m.qa, m.regA, m.opA, m.fwdA, m.sentA, (1 : Q4)) else (m.qb, m.regB, m.opB, m.fwdB, m.sentB, (2 : Q4))
  if m.kind ≠ .mmas ∨ m.started = true ∨ mVecs m.cfg * 8 ≤ got.length then none
  else
    match s.strand m.key with
    | none => none
    | some o =>
      match nextVector o src regs got.length with
      | none => none
      | some (ws, bad, popped) =>
        let s1 := match popped with
          | some p => s.asStrand m.key fun s => (s.setMe (dropWords p 8)).pullMesh o p
          | none => s
        let push := fwd && decide (sent * 8 ≤ got.length)
        let s2 := if push then
            let r := (s1.focus m.key).pushQ o q ws
            r.map fun x => if s.me.run = .empty then x else x.focus s.me.key
          else some s1
        s2.map fun s => s.updStep core m.uid fun m =>
          let m1 := { m with poison := m.poison <|> bad }
          if isA then { m1 with opA := got ++ ws, sentA := if push then sent + 1 else sent }
          else { m1 with opB := got ++ ws, sentB := if push then sent + 1 else sent }

/-- The members of a strand's gang, or the strand alone. -/
def gangMates (s : State) (o : Strand) : List Strand :=
  match s.gangOf o with
  | some g => g.members.filterMap s.strand
  | none => [o]

/-- Put a strand's step back into its core's pipe. -/
def State.reenterOne (s : State) (o : Strand) : State :=
  match o.mstep with
  | some m => (s.setCore o.core fun c => { c with pipe := c.pipe ++ [m] }).upd o.key fun o => { o with mstep := none }
  | none => s

/-- A step of a strand that is resident again re-enters the pipe; the steps of a gang's members re-enter together, so that they stand
in one order in every pipe (09 R268). -/
def reenter (s : State) (core : Nat) : Option State :=
  (s.strands.find? fun o => decide (o.core = core) && !decide (o.run = .empty) && o.mstep.isSome &&
      (gangMates s o).all fun m => !m.out && decide ((s.core m.core).pipe.length < 3)).map fun o =>
    (gangMates s o).foldl State.reenterOne s

/-- Stage one vector of a step that holds a buffer: the first two of the pipe. -/
def stageAny (s : State) (core : Nat) : Option State :=
  match reenter s core with
  | some s1 => some s1
  | none =>
    ((s.core core).pipe.take 2).findSome? fun m =>
      match stageOne s core m true with
      | some s1 => some s1
      | none => stageOne s core m false

/-- MATRIX_OPERAND_STAGE (09 R265, R269). -/
def execMatrixOperandStage (core : Nat) (s : State) : Out := done ((stageAny s core).getD s)

/-! ## Start and retirement (09 R264, R266, R268) -/

/-- All operand vectors are there. -/
def staged (m : MStep) : Bool :=
  match m.kind with
  | .mmas => decide (m.opA.length = mVecs m.cfg * 8) && decide (m.opB.length = mVecs m.cfg * 8)
  | _ => true

/-- Poison in a scale array the step reads. -/
def scalePoison (s : State) (core : Nat) (m : MStep) (p : Word) : Option Word :=
  if p = 0 then none
  else
    let n := mNkb m.cfg
    (List.range 32).findSome? fun i =>
      (List.range (mK m.cfg m.c4 / 16)).findSome? fun g =>
        let off := p.toNat % 2 ^ 17 + 2 * (i * n + (16 * mKofs m.cfg + 16 * g) / 32)
        (s.poisonIn (.mem (lkey core off)) 2).map fun _ => BitVec.ofNat 64 (0x00FD000000000000 + off / 8 * 8)

/-- The poisoned word a step consumes first: operand, scale or accumulator. -/
def stepPoison (s : State) (core : Nat) (m : MStep) : Option Word :=
  m.poison <|> scalePoison s core m m.scla <|> scalePoison s core m m.sclb <|>
    (if m.zero then none else (s.poisonIn (.mem m.base) 4096).map fun i => BitVec.ofNat 64 ((m.va.toNat + i) / 8 * 8))

/-- The subtile and counts a step computes from the machine at its start. -/
def computeStep (s : State) (core : Nat) (imgA imgB : List (BitVec 32)) (m : MStep) : List (BitVec 32) × Nat × Nat :=
  let k := mK m.cfg m.c4
  let n := mNkb m.cfg
  let gs := List.range (k / 16)
  let rows := (List.range 32).map fun i => gs.map fun g =>
    ((List.range 16).map fun t => opElem m.cfg m.c4 imgA m.opA (i * k + 16 * g + t),
     scaleAt s core m.scla n i ((16 * mKofs m.cfg + 16 * g) / 32))
  let cols := (List.range 32).map fun j => gs.map fun g =>
    ((List.range 16).map fun t => opElem m.cfg m.c4 imgB m.opB ((16 * g + t) * 32 + j),
     scaleAt s core m.sclb n j ((16 * mKofs m.cfg + 16 * g) / 32))
  let out := (rows.zipIdx).flatMap fun r => (cols.zipIdx).map fun c =>
    let c0 := if m.zero then 0 else s.loadNat (.mem (m.base + cOff r.2 c.2)) 4
    foldGroups c0 (List.zipWith (fun a b => (a.1, b.1, a.2, b.2)) r.1 c.1)
  (out.map fun x => BitVec.ofNat 32 x.1, (out.map fun x => x.2.1).foldl (· + ·) 0, (out.map fun x => x.2.2).foldl (· + ·) 0)

/-- Write a subtile's words at their places, 64 bytes of a block row at a time (09 R259). -/
def putSubtile (s : State) (base : Nat) (r : List (BitVec 32)) : State :=
  (List.range 64).foldl (fun s n =>
    let row := (r.drop (n / 2 * 32 + n % 2 * 16)).take 16
    s.put (.mem (base + cOff (n / 2) (n % 2 * 16))) (row.flatMap fun x => natLE 4 x.toNat)) s

/-- The strand of a retired step goes on (01 R17); a stopped or swapped one only stops waiting (18 R469). -/
def stepOver (t u : Nat) (o : Strand) : Strand :=
  if o.park = .matrix u then
    (if o.run = .parked then readyAt t o else { o with park := .none, turn := alignTurn o.sid (t + 1) })
  else o

/-- The strand of a step, and the other of its pair. -/
def stepKeys (s : State) (key : Nat) : List Nat := key :: ((s.strand key).bind (·.pair)).toList

/-! ## The bundles that hold one of these syllables alone (05 R142) -/

/-- MMAS beside an idle syllable (R264). -/
def execMmas (qa qb : MSrc) (acc : BitVec 12) (t z g f : Bool) (s : State) : Out := issueB (sylMmas qa qb acc t z g f) s

/-- MZERO beside an idle syllable (R270). -/
def execMzero (acc : BitVec 12) (s : State) : Out := issueB (sylMzero acc) s

/-- MTAB beside an idle syllable (R271). -/
def execMtab (b a : Bool) (s : State) : Out := issueB (sylMtab b a) s

end Sys2Proof.Machine
end

