-- ==== Sys2Proof/Machine/Queue.lean ====
section
/-! DEFINITION. The queue instructions (10 R289-R294; 01 R25, R26; 09 R274). -/

namespace Sys2Proof.Machine

open Sys2Proof

/-- QPUSH (10 R289-R291). -/
def sylQpush (q : Q4) (a : R5) : Syl := fun o s =>
  match queueCause o true q with
  | some c => frz s c
  | none =>
    match s.pushQ o q [o.g a] with
    | some s1 => .ok s1 .next
    | none => .park s .poll

/-- QPOP (10 R289-R291). -/
def sylQpop (d : R5) (q : Q4) : Syl := fun o s =>
  match queueCause o false q with
  | some c => frz s c
  | none =>
    match s.popQ o q 1 with
    | none => .park s .poll
    | some (ws, s1) =>
      match poisonedPop o q 1 with
      | some r => .freeze s r none
      | none => retG s1 d (ws.headD 0)

/-- Capacity shown by QSTAT (01 R25). -/
def statDepth (q : Nat) : Nat := if q = 4 then 8 else if q = 7 then 32 else 16

/-- Entries waiting to leave (10 R292). -/
def statOut (o : Strand) (q : Nat) : Nat :=
  if q < 4 then (o.qout.getD q []).length else if q = 4 then o.q4.length else if q = 6 then o.q6.length else 0

/-- Entries waiting to be popped (10 R292). -/
def statIn (o : Strand) (q : Nat) : Nat :=
  if (q = 9 ∧ o.isLead) ∨ (q = 10 ∧ !o.isLead) then 0 else (inWords o (BitVec.ofNat 4 q)).length

/-- The status word of a queue (10 R292). -/
def queueStatus (o : Strand) (q : Nat) : Word :=
  if 9 ≤ q ∧ !o.ganged then 0
  else
    let lost := if q < 4 ∨ q = 6 ∨ q = 8 then (o.lost.getD q 0).toNat else 0
    BitVec.ofNat 64 (lost * 2 ^ 32 + (if q = 8 ∧ o.ovf then 2 ^ 24 else 0) + statDepth q * 2 ^ 16 + statOut o q * 2 ^ 8 + statIn o q)

/-- QSTAT clears the lost count and the overflow flag it shows (10 R292). -/
def clearStatus (q : Nat) (o : Strand) : Strand :=
  { o with lost := o.lost.setIfInBounds q 0, ovf := if q = 8 then false else o.ovf }

/-- QSTAT (10 R292). -/
def sylQstat (d : R5) (q : Q4) : Syl := fun o s =>
  if 11 ≤ q.toNat then frz s Cause.queueReserved
  else retG (s.setMe (clearStatus q.toNat)) d (queueStatus o q.toNat)

/-- Half h of a vector, as a command (05 R164). -/
def commandHalf (v : Vec) (h : Bool) : BitVec 256 := BitVec.ofNat 256 (v.toNat / (if h then 2 ^ 256 else 1))

/-- QPUSHC (10 R293, 05 R166, 09 R274, R276). -/
def sylQpushc (v : R5) (h : Bool) : Syl := fun o s =>
  let c := commandHalf (o.vr v) h
  if !commandOk s o c.toNat then frz s Cause.commandInvalid
  else if (cWv c.toNat || cSv c.toNat) && (s.fileOf o).isNone then frz s Cause.sqNoFile
  else if 8 ≤ o.q4.length then .park s .poll
  else .ok ((s.setMe fun x => { x with q4 := x.q4 ++ [(c, s.fileOf o)] }).routeCmds o.key 8) .next

/-- Can a message reach a package of this rank: it is a rank of the group, this package's or one with a route
(10 R294, 17 R447). -/
def rankReached (s : State) (ctx rank : Nat) : Bool :=
  match (s.ctxOf ctx).bind (·.group) with
  | some (_, p, me) => decide (rank < p) && (decide (rank = me) || s.fw.routes.any fun x => decide (x.1 = rank))
  | none => false

/-- MSG (10 R294). -/
def sylMsg (a b : R5) : Syl := fun o s =>
  let d := (o.g a).toNat
  if 2 ^ 32 ≤ d ∨ 20479 < d % 2 ^ 15 then frz s Cause.msgDest
  else if bit d 15 && !rankReached s o.ctx (fld d 16 16) then frz s Cause.msgDest
  else if 16 ≤ o.q6.length then .park s .poll
  else .ok ((s.setMe fun x => { x with q6 := x.q6 ++ [(o.g a, o.g b)] }).later (.messageDelivery o.key)) .next

/-! ## The bundles that hold one of these syllables alone (05 R142) -/

/-- QPUSH beside an idle syllable (R289). -/
def execQpush (q : Q4) (a : R5) (s : State) : Out := issueA (sylQpush q a) s

/-- QPOP beside an idle syllable (R289). -/
def execQpop (d : R5) (q : Q4) (s : State) : Out := issueA (sylQpop d q) s

/-- QSTAT beside an idle syllable (R292). -/
def execQstat (d : R5) (q : Q4) (s : State) : Out := issueA (sylQstat d q) s

/-- QPUSHC beside an idle syllable (R293). -/
def execQpushc (v : R5) (h : Bool) (s : State) : Out := issueA (sylQpushc v h) s

/-- MSG beside an idle syllable (R294). -/
def execMsg (a b : R5) (s : State) : Out := issueA (sylMsg a b) s

end Sys2Proof.Machine
end

