-- ==== Sys2Proof/Machine/Umpire.lean ====
section
/-! DEFINITION. The instructions on frozen state: FRD, FWR, FRDV, FWRV, FRQ, FRES, FKILL, CAPXFER, CAPDROP and UEXIT
(11 R322-R330). -/

namespace Sys2Proof.Machine

open Sys2Proof

/-- Rights by bit: 0 read, 1 write, 2 resume, 3 kill, 4 transfer (11 R321). -/
def capRight (c : BitVec 128) (i : Nat) : Bool := c.getLsbD (122 + i)

/-- Checks 1 to 5 of 11 R322; `right` none for an operation that needs no right, `frozen` for the ones of check 5. -/
def capAt (o : Strand) (s : State) (i : BitVec 2) (right : Option Nat) (frozen : Bool) (k : Strand → SylOut) : SylOut :=
  let c := o.caps.getD i.toNat 0
  if o.level = .user then frz s Cause.privilegedOp
  else if !capValid c then frz s Cause.capInvalid
  else if right.any fun r => !capRight c r then frz s Cause.capRights
  else
    match s.capStrand c with
    | none => frz s Cause.capStale
    | some x =>
      if x.isFrozen && !decide (x.serial.toNat = capSerial c) then frz s Cause.capStale
      else if frozen && !x.isFrozen then frz s Cause.capNotFrozen
      else k x

/-- The selector checks on a frozen strand's words: at umpire level, 0x200 and above refused (11 R322, R323). -/
def frozenSel (sel : Nat) (wr : Option Word) : Option Cause :=
  if 0x200 ≤ sel then some Cause.statePrivilege else selCause .umpire sel wr

/-- Change a frozen strand, and the other of its pair (18 R463). -/
def State.patch (s : State) (x : Strand) (f : State → Nat → State) : State := (s.both x).foldl f s

/-- FRD of a register (11 R323). -/
def sylFrdReg (d : R5) (cap : BitVec 2) (kreg : Bool) (n : R5) : Syl := fun o s =>
  capAt o s cap (some 0) true fun x => retG s d (if kreg then x.kr (n.truncate 3) else x.g n)

/-- FRD of a state word (11 R323). -/
def sylFrdState (d : R5) (cap : BitVec 2) (sel : BitVec 12) : Syl := fun o s =>
  capAt o s cap (some 0) true fun x =>
    match frozenSel sel.toNat none with
    | some c => frz s c
    | none => retG s d (readWord s x sel.toNat)

/-- FWR of a register (11 R323). -/
def sylFwrReg (cap : BitVec 2) (a : R5) (kreg : Bool) (n : R5) : Syl := fun o s =>
  capAt o s cap (some 1) true fun x =>
    .ok (s.patch x fun s key => s.upd key fun y => if kreg then y.setK (n.truncate 3) (o.g a) else y.setG n (o.g a)) .next

/-- FWR of a state word (11 R323). -/
def sylFwrState (cap : BitVec 2) (a : R5) (sel : BitVec 12) : Syl := fun o s =>
  capAt o s cap (some 1) true fun x =>
    match frozenSel sel.toNat (some (o.g a)) with
    | some c => frz s c
    | none => .ok (s.patch x fun s key => s.writeWordOf key sel.toNat (o.g a)) .next

/-- FRDV (11 R324). -/
def sylFrdv (v : R5) (cap : BitVec 2) (n : R5) : Syl := fun o s =>
  capAt o s cap (some 0) true fun x => .ok (s.wv v (x.vr n)) .next

/-- FWRV (11 R324). -/
def sylFwrv (cap : BitVec 2) (v n : R5) : Syl := fun o s =>
  capAt o s cap (some 1) true fun x => .ok (s.patch x fun s key => s.upd key fun y => y.setV n (o.vr v)) .next

/-- The status word of a frozen strand (11 R325 item 0). -/
def frqStatus (x : Strand) : Word :=
  BitVec.ofNat 64 (x.serial.toNat * 2 ^ 32 + x.frz.cause.toNat * 2 ^ 23 + flagAt x.frz.bsyl 22 + x.frz.lane.toNat * 2 ^ 16 +
    flagAt x.heldSet.isSome 11 + flagAt (!x.isFrozen) 10 + flagAt x.out 9 + flagAt x.isFrozen 8 + x.replay.length)

/-- The items of FRQ that only read (11 R325). Of the number of pages, four bits stand in item 6: 16 reads as 0 (log 49). -/
def frqRead (x : Strand) (item : Nat) : Word :=
  match item with
  | 0 => frqStatus x
  | 1 => x.pc
  | 2 => x.frz.bundle
  | 3 => x.frz.addr
  | 4 => if x.frz.cause = Cause.reservationOrphaned then x.frz.datum else 0
  | 5 => ((x.replay.head?).map (·.addr)).getD 0
  | 6 => ((x.replay.head?).map fun e => BitVec.ofNat 64 (e.pages.length % 16 * 2 ^ 32 + e.asyl.toNat)).getD 0
  | _ =>
    match x.frz.qa with
    | some q => (inWords x q).getD x.frz.qaNext 0
    | none => 0

/-- FRQ (11 R325). -/
def sylFrq (d : R5) (cap : BitVec 2) (item : BitVec 4) : Syl := fun o s =>
  capAt o s cap (some (if item = 7 ∨ item = 8 then 1 else 0)) false fun x =>
    if item = 7 then
      if x.replay.isEmpty then retG s d 0x200
      else
        match s.replayAs x.key performHead with
        | .done s1 => retG s1 d 0
        | .fault s1 c => retG s1 d (BitVec.ofNat 64 c.toNat)
        | .wait s1 v => parkFor s1 v
    else if item = 8 then
      retG (s.upd x.key fun y => { y with replay := y.replay.drop 1 }) d (BitVec.ofNat 64 (x.replay.length - 1))
    else if item = 9 then
      retG (s.upd x.key fun y => { y with frz := { y.frz with qaNext := (y.frz.qaNext + 1) % 8 } }) d (frqRead x 9)
    else retG s d (frqRead x item.toNat)

/-- FRES (11 R326): the entries first, then the release, then the resume; an entry that faults again leaves the strand frozen, and no
release is made. An umpire's own deferred store freezes it before anything (03 R115). -/
def fres (cap : BitVec 2) (bad : Strand → Bool) (m : Strand → Resume) : Syl := fun o s =>
  capAt o s cap (some 2) true fun x =>
    if bad o then frz s Cause.pcMisaligned
    else
      if !o.replay.isEmpty then frz s Cause.replayHold
      else
        match s.replayAs x.key (performAll 8) with
        | .done s1 => release o s1 .pkg fun s1 => .ok ((s1.resume x.key (m o)).setMe (freeCap cap.toNat)) .next
        | .fault s1 c => .ok (s1.upd x.key fun y => { y with frz := { y.frz with cause := c } }) .next
        | .wait s1 v => parkFor s1 v

/-- FRES.retry (11 R326). -/
def sylFresRetry (cap : BitVec 2) : Syl := fres cap (fun _ => false) fun _ => .retry

/-- FRES.skip (11 R326). -/
def sylFresSkip (cap : BitVec 2) : Syl := fres cap (fun _ => false) fun _ => .skip

/-- FRES.redirect (11 R326). -/
def sylFresRedirect (a : R5) (cap : BitVec 2) : Syl :=
  fres cap (fun o => decide ((o.g a).toNat % 8 ≠ 0)) fun o => .redirect (o.g a)

/-- FKILL (11 R327): of an umpire whose capabilities would go beyond firmware's table it parks (16 R403). -/
def fkill (cap : BitVec 2) (count : Bool) : Syl := fun o s =>
  capAt o s cap (some 3) false fun x =>
    let more := if x.ump.isSome then (heldCaps x).length - (capPlaces o + 1) else 0
    if 0 < more ∧ s.firmwareRoom o.key more = false then .park (s.queueUp o.key) .poll
    else .ok (((s.setMe (freeCap cap.toNat)).kill (some o.key) x.key count).unqueue o.key) .next

/-- FKILL.abandon (11 R327). -/
def sylFkillAbandon (cap : BitVec 2) : Syl := fkill cap false

/-- FKILL.count (11 R327). -/
def sylFkillCount (cap : BitVec 2) : Syl := fkill cap true

/-- The capability with rights cut to a mask; one whose set ends belongs to no set (11 R328, R330). -/
def maskCap (c : BitVec 128) (m : Nat) : BitVec 128 :=
  BitVec.ofNat 128 (fld c.toNat 0 121 + (fld c.toNat 122 5 &&& m) * 2 ^ 122 + fld c.toNat 127 1 * 2 ^ 127)

/-- The umpire of an id. -/
def State.umpire (s : State) (id : Nat) : Option Strand :=
  s.strands.find? fun u => u.ump.any (fun r => decide (r.umpid = id)) && !decide (u.run = .empty)

/-- CAPXFER (11 R328). -/
def sylCapxfer (a : R5) (cap : BitVec 2) : Syl := fun o s =>
  capAt o s cap (some 4) false fun x =>
    let w := (o.g a).toNat
    let c := maskCap (o.caps.getD cap.toNat 0) (fld w 48 5)
    if fld w 16 32 ≠ 0 ∨ fld w 53 10 ≠ 0 then frz s Cause.capTransfer
    else if bit w 63 then
      if s.firmwareRoom o.key 1 then .ok ((((s.endSet x.key).setMe (freeCap cap.toNat)).receiveCap c).unqueue o.key) .next
      else .park (s.queueUp o.key) .poll
    else
      match s.umpire (w % 2 ^ 16) with
      | none => frz s Cause.capTransfer
      | some r =>
        if r.ctx ≠ o.ctx ∨ (giveCap r c).isNone then frz s Cause.capTransfer
        else
          let s1 := (s.endSet x.key).setMe (freeCap cap.toNat)
          .ok (s1.upd r.key fun r => (giveCap r c).getD r) .next

/-- CAPDROP (11 R328). -/
def sylCapdrop (cap : BitVec 2) : Syl := fun o s =>
  capAt o s cap none false fun x =>
    if s.firmwareRoom o.key 1 then
      let s1 := s.endSet x.key
      .ok (((s1.setMe (freeCap cap.toNat)).receiveCap (s1.me.caps.getD cap.toNat 0)).unqueue o.key) .next
    else .park (s.queueUp o.key) .poll

/-- The association of a deferred store that an umpire emptied ends with it (11 R332). -/
def endsWith (s : State) (c : BitVec 128) : Option Nat :=
  match s.capStrand c with
  | some x => if x.attached && !x.isFrozen && x.replay.isEmpty then some x.key else none
  | none => none

/-- UEXIT hands over the umpire's capabilities while firmware has room; `n` bounds them. What is left stays with it. -/
def State.handOver (s : State) : Nat → State
  | 0 => s
  | n + 1 =>
    match (List.range 4).find? fun i => capValid (s.me.caps.getD i 0) with
    | none => s
    | some i =>
      let c := s.me.caps.getD i 0
      match endsWith s c with
      | some key => ((s.upd key fun x => { x with attached := false }).setMe (freeCap i)).handOver n
      | none =>
        if s.firmwareRoom s.me.key 1 then
          let s1 := match s.capStrand c with
            | some x => s.endSet x.key
            | none => s
          ((s1.setMe (freeCap i)).receiveCap (s1.me.caps.getD i 0)).handOver n
        else s

/-- UEXIT (11 R328): at firmware level it ends the service that runs it. -/
def sylUexit : Syl := fun o s =>
  if o.level = .user then frz s Cause.privilegedOp
  else
    let s1 := s.handOver 12
    if s1.me.caps.toList.any capValid then .park (s1.queueUp o.key) .poll
    else .ok s1 (.finish fun s => ((s.unqueue o.key).retireStrand o).freeFrame o)

/-! ## The bundles that hold one of these syllables alone (05 R142) -/

/-- FRD_REG beside an idle syllable (R323). -/
def execFrdReg (d : R5) (cap : BitVec 2) (kreg : Bool) (n : R5) (s : State) : Out := issueA (sylFrdReg d cap kreg n) s

/-- FRD_STATE beside an idle syllable (R323). -/
def execFrdState (d : R5) (cap : BitVec 2) (sel : BitVec 12) (s : State) : Out := issueA (sylFrdState d cap sel) s

/-- FWR_REG beside an idle syllable (R323). -/
def execFwrReg (cap : BitVec 2) (a : R5) (kreg : Bool) (n : R5) (s : State) : Out := issueA (sylFwrReg cap a kreg n) s

/-- FWR_STATE beside an idle syllable (R323). -/
def execFwrState (cap : BitVec 2) (a : R5) (sel : BitVec 12) (s : State) : Out := issueA (sylFwrState cap a sel) s

/-- FRDV beside an idle syllable (R324). -/
def execFrdv (v : R5) (cap : BitVec 2) (n : R5) (s : State) : Out := issueA (sylFrdv v cap n) s

/-- FWRV beside an idle syllable (R324). -/
def execFwrv (cap : BitVec 2) (v n : R5) (s : State) : Out := issueA (sylFwrv cap v n) s

/-- FRQ beside an idle syllable (R325). -/
def execFrq (d : R5) (cap : BitVec 2) (item : BitVec 4) (s : State) : Out := issueA (sylFrq d cap item) s

/-- FRES_RETRY beside an idle syllable (R326). -/
def execFresRetry (cap : BitVec 2) (s : State) : Out := issueA (sylFresRetry cap) s

/-- FRES_SKIP beside an idle syllable (R326). -/
def execFresSkip (cap : BitVec 2) (s : State) : Out := issueA (sylFresSkip cap) s

/-- FRES_REDIRECT beside an idle syllable (R326). -/
def execFresRedirect (a : R5) (cap : BitVec 2) (s : State) : Out := issueA (sylFresRedirect a cap) s

/-- FKILL_ABANDON beside an idle syllable (R327). -/
def execFkillAbandon (cap : BitVec 2) (s : State) : Out := issueA (sylFkillAbandon cap) s

/-- FKILL_COUNT beside an idle syllable (R327). -/
def execFkillCount (cap : BitVec 2) (s : State) : Out := issueA (sylFkillCount cap) s

/-- CAPXFER beside an idle syllable (R328). -/
def execCapxfer (a : R5) (cap : BitVec 2) (s : State) : Out := issueA (sylCapxfer a cap) s

/-- CAPDROP beside an idle syllable (R328). -/
def execCapdrop (cap : BitVec 2) (s : State) : Out := issueA (sylCapdrop cap) s

/-- UEXIT beside an idle syllable (R328). -/
def execUexit (s : State) : Out := issueA sylUexit s

end Sys2Proof.Machine
end

