-- ==== Sys2Proof/Machine/Bundle.lean ====
section
/-! DEFINITION. Bundles: the meaning of each syllable, a bundle as one step (05 R142), fetching (06 R188), the decode order
(05 R146), the issue of a turn, gangs (01 R42, R43) and strand pairs (18 R461-R463). -/

namespace Sys2Proof.Machine

open Sys2Proof

/-- The meaning of a syllable; a step of the part that is no syllable has none here. -/
def sylOf (i : Instr) : Option Syl :=
  match i with
  | .add d a b sat => some (sylAdd d a b sat)
  | .sub d a b sat => some (sylSub d a b sat)
  | .mul d a b sat => some (sylMul d a b sat)
  | .mulh d a b => some (sylMulh d a b)
  | .mulhu d a b => some (sylMulhu d a b)
  | .div d a b => some (sylDiv d a b)
  | .divu d a b => some (sylDivu d a b)
  | .rem d a b => some (sylRem d a b)
  | .remu d a b => some (sylRemu d a b)
  | .and d a b => some (sylAnd d a b)
  | .or d a b => some (sylOr d a b)
  | .xor d a b => some (sylXor d a b)
  | .andn d a b => some (sylAndn d a b)
  | .orn d a b => some (sylOrn d a b)
  | .sll d a b => some (sylSll d a b)
  | .srl d a b => some (sylSrl d a b)
  | .sra d a b => some (sylSra d a b)
  | .rol d a b => some (sylRol d a b)
  | .ror d a b => some (sylRor d a b)
  | .min d a b => some (sylMin d a b)
  | .max d a b => some (sylMax d a b)
  | .minu d a b => some (sylMinu d a b)
  | .maxu d a b => some (sylMaxu d a b)
  | .slt d a b => some (sylSlt d a b)
  | .sltu d a b => some (sylSltu d a b)
  | .seq d a b => some (sylSeq d a b)
  | .sne d a b => some (sylSne d a b)
  | .clz d a => some (sylClz d a)
  | .ctz d a => some (sylCtz d a)
  | .popc d a => some (sylPopc d a)
  | .brev d a => some (sylBrev d a)
  | .bswap d a => some (sylBswap d a)
  | .sel d a b => some (sylSel d a b)
  | .adds d a b sh => some (sylAdds d a b sh)
  | .addi d a imm => some (sylAddi d a imm)
  | .andi d a imm => some (sylAndi d a imm)
  | .ori d a imm => some (sylOri d a imm)
  | .xori d a imm => some (sylXori d a imm)
  | .slli d a sh => some (sylSlli d a sh)
  | .srli d a sh => some (sylSrli d a sh)
  | .srai d a sh => some (sylSrai d a sh)
  | .slti d a imm => some (sylSlti d a imm)
  | .sltui d a imm => some (sylSltui d a imm)
  | .lui d imm => some (sylLui d imm)
  | .lit d x => some (sylLit d x)
  | .lith d x => some (sylLith d x)
  | .addpc d imm => some (sylAddpc d imm)
  | .extr d a lenm1 pos => some (sylExtr d a lenm1 pos)
  | .extru d a lenm1 pos => some (sylExtru d a lenm1 pos)
  | .insr d a lenm1 pos => some (sylInsr d a lenm1 pos)
  | .beq a b off => some (sylBeq a b off)
  | .bne a b off => some (sylBne a b off)
  | .blt a b off => some (sylBlt a b off)
  | .bge a b off => some (sylBge a b off)
  | .bltu a b off => some (sylBltu a b off)
  | .bgeu a b off => some (sylBgeu a b off)
  | .j off => some (sylJ off)
  | .wcall off => some (sylWcall off)
  | .ldb d base rq off => some (sylLdb d base rq off)
  | .ldbu d base rq off => some (sylLdbu d base rq off)
  | .ldh d base rq off => some (sylLdh d base rq off)
  | .ldhu d base rq off => some (sylLdhu d base rq off)
  | .ldw d base rq off => some (sylLdw d base rq off)
  | .ldwu d base rq off => some (sylLdwu d base rq off)
  | .ldd d base rq off => some (sylLdd d base rq off)
  | .stb xs base rq off => some (sylStb xs base rq off)
  | .sth xs base rq off => some (sylSth xs base rq off)
  | .stw xs base rq off => some (sylStw xs base rq off)
  | .std xs base rq off => some (sylStd xs base rq off)
  | .vld v base rq off k => some (sylVld v base rq off k)
  | .vst v base rq off k => some (sylVst v base rq off k)
  | .vlds v base rq t k e => some (sylVlds v base rq t k e)
  | .vsts v base rq t k e => some (sylVsts v base rq t k e)
  | .vgath v base rq vi k e => some (sylVgath v base rq vi k e)
  | .vscat v base rq vi k e => some (sylVscat v base rq vi k e)
  | .vldb v base rq ew off => some (sylVldb v base rq ew off)
  | .vldt v base rq e => some (sylVldt v base rq e)
  | .pf base rq off => some (sylPf base rq off)
  | .cflush base rq off => some (sylCflush base rq off)
  | .xswap n base rq => some (sylXswap n base rq)
  | .vmap a b w => some (sylVmap a b w)
  | .vmapRel a b w => some (sylVmapRel a b w)
  | .vunmap w => some (sylVunmap w)
  | .vdraftNew d a cls w => some (sylVdraftNew d a cls w)
  | .vdraftJoin d a w => some (sylVdraftJoin d a w)
  | .vpub a w => some (sylVpub a w)
  | .vdone w => some (sylVdone w)
  | .vlatest d a => some (sylVlatest d a)
  | .vsub a sq => some (sylVsub a sq)
  | .vunsub a sq => some (sylVunsub a sq)
  | .vretain a k => some (sylVretain a k)
  | .vdrop a => some (sylVdrop a)
  | .lrw d a w => some (sylLrw d a w)
  | .sch a b w => some (sylSch a b w)
  | .rls a => some (sylRls a)
  | .amo d a b w op => some (sylAmo d a b w op)
  | .acas d a b w => some (sylAcas d a b w)
  | .ured a b tag => some (sylUred a b tag)
  | .uredv a v k tag => some (sylUredv a v k tag)
  | .odecl d a named lock tag => some (sylOdecl d a named lock tag)
  | .ofree a => some (sylOfree a)
  | .fenceAcq xs => some (sylFenceAcq xs)
  | .fenceLl xs => some (sylFenceLl xs)
  | .fenceRel xs => some (sylFenceRel xs)
  | .fenceFull xs => some (sylFenceFull xs)
  | .sqwait a ann sq => some (sylSqwait a ann sq)
  | .sqinc inc ann sq => some (sylSqinc inc ann sq)
  | .sqrd d sq => some (sylSqrd d sq)
  | .qpush q a => some (sylQpush q a)
  | .qpop d q => some (sylQpop d q)
  | .qstat d q => some (sylQstat d q)
  | .qpushc v h => some (sylQpushc v h)
  | .msg a b => some (sylMsg a b)
  | .spawn a b => some (sylSpawn a b)
  | .join a => some (sylJoin a)
  | .steal d a => some (sylSteal d a)
  | .taskw a => some (sylTaskw a)
  | .texit => some sylTexit
  | .launch a => some (sylLaunch a)
  | .vtrig a b => some (sylVtrig a b)
  | .gang dir nc => some (sylGang dir nc)
  | .ungang => some sylUngang
  | .bar d a ev => some (sylBar d a ev)
  | .bara => some sylBara
  | .barw d => some (sylBarw d)
  | .nret => some sylNret
  | .wait => some sylWait
  | .yield => some sylYield
  | .mfs d sel => some (sylMfs d sel)
  | .mts a sel => some (sylMts a sel)
  | .ecall => some sylEcall
  | .brk => some sylBrk
  | .trmark a => some (sylTrmark a)
  | .halt => some sylHalt
  | .frdReg d cap kreg n => some (sylFrdReg d cap kreg n)
  | .frdState d cap sel => some (sylFrdState d cap sel)
  | .fwrReg cap a kreg n => some (sylFwrReg cap a kreg n)
  | .fwrState cap a sel => some (sylFwrState cap a sel)
  | .frdv v cap n => some (sylFrdv v cap n)
  | .fwrv cap v n => some (sylFwrv cap v n)
  | .frq d cap item => some (sylFrq d cap item)
  | .fresRetry cap => some (sylFresRetry cap)
  | .fresSkip cap => some (sylFresSkip cap)
  | .fresRedirect a cap => some (sylFresRedirect a cap)
  | .fkillAbandon cap => some (sylFkillAbandon cap)
  | .fkillCount cap => some (sylFkillCount cap)
  | .capxfer a cap => some (sylCapxfer a cap)
  | .capdrop cap => some (sylCapdrop cap)
  | .uexit => some sylUexit
  | .cxrd a b => some (sylCxrd a b)
  | .cxwr a b => some (sylCxwr a b)
  | .anop => some sylAnop
  | .jl d off => some (sylJl d off)
  | .jlr d a off => some (sylJlr d a off)
  | .wret => some sylWret
  | .repRegister a lenm1 => some (sylRepRegister a lenm1)
  | .repImmediate count lenm1 => some (sylRepImmediate count lenm1)
  | .vnop => some sylVnop
  | .kand kd ka kb => some (sylKand kd ka kb)
  | .kor kd ka kb => some (sylKor kd ka kb)
  | .kxor kd ka kb => some (sylKxor kd ka kb)
  | .knot kd ka => some (sylKnot kd ka)
  | .kmov kd ka => some (sylKmov kd ka)
  | .vadd vd va vb k ew => some (sylVadd vd va vb k ew)
  | .vaddSat vd va vb k ew => some (sylVaddSat vd va vb k ew)
  | .vsubVector vd va vb k ew => some (sylVsubVector vd va vb k ew)
  | .vsubSat vd va vb k ew => some (sylVsubSat vd va vb k ew)
  | .vmul vd va vb k ew => some (sylVmul vd va vb k ew)
  | .vmulh vd va vb k ew => some (sylVmulh vd va vb k ew)
  | .vand vd va vb k ew => some (sylVand vd va vb k ew)
  | .vor vd va vb k ew => some (sylVor vd va vb k ew)
  | .vxor vd va vb k ew => some (sylVxor vd va vb k ew)
  | .vandn vd va vb k ew => some (sylVandn vd va vb k ew)
  | .vsll vd va vb k ew => some (sylVsll vd va vb k ew)
  | .vsrl vd va vb k ew => some (sylVsrl vd va vb k ew)
  | .vsra vd va vb k ew => some (sylVsra vd va vb k ew)
  | .vmin vd va vb k ew => some (sylVmin vd va vb k ew)
  | .vmax vd va vb k ew => some (sylVmax vd va vb k ew)
  | .vminu vd va vb k ew => some (sylVminu vd va vb k ew)
  | .vmaxu vd va vb k ew => some (sylVmaxu vd va vb k ew)
  | .vabs vd va k ew => some (sylVabs vd va k ew)
  | .vpopc vd va k ew => some (sylVpopc vd va k ew)
  | .vsel vd va vb k ew => some (sylVsel vd va vb k ew)
  | .vcmpEq kd va vb k ew => some (sylVcmpEq kd va vb k ew)
  | .vcmpNe kd va vb k ew => some (sylVcmpNe kd va vb k ew)
  | .vcmpLt kd va vb k ew => some (sylVcmpLt kd va vb k ew)
  | .vcmpLe kd va vb k ew => some (sylVcmpLe kd va vb k ew)
  | .vcmpLtu kd va vb k ew => some (sylVcmpLtu kd va vb k ew)
  | .vcmpLeu kd va vb k ew => some (sylVcmpLeu kd va vb k ew)
  | .vmadd vd va vb vc k ew => some (sylVmadd vd va vb vc k ew)
  | .vfadd vd va vb k w => some (sylVfadd vd va vb k w)
  | .vfsub vd va vb k w => some (sylVfsub vd va vb k w)
  | .vfmul vd va vb k w => some (sylVfmul vd va vb k w)
  | .vfdiv vd va vb k w => some (sylVfdiv vd va vb k w)
  | .vfmin vd va vb k w => some (sylVfmin vd va vb k w)
  | .vfmax vd va vb k w => some (sylVfmax vd va vb k w)
  | .vfsqrt vd va k w => some (sylVfsqrt vd va k w)
  | .vfrcp vd va k w => some (sylVfrcp vd va k w)
  | .vfrsq vd va k w => some (sylVfrsq vd va k w)
  | .vfexp2 vd va k w => some (sylVfexp2 vd va k w)
  | .vflog2 vd va k w => some (sylVflog2 vd va k w)
  | .vtsum vd va vb k w => some (sylVtsum vd va vb k w)
  | .vfcmpEq kd va vb k w => some (sylVfcmpEq kd va vb k w)
  | .vfcmpLt kd va vb k w => some (sylVfcmpLt kd va vb k w)
  | .vfcmpLe kd va vb k w => some (sylVfcmpLe kd va vb k w)
  | .vfcmpUn kd va vb k w => some (sylVfcmpUn kd va vb k w)
  | .vfsgnCp vd va vb k w => some (sylVfsgnCp vd va vb k w)
  | .vfsgnNeg vd va vb k w => some (sylVfsgnNeg vd va vb k w)
  | .vfsgnXor vd va vb k w => some (sylVfsgnXor vd va vb k w)
  | .vfclass vd va k w => some (sylVfclass vd va k w)
  | .vfma vd va vb vc k w => some (sylVfma vd va vb vc k w)
  | .vfnma vd va vb vc k w => some (sylVfnma vd va vb vc k w)
  | .vcvt vd va src dst rm sat k => some (sylVcvt vd va src dst rm sat k)
  | .venc vd va c4 rm sat k tbl => some (sylVenc vd va c4 rm sat k tbl)
  | .vdec vd va c4 rm sat k tbl => some (sylVdec vd va c4 rm sat k tbl)
  | .vencS vd va c4 rm sat k tbl => some (sylVencS vd va c4 rm sat k tbl)
  | .vdecS vd va c4 rm sat k tbl => some (sylVdecS vd va c4 rm sat k tbl)
  | .vfkey vd va k => some (sylVfkey vd va k)
  | .vperm vd va vb k ew => some (sylVperm vd va vb k ew)
  | .vbcast vd a k ew => some (sylVbcast vd a k ew)
  | .vext d va b ew => some (sylVext d va b ew)
  | .vins vd a b ew => some (sylVins vd a b ew)
  | .vslideUp vd va b k ew => some (sylVslideUp vd va b k ew)
  | .vslideDn vd va b k ew => some (sylVslideDn vd va b k ew)
  | .vred vd va kind k ew => some (sylVred vd va kind k ew)
  | .vscan vd va kind k ew => some (sylVscan vd va kind k ew)
  | .vcmprs vd va k ew => some (sylVcmprs vd va k ew)
  | .vsortA vd va => some (sylVsortA vd va)
  | .vsortD vd va => some (sylVsortD vd va)
  | .vmergeA vd va vb => some (sylVmergeA vd va vb)
  | .vmergeD vd va vb => some (sylVmergeD vd va vb)
  | .mmas qa qb acc t z g f => some (sylMmas qa qb acc t z g f)
  | .mzero acc => some (sylMzero acc)
  | .mtab b a => some (sylMtab b a)
  | .vqpush q va => some (sylVqpush q va)
  | _ => none

/-! ## One bundle (05 R142) -/

/-- What a whole bundle does, before the strand is moved: completes, freezes, or parks. -/
inductive PairOut where
  | ok (s : State)
  | freeze (s : State) (r : Raise) (bsyl : Bool) (qa : Option Q4)
  | park (s : State) (p : Park)

/-- Complete with the control of both syllables: only A moves the PC, B may add something after it. -/
def completeBoth (o : Strand) (s : State) (ca cb : Ctl) : State :=
  match cb with
  | .after f => f (s.complete o ca)
  | _ => s.complete o ca

/-- Both syllables of a bundle, A then B (05 R142): a bundle that freezes or parks has no effect of its own; what an
instruction leaves behind while it waits (a place in a queue) stays. Where B holds the bundle back, A has done nothing yet. `oa` is the strand as the A syllable reads it, `o` as B does. -/
def pairOut (a : Instr) (fa fb : Syl) (oa o : Strand) (s : State) : PairOut :=
  match fa oa s with
  | .freeze s1 r qa => .freeze s1 r false qa
  | .park s1 p => .park s1 p
  | .ok s1 ca =>
    match fb o s1 with
    | .ok s2 cb =>
      match cb with
      | .hold _ =>
        match fb o s with
        | .ok s3 (.hold f) => .ok (f a oa s3)
        | _ => .park s .poll
      | _ => .ok (completeBoth o s2 ca cb)
    | .freeze _ r qa => .freeze s r true qa
    | .park _ _ =>
      match fb o s with
      | .park s2 p => .park s2 p
      | _ => .park s .poll

/-- Apply it to the issuing strand. -/
def applyPair : PairOut → State
  | .ok s => s
  | .freeze s r b qa => s.freezeMe r b qa
  | .park s p => s.parkMe p

/-- Issue a bundle of two syllables. A failed background spill or refill freezes it first (01 R24). -/
def runPair (a : Instr) (fa fb : Syl) (s : State) : State :=
  let s0 := s.begin
  if s0.me.winFault then
    (s0.setMe fun o => { o with winFault := false }).freezeMe (Raise.of Cause.windowLimit) false none
  else applyPair (pairOut a fa fb s0.me s0.me s0)

/-- Issue a decoded bundle. -/
def runBundle (a b : Instr) (s : State) : State :=
  match sylOf a, sylOf b with
  | some fa, some fb => runPair a fa fb s
  | _, _ => s

/-! ## Fetching and decoding (06 R188, 05 R146) -/

/-- What a fetch and decode gives. -/
inductive Fetched where
  | stop (s : State) (r : Raise) (bsyl : Bool)
  | wait (s : State)
  | run (s : State) (a b : Instr)

/-- The bundle at a memory key, through the core's fetch line, which is filled when it holds another line (log 15). -/
def fetchWord (s : State) (core k : Nat) : Nat × State :=
  let fill := s.bytes (.mem (k / 64 * 64)) 64
  match (s.core core).line with
  | some (a, bs) =>
    if a = k / 64 then (leNat ((bs.drop (k % 64)).take 8), s)
    else (leNat ((fill.drop (k % 64)).take 8), s.setCore core fun c => { c with line := some (k / 64, fill) })
  | none => (leNat ((fill.drop (k % 64)).take 8), s.setCore core fun c => { c with line := some (k / 64, fill) })

/-- A fetch has to wait, when the core's fetch line does not hold it: its frame moves or its line belongs to an engine (16 R414,
03 R110), or the way to its home is held (17 R443). -/
def fetchWaits (s : State) (core k : Nat) : Bool :=
  paExists k && !((s.core core).line.any fun l => decide (l.1 = k / 64)) &&
    (s.heldPa k || !s.wayOpen (dieOf core) (dieOfSlice (s.sliceOf k)) (k / 4096) (.mem k))

/-- The translation of a fetch from plain memory stays in the TLBs (16 R419). -/
def State.noteFetch (s : State) (k : Nat) : State :=
  if paExists k then s.noteWalk (tlbsOf s.me.core) (dieOf s.me.core) s.me.ctx s.me.pc.toNat else s

/-- Fetch and decode the issuing strand's bundle. -/
def fetchDecode (s : State) : Fetched :=
  let o := s.me
  match fetchPlace s o o.pc with
  | .inr r => .stop s r false
  | .inl k =>
    if fetchWaits s o.core k then .wait s
    else
    match s.poisonIn (.mem k) 8 with
    | some _ => .stop s (Raise.at' Cause.ueConsumed 0 o.pc) false
    | none =>
      let (w, s1) := fetchWord (s.noteFetch k) o.core k
      match decodeBundle (isCompute o.core) (isCox o.core) (w % 2 ^ 32) (w / 2 ^ 32) with
      | .bad c b => .stop s1 (Raise.of c) b
      | .good a b => .run s1 a b

/-! ## A turn -/

/-- fp64 arithmetic of the vector slot (08 R239). -/
def isFp64 (b : Instr) : Bool :=
  match b with
  | .vfadd _ _ _ _ .f64 | .vfsub _ _ _ _ .f64 | .vfmul _ _ _ _ .f64 | .vfdiv _ _ _ _ .f64 | .vfsqrt _ _ _ .f64
  | .vfrcp _ _ _ .f64 | .vfrsq _ _ _ .f64 | .vfexp2 _ _ _ .f64 | .vflog2 _ _ _ .f64 | .vtsum _ _ _ _ .f64
  | .vfma _ _ _ _ _ .f64 | .vfnma _ _ _ _ _ .f64 => true
  | .vred _ _ k _ .e64 | .vscan _ _ k _ .e64 => k.isFp
  | _ => false

/-- Remember fp64 arithmetic that completed in this turn: the strand's next turn is the one after it. -/
def noteFp64 (key : Nat) (b : Instr) (s : State) : State :=
  s.setMe fun o =>
    if isFp64 b && decide (o.key = key) && decide (o.park = .none) && (decide (o.run = .ready) || decide (o.run = .follower)) then
      { o with fpTurn := some (alignTurn o.sid (s.tick + 8)) }
    else o

/-- fp64 arithmetic at the turn right after a bundle that held some: the strand parks for that one turn (01 R17, 08 R239). -/
def spaced (s : State) (b : Instr) : Bool := isFp64 b && decide (s.me.fpTurn = some s.tick)

/-- A turn that is not used (01 R15). -/
def bubble (s : State) : State := s.setMe fun o => { o with turn := s.tick + 8 }

/-- The turn of one strand that is in no gang: held deliveries enter, the bundle is fetched, decoded and run (01 R14,
11 R333, 08 R239). A fault of the fetch or the decoding freezes it before a background spill or refill that failed does: 01 R24 does not
say which of the two causes the bundle takes (DESIGN CHOICE, log 49). -/
def issueOne (s : State) : State :=
  let s1 := s.setMe drainInbox
  match fetchDecode s1 with
  | .stop s2 r b => s2.freezeMe r b none
  | .wait s2 => s2.parkMe .turn
  | .run s2 a b => if spaced s b then s2.parkMe .turn else noteFp64 s.me.key b (runBundle a b s2)

/-! ## Strand pairs (18 R461-R463) -/

/-- The data of the active lanes of a vector, for a mask of bytes or elements (18 R462). -/
def activeData (w n : Nat) (k : Word) (v : Vec) : Nat := (packLanes w ((List.range n).map fun i => if kbit k i then laneOf w v i else 0)).toNat

/-- The effects of a syllable that the comparator holds: address, size or mask or type, and data of each (18 R462). A matrix step is
compared by its configuration and its operands in registers (log 45). -/
def sent (i : Instr) (o : Strand) : List (Word × Nat × Nat) :=
  let els (v : R5) (e : Bool) (l : List (Nat × Word)) := l.map fun p => (p.2, p.1, laneOf (8 * elBytes e) (o.vr v) p.1)
  let one (typ : Nat) (a b : R5) := [((0 : Word), typ, (o.g a).toNat * 2 ^ 64 + (o.g b).toNat)]
  match i with
  | .stb r base _ off => [(memAddr o base 1 off, 1, (o.g r).toNat % 2 ^ 8)]
  | .sth r base _ off => [(memAddr o base 2 off, 2, (o.g r).toNat % 2 ^ 16)]
  | .stw r base _ off => [(memAddr o base 4 off, 4, (o.g r).toNat % 2 ^ 32)]
  | .std r base _ off => [(memAddr o base 8 off, 8, (o.g r).toNat)]
  | .vst v base _ off k => [(memAddr o base 64 off, (o.kr k).toNat, activeData 8 64 (o.kr k) (o.vr v))]
  | .vsts v base _ t k e => els v e (elAddrs o e k (strideAddr o base t))
  | .vscat v base _ vi k e => els v e (elAddrs o e k (indexAddr o base vi e))
  | .uredv a v k tag => [(o.g a, (o.kr k).toNat % 256 * 16 + tag.toNat, activeData 64 8 (o.kr k) (o.vr v))]
  | .ured a b tag => [(o.g a, tag.toNat, (o.g b).toNat)]
  | .xswap n base _ => [(o.g base, 0, (o.g n).toNat)]
  | .amo _ a b _ _ | .sch a b _ | .cxwr a b => [(o.g a, 0, (o.g b).toNat)]
  | .acas d a b _ => [(o.g a, (o.g d).toNat, (o.g b).toNat)]
  | .rls a => [(o.g a, 0, 0)]
  | .qpush q a => one (0x100 + q.toNat) a 0
  | .vqpush q v => [(0, 0x110 + q.toNat, (o.vr v).toNat)]
  | .qpushc v h => [(0, 0x120 + h.toNat, (o.vr v).toNat)]
  | .msg a b => one 0x130 a b
  | .vmap a b w => one (0x140 + w.toNat) a b
  | .vmapRel a b w => one (0x150 + w.toNat) a b
  | .vunmap w => [(0, 0x160 + w.toNat, 0)]
  | .vdraftNew _ a cls w => one (0x170 + cls.code * 16 + w.toNat) a 0
  | .vdraftJoin _ a w => one (0x200 + w.toNat) a 0
  | .vpub a w => one (0x210 + w.toNat) a 0
  | .vdone w => [(0, 0x220 + w.toNat, 0)]
  | .vlatest _ a => one 0x230 a 0
  | .vsub a sq => one (0x400 + sq.toNat) a 0
  | .vunsub a sq => one (0x500 + sq.toNat) a 0
  | .vretain a b => [(0, 0x231 + b.toNat * 0x1000, (o.g a).toNat)]
  | .vdrop a => one 0x232 a 0
  | .vtrig a b => one 0x233 a b
  | .spawn a b => one 0x234 a b
  | .taskw a => [(o.g a, 0x235, 0)]
  | .mts a sel => if [0x010, 0x020, 0x021, 0x022, 0x023, 0x024].contains sel.toNat then one (0x600 + sel.toNat) a 0 else []
  | .mmas qa qb acc t z g f =>
    let n := mVecs o.mxcfg
    [(o.mxacc + BitVec.ofNat 64 (1024 * acc.toNat), b2n t + 2 * b2n z + 4 * b2n g + 8 * b2n f + 16 * o.mxcfg.toNat,
      leNat ((srcRegs o n qa ++ srcRegs o n qb).flatMap fun w => natLE 8 w.toNat))]
  | .mzero acc => [(o.mxacc + BitVec.ofNat 64 (1024 * acc.toNat), 0, 0)]
  | _ => []

/-- The address of the first effect of a syllable in which the two members differ, 0 when none has an address (18 R463). -/
def mismatchAddr (i : Instr) (l t : Strand) : Word :=
  match ((sent i l).find? fun e => !(sent i t).contains e).orElse fun _ => (sent i t).find? fun e => !(sent i l).contains e with
  | some e => e.1
  | none => 0

/-- The trailer as a syllable reads it: a value that comes from outside is the leader's, so whatever says where it comes from is the
leader's too (18 R461). -/
def valueView (i : Instr) (l t : Strand) : Strand :=
  match i with
  | .ldb _ a _ _ | .ldbu _ a _ _ | .ldh _ a _ _ | .ldhu _ a _ _ | .ldw _ a _ _ | .ldwu _ a _ _ | .ldd _ a _ _ | .vldb _ a _ _ _
  | .vldt _ a _ _ | .vlatest _ a | .steal _ a | .join a | .sqwait a _ _ | .launch a | .taskw a | .ofree a | .lrw _ a _
  | .odecl _ a _ _ _ | .pf a _ _ | .cflush a _ _ => t.setG a (l.g a)
  | .vld _ a _ _ k => (t.setG a (l.g a)).setK k (l.kr k)
  | .vlds _ a _ b k _ => ((t.setG a (l.g a)).setG b (l.g b)).setK k (l.kr k)
  | .vgath _ a _ v k _ => ((t.setG a (l.g a)).setV v (l.vr v)).setK k (l.kr k)
  | _ => t

/-- The trailer executes a bundle that its leader completes, on the machine before it: its registers afterwards, with the values that
came from outside; none where it freezes (18 R461, R463). -/
def trailerOut (a b : Instr) (fa fb : Syl) (l t : Strand) (s : State) : Option Strand :=
  let own := withRegs l t
  match pairOut a fa fb (valueView a l own) (valueView b l own) { s with me := own } with
  | .ok s1 => some ((s1.strand l.key).getD own)
  | .freeze _ _ _ _ => none
  | .park _ _ => some own

/-- A mismatch of the pair in one bundle: in what the two send, in a freeze of the trailer alone, or in where they go on (18 R462,
R463; log 45). `l` is the leader before the bundle, `l1` after it. -/
def mismatched (a b : Instr) (l t l1 : Strand) (out : Option Strand) : Bool :=
  !decide (sent a l = sent a (withRegs l t)) || !decide (sent b l = sent b (withRegs l t)) ||
    match out with
    | none => true
    | some y => decide (l1.park = .none) && !decide (y.pc = l1.pc)

/-- The turn of a leader: what leaves it is matched with what the trailer sends out of the same bundle before any of it leaves, so that
neither the load-value queue nor the comparator ever holds more than one bundle's entries (18 R461-R463; log 45). A leader that freezes
stops its trailer at the same bundle; a mismatch freezes both, with none of the bundle's effects. -/
def issuePair (t : Strand) (s : State) : State :=
  let s0 := s.setMe drainInbox
  let sl := issueOne s
  match fetchDecode s0, sl.strand s.me.key with
  | .run s1 a b, some l1 =>
    if l1.isFrozen then sl
    else if l1.run = .parked ∧ l1.park.retries = true then sl.upd t.key fun x => { x with run := l1.run, park := l1.park, turn := l1.turn }
    else
      match sylOf a, sylOf b with
      | some fa, some fb =>
        let out := trailerOut a b fa fb s0.me t s1
        if mismatched a b s0.me t l1 out then
          let at0 := if sent a s0.me = sent a (withRegs s0.me t) then mismatchAddr b s0.me (withRegs s0.me t)
            else mismatchAddr a s0.me (withRegs s0.me t)
          s.freezeMe (Raise.at' Cause.redundancyMismatch 0 at0) false none
        else sl.upd t.key fun x => { withRegs x (out.getD x) with run := l1.run, park := l1.park, turn := l1.turn }
      | _, _ => sl
  | .run _ _ _, none => sl.dropStrand t.key
  | _, some l1 => if l1.isFrozen then sl else sl.upd t.key fun x => { x with run := l1.run, park := l1.park, turn := l1.turn }
  | _, none => sl.dropStrand t.key

/-! ## Gangs (01 R42, R43) -/

/-- A member reads the registers that decide where the stream goes from the leader: both sides of a branch, the target of a
jump, a call or a return, the count of REP (01 R42). -/
def leadView (i : Instr) (lead o : Strand) : Strand :=
  match i with
  | .beq a b _ | .bne a b _ | .blt a b _ | .bge a b _ | .bltu a b _ | .bgeu a b _ => (o.setG a (lead.g a)).setG b (lead.g b)
  | .jlr _ a _ => o.setG a (lead.g a)
  | .wcall _ => o.setG 31 (lead.g 31)
  | .wret => o.setG 23 (lead.g 23)
  | .repRegister a _ => o.setG a (lead.g a)
  | _ => o

/-- The outcome of a bundle in all members so far. -/
inductive GangRun where
  | ok (s : State)
  | freeze (key : Nat) (r : Raise) (bsyl : Bool) (qa : Option Q4)
  | park (s : State) (keys : List Nat)

/-- One member's part. -/
def memberOut (a : Instr) (fa fb : Syl) (lead : Strand) (s : State) : PairOut := pairOut a fa fb (leadView a lead s.me) s.me s

/-- The next member executes one cycle later (01 R42). -/
def State.hop (s : State) : State := { s with tick := s.tick + 1 }

/-- Run a bundle in the members in order, each in its own turn. A member's failure is the gang's; one that parks is noted. -/
def runMembers (a b : Instr) (fa fb : Syl) (lead : Strand) : List Nat → State → GangRun
  | [], s => .ok s
  | k :: t, s =>
    let s1 := (s.focus k).begin
    match memberOut a fa fb lead s1 with
    | .freeze _ r bs qa => .freeze k r bs qa
    | .park _ _ =>
      match runMembers a b fa fb lead t s1.hop with
      | .freeze k r bs qa => .freeze k r bs qa
      | .ok s2 => .park s2 [k]
      | .park s2 ks => .park s2 (k :: ks)
    | .ok s2 => runMembers a b fa fb lead t (noteFp64 k b s2).noteConds.hop

/-- The waits that members' bundles set up stay while the whole bundle is held (01 R43). -/
def parkMembers (a : Instr) (fa fb : Syl) (lead : Strand) : List Nat → State → State
  | [], s => s
  | k :: t, s =>
    let s1 := s.focus k
    parkMembers a fa fb lead t (match memberOut a fa fb lead s1 with
      | .park s2 p => s2.parkMe p
      | _ => s1)

/-- Every member enters its leader's notice, for an entry bundle (01 R33). -/
def enterGang (vec : Option Word) (g : Gang) (s : State) : State :=
  match vec with
  | none => s
  | some v => g.members.foldl (fun s k => s.upd k (enterNotice 4 v)) s

/-- The entries in the trace. -/
def traceGang (vec : Option Word) (g : Gang) (before s : State) : State :=
  match vec with
  | none => s
  | some v => g.members.foldl (fun s k => match before.strand k with
      | some m => s.traceOf m 4 (nhcause (enterNotice 4 v m))
      | none => s) s

/-- The entry undone in every member, of a bundle that is discarded or held (01 R33). -/
def leaveGang (vec : Option Word) (g : Gang) (before s : State) : State :=
  match vec with
  | none => s
  | some _ => g.members.foldl (fun s k => match before.strand k with
      | some m => s.upd k (leaveNotice m)
      | none => s) s

/-- The turn of a gang's leader: one bundle in every member, committed together or not at all (01 R42, R43); with `vec` the entry
bundle of a notice, whose entry is an effect of it (01 R33). -/
def issueGangFrom (vec : Option Word) (g : Gang) (s : State) : State :=
  let s0 := g.members.foldl (fun s k => s.upd k drainInbox) s
  let waits := g.members.any fun k => match s0.strand k with
    | some o => (decide (k ≠ s.me.key) && !decide (o.run = .follower)) || (match o.park with
      | .matrix _ => true
      | _ => false) || o.out
    | none => true
  let hold := fun (p : Park) (x : State) => ((leaveGang vec g s0 x).focus s.me.key).parkMe (if vec.isSome then .entry else p)
  if waits then bubble s0
  else
    match fetchDecode (enterGang vec g s0) with
    | .stop s1 r b => (leaveGang vec g s0 s1).freezeMe r b none
    | .wait s1 => hold .turn s1
    | .run s1 a b =>
      if spaced s b then hold .turn s1
      else
        match sylOf a, sylOf b with
        | some fa, some fb =>
          match g.members.find? fun k => (s1.strand k).any (·.winFault) with
          | some k =>
            (((leaveGang vec g s0 s1).focus k).setMe fun o => { o with winFault := false }).freezeMe (Raise.of Cause.windowLimit) false none
          | none =>
            match runMembers a b fa fb s1.me g.members (traceGang vec g s0 s1) with
            | .ok s2 => { s2.focus s.me.key with tick := s.tick }
            | .freeze k r bs qa =>
              let s2 := (leaveGang vec g s0 s1).focus k
              match memberOut a fa fb s1.me s2.begin with
              | .freeze s3 _ _ _ => s3.freezeMe r bs qa
              | _ => s2.freezeMe r bs qa
            | .park _ ks => hold .poll (parkMembers a fa fb s1.me ks s1)
        | _, _ => s1

/-- The turn of a gang's leader. -/
def issueGang (g : Gang) (s : State) : State := issueGangFrom none g s

/-- The turn of the issuing strand. A follower whose parked GANG is not complete issues that (01 R40). -/
def issue (s : State) : State :=
  match if s.me.gangReq.isSome then none else s.gangOf s.me with
  | some g => issueGang g s
  | none =>
    match if s.me.pairLead then s.me.pair.bind s.strand else none with
    | some t => issuePair t s
    | none => issueOne s

/-- What a parked bundle waits for has arrived: the strand tries it at its next turn, wherever another agent's turn stands (01 R15,
R17). -/
def State.reissue (s : State) (key : Nat) : State :=
  s.upd key fun o => if o.run = .parked ∧ o.park.retries = true then { o with turn := Nat.min o.turn (alignTurn o.sid (s.tick + 1)) } else o

end Sys2Proof.Machine
end

