-- ==== Sys2Proof/Machine/Pipe.lean ====
section
/-! DEFINITION. Matrix steps start and retire, and with them the bundles that hold them (09 R264-R268, 01 R43, 18 R457). -/

namespace Sys2Proof.Machine

open Sys2Proof

/-! ## The A syllable of a bundle with a step -/

/-- What the held A syllables of some strands do. -/
inductive HeldOut where
  | ok (s : State)
  | freeze (key : Nat) (r : Raise) (qa : Option Q4)
  | park

/-- The strand waits for its step again, after its A syllable. -/
def parkAgain (o x : Strand) : Strand := if x.run = .ready ∨ x.run = .follower then { x with run := o.run, park := o.park } else x

/-- The held A syllable of a strand's bundle acts, as it would have at issue; the trailer of a pair follows (18 R461). -/
def State.runHeldOne (s : State) (key : Nat) : HeldOut :=
  match s.undo.find? fun p => decide (p.key = key) && p.held, s.strand key with
  | some h, some o =>
    match sylOf h.asyl with
    | none => .ok s
    | some fa =>
      let s1 := s.focus key
      match fa (withRegs s1.me h.view) s1 with
      | .freeze _ r qa => .freeze key r qa
      | .park _ _ => .park
      | .ok s2 c =>
        let s3 := (s2.complete o c).upd key (parkAgain o)
        let s4 := { s3 with undo := s3.undo.map fun p => if p.key = key then { p with held := false } else p }
        let s5 := match if o.pairLead then o.pair.bind s.strand else none with
          | some t => s4.upd t.key fun x => match trailerOut h.asyl .vnop fa sylVnop o t s1 with
            | some y => withRegs x y
            | none => x
          | none => s4
        .ok (if s.me.run = .empty then s5 else s5.focus s.me.key)
  | _, _ => .ok s

/-- The same for several strands, in order. -/
def State.runHeld (s : State) : List Nat → HeldOut
  | [] => .ok s
  | k :: t =>
    match s.runHeldOne k with
    | .ok s1 => s1.runHeld t
    | x => x

/-- The A syllables would have to wait. -/
def heldParks (s : State) (keys : List Nat) : Bool :=
  match s.runHeld keys with
  | .park => true
  | _ => false

/-- A bundle whose A syllable fails after all has no effect (05 R142): its gang freezes, or the strand. -/
def State.failHeld (s : State) (key : Nat) (r : Raise) (qa : Option Q4) : State :=
  match (s.strand key).bind s.gangOf with
  | some g => s.freezeGang g key r false qa
  | none => (s.undoStep key).freezeKey key r false qa

/-- The strands whose bundles commit with a step: its own, or its gang's (01 R43). -/
def stepMates (s : State) (key : Nat) : List Nat := ((s.strand key).elim [] (gangMates s)).map (·.key)

/-! ## Start -/

/-- The head of a pipe that can start. The A syllable of its bundle comes before it in program order; in a gang the bundle commits later
(01 R43). -/
def startable (s : State) (core : Nat) : Option MStep :=
  ((s.core core).pipe.head?).bind fun m =>
    if !m.started && staged m && ((stepMates s m.key).length ≠ 1 || !heldParks s [m.key]) then some m else none

/-- A step starts: the decode RAMs are compared and reloaded, and the step takes its snapshot. -/
def State.startStep (s : State) (core : Nat) (m : MStep) (bad : Option Word) : State :=
  let x := { onCore core with fmta := m.fmta, fmtb := m.fmtb }
  let c := s.core core
  let force := fun (on : Bool) (r : Option DecRam) => if on then none else r
  let rams : Option DecRam × Option DecRam := match m.kind with
    | .mmas => if mFmt m.cfg = 0 then (refresh s x m.fmta c.ramA, refresh s x m.fmtb c.ramB) else (c.ramA, c.ramB)
    | .mzero => (c.ramA, c.ramB)
    | .mtab b a =>
      (if a then refresh s x m.fmta (force a c.ramA) else c.ramA, if b then refresh s x m.fmtb (force b c.ramB) else c.ramB)
  let s1 := s.setCore core fun c => { c with ramA := rams.1, ramB := rams.2 }
  let (r, o, n) : List (BitVec 32) × Nat × Nat := match m.kind with
    | .mmas => computeStep s core ((rams.1.map (·.img)).getD []) ((rams.2.map (·.img)).getD []) m
    | .mzero => (List.replicate 1024 0, 0, 0)
    | .mtab _ _ => ([], 0, 0)
  s1.updStep core m.uid fun m => { m with started := true, result := r, ovf := o, nan := n, poison := bad }

/-- Poison that a step consumes (18 R456). -/
def startPoison (s : State) (core : Nat) (m : MStep) : Option Word := if m.kind = .mmas then stepPoison s core m else none

/-- MATRIX_STEP_START (09 R266): outside a gang the A syllable of its bundle acts first, unless the step then consumes poison, which
leaves the bundle without any effect (18 R457). -/
def execMatrixStepStart (core : Nat) (s : State) : Out :=
  match startable s core with
  | none => done s
  | some m =>
    if (stepMates s m.key).length ≠ 1 then done (s.startStep core m (startPoison s core m))
    else
      match s.runHeld [m.key] with
      | .park => done s
      | .freeze k r qa => done (s.failHeld k r qa)
      | .ok s1 =>
        match startPoison s1 core m with
        | some a => done (s.startStep core m (some a))
        | none => done (s1.startStep core m none)

/-! ## Retirement -/

/-- No other strand's reservation stands on a word of the subtile (03 R101; log 50). -/
def subtileFree (s : State) (m : MStep) : Bool :=
  match m.kind with
  | .mtab _ _ => true
  | _ => !s.reservedFrom m.key (.mem m.base) 4096

/-- A started step can retire. In a gang it retires at its members' commit: when the steps of all of them are there, none of them
consumed poison, and the A syllables of their bundles need not wait (01 R43, 09 R268). -/
def retirable (s : State) (m : MStep) : Bool :=
  m.started && (m.poison.isSome || (subtileFree s m && !heldParks s (stepMates s m.key) &&
    match s.strand m.key with
    | none => true
    | some o => (gangMates s o).all fun x =>
        match x.park with
        | .matrix u => (s.core x.core).pipe.any fun y => decide (y.uid = u) && y.started && y.poison.isNone
        | _ => true))

/-- Advance MXCFG.kofs by a step (09 R264). -/
def stepAdv (m : MStep) (o : Strand) : Strand :=
  if m.kind = .mmas ∧ mAdv m.cfg = true then
    { o with mxcfg := BitVec.ofNat 64 ((mKofs m.cfg + mK m.cfg m.c4 / 16) % 2 ^ 16 * 2 ^ 48 + o.mxcfg.toNat % 2 ^ 48) }
  else o

/-- A step that has its bundle's A syllable behind it writes its subtile, counts, advances and gives its place up. -/
def State.retireStep (s : State) (core : Nat) (m : MStep) : State :=
  let s1 := { s with undo := s.undo.filter fun p => !decide (p.key = m.key) }.setCore core fun c =>
    { c with pipe := c.pipe.filter fun x => !decide (x.uid = m.uid) }
  let s2 := match m.kind with
    | .mtab _ _ => s1
    | _ => (putSubtile s1 m.base m.result).noteConds
  let s3 := (stepKeys s m.key).foldl (fun s k => s.upd k fun o => stepAdv m ((o.count 2 m.ovf).count 7 m.nan)) s2
  s3.upd m.key (stepOver s.tick m.uid)

/-- MATRIX_STEP_RETIRE (09 R264, R268). -/
def execMatrixStepRetire (core : Nat) (s : State) : Out :=
  match (s.core core).pipe with
  | [] => done s
  | m :: _ =>
    if !retirable s m then done s
    else
      match m.poison with
      | some a => done ((s.undoStep m.key).freezeAny m.key (Raise.at' Cause.ueConsumed 0 a))
      | none =>
        match s.runHeld (stepMates s m.key) with
        | .park => done s
        | .freeze k r qa => done (s.failHeld k r qa)
        | .ok s1 => done (s1.retireStep core m)

end Sys2Proof.Machine
end

