-- ==== Sys2Proof/Machine/Strands.lean ====
section
/-! DEFINITION. What happens to strands without a syllable: gangs form and commit, notices enter, window groups move,
deliveries and answers arrive, frames are dispatched, umpires are spawned (01, 03, 07, 10, 11). -/

namespace Sys2Proof.Machine

open Sys2Proof

/-! ## Gangs (01 R40, R43) -/

/-- GANG_FORM (01 R40): once the leader's GANG has completed, each follower's parked GANG completes in its own turn and it follows;
one whose bundle must still wait goes on waiting. -/
def execGangForm (leader : Nat) (s : State) : Out :=
  match (s.strand leader).bind s.gangOf with
  | none => done s
  | some g =>
    let r := ((g.members.drop 1).zipIdx 1).foldl (fun (r : State) p =>
      match r.strand p.1 with
      | some o => if o.run = .parked ∧ o.gangReq.isSome then issueOne { r.focus p.1 with tick := s.tick + p.2 } else r
      | none => r) s
    done { r with tick := s.tick }

/-- GANG_COMMIT (01 R42, R43): the leader's next bundle takes effect in every member at once, or in none (log 21). -/
def execGangCommit (leader : Nat) (s : State) : Out :=
  match s.strand leader with
  | none => done s
  | some o =>
    match s.gangOf o with
    | some g => if g.members.head? = some leader then done (issueGang g (s.focus leader)) else done s
    | none => done s

/-! ## Notices (01 R30-R33) -/

/-- The lowest set bit of a number below 32. -/
def lowBit (x : Nat) : Nat := ((List.range 5).find? fun i => bit x i).getD 0

/-- A strand takes a notice at this boundary: ready, notices on and not in one, a source pending, in no gang (01 R30, R32). -/
def noticeDue (o : Strand) : Bool :=
  let x := drainInbox o
  decide (o.run = .ready) && !o.out && !o.ganged && !o.trailer && noticesOn o && !o.nhbusy && decide (enabledSources x ≠ 0)

/-- The trailer of a pair enters with its leader (18 R461). -/
def withTrailer (o : Strand) (f : Strand → Strand) (s : State) : State :=
  match o.pairLead, o.pair with
  | true, some t => (s.upd o.key f).upd t f
  | _, _ => s.upd o.key f

/-- NOTICE_ENTRY (01 R30): the lowest pending enabled source is taken. -/
def execNoticeEntry (key : Nat) (s : State) : Out :=
  match s.strand key with
  | none => done s
  | some o =>
    if noticeDue o then
      let x := drainInbox o
      let src := lowBit (enabledSources x)
      let s1 := (s.upd key drainInbox).traceOf x 4 (nhcause (enterNotice src x.nhvec x))
      done (withTrailer x (enterNotice src x.nhvec) s1)
    else done s

/-- A standing gang takes its leader's notice of q10 (01 R33). -/
def gangNoticeDue (s : State) (o : Strand) : Bool :=
  match s.gangOf o with
  | some g =>
    decide (g.members.head? = some o.key) && (decide (o.run = .ready) || decide (o.park = .entry)) && !o.out && noticesOn o && o.nhmask.getLsbD 4 && !o.nhbusy &&
      !o.q10.isEmpty
  | none => false

/-- GANG_NOTICE_ENTRY (01 R33): every member enters at its own boundary and runs the bundle at the leader's NHVEC; the entry
counts as an effect of that bundle. -/
def execGangNoticeEntry (leader : Nat) (s : State) : Out :=
  match s.strand leader with
  | none => done s
  | some o =>
    match s.gangOf o with
    | none => done s
    | some g =>
      if gangNoticeDue s o then done (issueGangFrom (some o.nhvec) g (s.focus leader)) else done s

/-! ## Stops (18 R469) -/

/-- A strand at its boundary on a stopped core enters Stopped. -/
def State.enterStopped (s : State) (o : Strand) : State := (s.traceOf o 9 0).upd o.key fun o => { o with run := .stopped }

/-- Nothing of the strand is under way: it is at a boundary. -/
def atBoundary (o : Strand) : Bool :=
  !o.out && (decide (o.run = .ready) || decide (o.run = .follower) || (decide (o.run = .parked) && decide (o.park = .steal)))

/-- Whoever stands at a boundary on a stopped core enters Stopped. -/
def State.stopRest (s : State) : State :=
  s.strands.foldl (fun s o => if (s.core o.core).stopped && atBoundary o then s.enterStopped o else s) s

/-! ## Wakes (01 R16, R17) -/

/-- A resident strand whose parked bundle is tested whenever something has happened; a trailer goes with its leader. -/
def wakeable (s : State) (o : Strand) : Bool :=
  !o.out && decide (o.moveEnd ≤ s.tick) && !o.trailer && decide (o.run = .parked) && (decide (o.park = .poll) || decide (o.park = .entry))

/-- A parked bundle as it goes now. -/
def State.tryParked (s : State) (o : Strand) : State :=
  if o.park = .entry then (match execGangNoticeEntry o.key s with
    | .next t => t
    | _ => s)
  else issue (s.focus o.key)

/-- A strand after its parked bundle has been tried: still parked it keeps its turn; woken it is ready in the next cycle, and its next turn
is the one after this bundle (01 R17, 08 R239). -/
def wokenTurn (t : Nat) (o x : Strand) : Strand :=
  if x.run = .parked ∧ x.park = o.park then { x with turn := o.turn }
  else { x with turn := if x.run = .ready then t + 1 else x.turn, fpTurn := if x.fpTurn = o.fpTurn then x.fpTurn else some (alignTurn x.sid (t + 1)) }

/-- The strand's bundle has been tried; on a stopped core it enters Stopped as it completes (18 R469). -/
def State.wakeOf (s : State) (o : Strand) : State :=
  let s1 := (s.tryParked o).upd o.key (wokenTurn s.tick o)
  let s2 := match if o.pairLead then o.pair.bind s.strand else none with
    | some t => s1.upd t.key (wokenTurn s.tick t)
    | none => s1
  s2.stopRest

/-- No strand has changed. -/
def sameStrands (s r : State) : Bool :=
  decide (s.strands.length = r.strands.length) && s.strands.all fun o => r.strands.contains o

/-- What comes of a strand whose parked bundle completes, freezes or gets further now; none where it waits on. -/
def State.woke (s : State) (o : Strand) : Option State :=
  let r := s.wakeOf o
  if wakeable s o && !sameStrands s r then some r else none

/-- The first strand, in the order of handles, that wakes (log 3). -/
def nextWake (s : State) : Option State :=
  ((s.strands.filterMap fun o => (s.woke o).map fun r => (o.key, r)).foldl (fun (b : Option (Nat × State)) p => match b with
    | none => some p
    | some q => if p.1 < q.1 then some p else some q) none).map (·.2)

/-- A swapped strand would be ready: it is not parked, or its bundle would go on if it were back (10 R314). -/
def readyOut (s : State) (o : Strand) : Bool :=
  !decide (o.run = .parked) ||
    (let s1 := s.upd o.key fun x => { x with out := false, moveEnd := 0 }
     ((s1.tryParked { o with out := false, moveEnd := 0 }).strand o.key).all fun x => !decide (x.run = .parked))

/-! ## Register windows (01 R23, R24) -/

/-- A strand whose windows can move in a bubble. -/
def windowsMove (o : Strand) : Bool :=
  !o.out && !o.winFault && (decide (o.run = .ready) || decide (o.run = .parked) || decide (o.run = .follower))

/-- Six groups are resident and the limit lets one go (01 R23, R24). -/
def canSpill (o : Strand) : Bool := windowsMove o && decide (o.res = 6) && spillFits o

/-- Only the current window is resident and a group lies on the stack. -/
def canRefill (o : Strand) : Bool := windowsMove o && decide (o.res = 2) && decide (o.spilled ≠ 0)

/-- The offset in own local memory of a group at an address; none where it does not lie there (01 R24). -/
def groupAt (a : Word) : Option Nat :=
  match regionOf a with
  | .inr (.mine off) => if off + 64 ≤ 2 ^ 17 then some off else none
  | _ => none

/-- A group's bytes, its first register lowest. -/
def groupBytes (g : Vector Word 8) : List Byte := g.toList.flatMap fun w => natLE 8 w.toNat

/-- The oldest resident group leaves the file. -/
def spilledOne (o : Strand) : Strand :=
  { o with wsp := o.wsp + 64, older := o.older.dropLast, spilled := o.spilled + 1 }

/-- A window group moves in a bubble of its core, one in each (01 R23). -/
def State.useBubble (s : State) (core : Nat) : State := s.setCore core fun c => { c with bubble := s.tick + 1 }

/-- WINDOW_SPILL (01 R23, R24): a spill outside own local memory is not made and freezes the next bundle. -/
def execWindowSpill (key : Nat) (s : State) : Out :=
  match s.strand key with
  | none => done s
  | some o =>
    if canSpill o then
      match groupAt o.wsp, o.older.getLast? with
      | some off, some g => done (withTrailer o spilledOne ((s.put (.mem (lkey o.core off)) (groupBytes g)).useBubble o.core))
      | _, _ => done ((s.upd key fun o => { o with winFault := true }).useBubble o.core)
    else done s

/-- A group enters the file below the current window. -/
def refilledOne (g : Vector Word 8) (o : Strand) : Strand :=
  { o with wsp := o.wsp - 64, older := o.older ++ [g], spilled := o.spilled - 1 }

/-- WINDOW_REFILL (01 R23, R24). A poisoned group freezes the strand (18 R456; log 44). -/
def execWindowRefill (key : Nat) (s : State) : Out :=
  match s.strand key with
  | none => done s
  | some o =>
    if canRefill o then
      match groupAt (o.wsp - 64) with
      | some off =>
        match s.framePoison true (lkey o.core off) with
        | some r => done ((s.freezeAny key r).useBubble o.core)
        | none => done (withTrailer o (refilledOne (frameAt s (lkey o.core off))) (s.useBubble o.core))
      | none => done ((s.upd key fun o => { o with winFault := true }).useBubble o.core)
    else done s

/-! ## Answers from outside the core -/

/-- REMOTE_ACCESS_COMPLETE (07 R199, 03 R108): an access that left the package is acknowledged, and a parked bundle that waits
for it goes on. -/
def execRemoteAccessComplete (key : Nat) (s : State) : Out :=
  done ((s.upd key fun o => { o with acks := o.acks - 1 }).reissue key)

/-- HOME_ANSWER (07 R212): the parked request is answered, so its bundle completes or freezes as the strand wakes (01 R17). -/
def execHomeAnswer (key : Nat) (s : State) : Out := done (s.reissue key)

/-- RELEASE_QUERY_ANSWER (03 R108): every target's arrivals match, so the round ends. -/
def execReleaseQueryAnswer (key : Nat) (s : State) : Out :=
  match s.strand key with
  | none => done s
  | some o =>
    match o.query with
    | some q =>
      if !q.answered && queryHolds s o q.dieOnly then
        done (((s.freeRound key o.round).upd key fun x => nextRound { x with query := some { q with answered := true } }).reissue key)
      else done s
    | none => done s

/-- COUNTED_MESSAGE_RESEND (03 R109): sent again to its target, in its own round; it counts once, when the target has room. -/
def execCountedMessageResend (key slice : Nat) (s : State) : Out :=
  match s.homes.resend.find? fun r => decide (r.1 = key) && decide (r.2.1 = slice) with
  | none => done s
  | some r =>
    match s.arrive slice key r.2.2 with
    | some s1 => done (s1.setHomes fun h => { h with resend := h.resend.erase r })
    | none => done s

/-- ENQUEUE_RESEND (07 R219): the parked enqueue is tried again. -/
def execEnqueueResend (key : Nat) (s : State) : Out := done (s.reissue key)

/-- The core whose bank holds an address, and the key of a route to it or to its home slice (07 R215, 17 R439). -/
def handWay (s : State) (addr : Nat) : Nat × Nat :=
  if 2 ^ 60 ≤ addr then
    let c := (addr - 2 ^ 60) / 2 ^ 17
    if c < 2568 then (dieOf c, coreKey c ((addr - 2 ^ 60) % 2 ^ 17)) else (4, addr % 2 ^ 44 / 4096)
  else (dieOfSlice (s.sliceOf addr), addr / 4096)

/-- The head of a queue that has still to be handed the word, and to whom the word can travel now (07 R217, 17 R443). -/
def handDue (s : State) (r : RQueue) : Option RWait :=
  match r.q with
  | [] => none
  | x :: _ =>
    let w := handWay s r.loc
    if x.held || x.word.isSome then none
    else if (s.strand x.key).all fun o => s.wayOpen w.1 (dieOf o.core) w.2 (.mem r.loc) then some x else none

/-- RESERVATION_HANDOFF (07 R217): the reservation and its word arrive at the strand that heads the queue, which keeps both whether or
not it is resident (01 R47); a module that is held keeps them back (17 R443). -/
def execReservationHandoff (addr : Nat) (s : State) : Out :=
  match handDue s (s.rqueue addr) with
  | some x =>
    let s1 := if paExists addr then s.request ((s.strand x.key).elim 0 fun o => cacheOf o.core) addr .atomic else s
    let w := BitVec.ofNat 64 (s1.loadNat (.mem addr) (wBytes x.w32))
    done ((s1.setRqueue { s1.rqueue addr with q := { x with word := some w } :: (s1.rqueue addr).q.drop 1 }).reissue x.key)
  | none => done s

/-- SEQUENCE_COUNTER_INCREMENT (02 R91, R92): the counter grows; whatever waits on it is tested at its turn. -/
def execSequenceCounterIncrement (file : SqFile) (idx inc : BitVec 8) (s : State) : Out :=
  done (s.seqAdd file idx inc.toNat)

/-! ## Words on the mesh and drop notices (10 R290, R294; 01 R26, R27) -/

/-- MESH_WORD_ARRIVAL (10 R290): the oldest outbound word enters the facing strand's channel, waits while that is full, or is
discarded where no strand of the context belongs to the slot (01 R26). -/
def execMeshWordArrival (src : Nat) (q : Q4) (s : State) : Out :=
  match s.strand src with
  | none => done s
  | some o =>
    match o.qout.getD q.toNat [] with
    | [] => done s
    | w :: t =>
      let sent := fun (s : State) => s.upd src fun x => { x with qout := x.qout.setIfInBounds q.toNat t }
      match (facing o.core q.toNat).bind fun c => s.slotStrand (c * 8 + slotOf o.sid) o.ctx with
      | none => done ((sent s).later (.dropNotice src q))
      | some f =>
        if !s.meshOpen o.core f.core then done s
        else
        let (took, s1) := s.deliver f.key (oppositeQ q.toNat) w src
        if took then done (sent s1) else done s

/-- DROP_NOTICE (10 R294, 01 R26): a lost word is counted at its sender. -/
def execDropNotice (src : Nat) (q : Q4) (s : State) : Out := done (s.upd src (addLost q.toNat 1))

/-- A notice can travel from the home of its name to the strand's core (17 R443). -/
def noticeOpen (s : State) (key : Nat) (x : Word) : Bool :=
  (s.strand key).all fun o => s.noticeWay (s.spaceOf o.ctx (x.toNat / 2 ^ 32)) (x.toNat / 2 ^ 32) key

/-- ARRIVAL_NOTICE (02 R81, 01 R27): the notice enters q8, or is discarded and counted there; it waits in the network behind earlier
ones of the strand that a full inbox or a held module keeps there (11 R333, 17 R443). -/
def execArrivalNotice (key : Nat) (x : BitVec 64) (s : State) : Out :=
  let held := s.homes.notices.find? fun p => decide (p.1 = key)
  let wait := s.setHomes fun h => { h with notices := h.notices ++ [(key, x)] }
  if !noticeOpen s key x then done (if held.any fun p => decide (p.2 = x) then s else wait)
  else
  match held with
  | some p =>
    if p.2 = x then
      let (took, s1) := (s.setHomes fun h => { h with notices := h.notices.erase p }).deliver key 8 x 0
      done (if took then s1 else s)
    else done wait
  | none =>
    let (took, s1) := s.deliver key 8 x 0
    done (if took then s1 else wait)

/-! ## Tasks (10 R300, R303) -/

/-- TASK_DISPATCH (10 R303). -/
def execTaskDispatch (uid : Nat) (s : State) : Out := done (s.dispatchFrame uid)

/-- DISPATCH_RETRY (10 R303): a frame that found no room is pushed again. -/
def execDispatchRetry (uid : Nat) (s : State) : Out := done (s.dispatchFrame uid)

/-- Length of a steal round: within the bounds of 12 R356 (log 12). -/
def roundCycles : Nat := 1024

/-- Resume a frame, the trailer of a pair with its leader (18 R461). -/
def resumeBoth (o : Strand) (f : Frame) (s : State) : State :=
  match o.pairLead, o.pair with
  | true, some t => (resumeFrame f s).upd t fun x => settle s.tick (restoreFrame f x)
  | _, _ => resumeFrame f s

/-- One round: the strand's own deque, then the other cores of the launch (10 R300). A poisoned frame freezes the strand (18 R456); a bank behind a
held module is not reached (17 R443). -/
def stealOnce (o : Strand) (s : State) : State :=
  match (dequeOf o).bind fun d => s.popPoison d.1 d.2 with
  | some r => s.freezeKey o.key r false none
  | none =>
  let again := fun (s : State) => s.setMe fun x => { x with turn := s.tick + roundCycles }
  let own : Option Frame × State := match dequeOf o with
    | some (k, m) => s.popFrame k m
    | none => (none, s)
  match own with
  | (some f, s1) => resumeBoth o f s1
  | (none, s1) =>
    let vs := s1.stealOrder (o.launch.getD 0)
    if stealWaits s1 o.core (o.launch.getD 0) vs then again s1
    else
      match stealPoison s1 (o.launch.getD 0) vs with
      | some r => s1.freezeKey o.key r false none
      | none =>
        match s1.stealAny (o.launch.getD 0) with
        | some (f, s2) => resumeBoth o f s2
        | none => again { s1 with free := s1.free + 1 }

/-- STEAL_ROUND (10 R300). -/
def execStealRound (key : Nat) (s : State) : Out :=
  match s.strand key with
  | none => done s
  | some o =>
    if o.run = .parked ∧ o.park = .steal ∧ o.out = false then done (stealOnce o (s.focus key)) else done s

/-! ## Umpires (11 R317, R319) -/

/-- UMPIRE_SPAWN (11 R317): for a strand that is frozen, or has a deferred store. -/
def execUmpireSpawn (key : Nat) (s : State) : Out :=
  match s.strand key with
  | none => done s
  | some o => if o.isFrozen || o.attached then done (s.spawnUmpire key) else done s

/-- UMPIRE_POOL_TIMEOUT (11 R319): the strand leaves the FIFO and goes to firmware with reason 2. -/
def execUmpirePoolTimeout (key : Nat) (s : State) : Out :=
  match s.strand key with
  | none => done s
  | some o =>
    if (s.pool (poolOf o.core)).pend.contains key then
      let s1 := (s.setPool (poolOf o.core) fun p => { p with pend := p.pend.erase key }).upd key fun o =>
        { o with run := if o.run = .frozenPending then .frozen else o.run }
      done (s1.escalate { o with run := .frozen } 2)
    else done s

/-! ## Decoding and fetching (05 R146, 06 R188) -/

/-- ILLEGAL_OPCODE (05 R145, R146): the bundle is issued and freezes with the first cause that decoding finds. -/
def execIllegalOpcode (cause : BitVec 9) (bsyl : Bool) (s : State) : Out := done (s.begin.freezeMe (Raise.of cause) bsyl none)

/-- FETCH_LINE_REFILL (06 R188): the core drops its fetch line at a moment of its own choosing; the next fetch reads memory. -/
def execFetchLineRefill (core : Nat) (s : State) : Out := done (s.setCore core fun c => { c with line := none })

end Sys2Proof.Machine
end

