-- ==== Sys2Proof/Machine/Scheduler.lean ====
section
/-! DEFINITION. The dispatcher: acceptance from rings, ageing and waits, placing crews, strands and tasks, pre-emption, swaps
and restores, lending, and the end of a launch (12 R345-R371; 01 R19, R47). -/

namespace Sys2Proof.Machine

open Sys2Proof

/-! ## Stores of the dispatcher -/

/-- No cluster: an agent that keeps no copies. -/
def outsider : Nat := 200

/-- A store by the dispatcher or an agent outside the cores: at the home, its bytes at system scope (02 R60). -/
def State.putAt (s : State) (l : Loc) (bs : List Byte) : State :=
  match l with
  | .mem k => ((if paExists k then s.request outsider k .storeNc else s)).put l bs
  | .tile _ _ => s.put l bs

/-- Add 1 to a counter word at its home, after the merge of what updates it holds (02 R66). -/
def State.bump (s : State) (l : Loc) : State :=
  let s1 := match l with
    | .mem k => if paExists k then s.request outsider k .atomic else s
    | .tile _ _ => s
  s1.putNat l 8 ((s1.loadNat l 8 + 1) % 2 ^ 64)

/-- The completion of a record cannot be written yet. -/
def completionHeld (s : State) (ctx : Nat) (r : Vector Word 16) : Bool :=
  userHeld s ctx (r.getD 10 0) || userHeld s ctx (r.getD 11 0)

/-- The completion record and counter of a record (12 R358, R359), its black-box record (18 R465) and the event of a record that
asks for neither (16 R402); addresses that are misaligned or not mapped are left alone (log 25). -/
def State.writeCompletion (s : State) (ctx : Nat) (r : Vector Word 16) (start : Option Nat) (status reason disc : Nat) : State :=
  let d := r.getD 10 0
  let c := r.getD 11 0
  let bs := natLE 8 (start.getD 0) ++ natLE 8 s.tick ++ natLE 1 status ++ natLE 1 reason ++ natLE 2 0 ++
    natLE 4 (Nat.min 0xFFFFFFFF disc) ++ natLE 7 (r.getD 15 0).toNat ++ natLE 1 0
  let s0 := if status = 0 then s
    else
      let tag := BitVec.ofNat 64 ((r.getD 15 0).toNat % 2 ^ 56)
      let b := s.blackBox 4 6 status (rQueue r) ctx tag
      if d = 0 ∧ c = 0 then b.event 7 tag (BitVec.ofNat 64 status) ctx else b
  let s1 := if d = 0 ∨ d.toNat % 32 ≠ 0 then s0
    else match userPlace s0 ctx true d with
      | some l => s0.putAt l bs
      | none => s0.noteBad ctx d.toNat
  if c = 0 ∨ c.toNat % 8 ≠ 0 then s1
  else match userPlace s1 ctx true c with
    | some l => s1.bump l
    | none => s1.noteBad ctx c.toNat

/-! ## Acceptance, ageing and waits (12 R345-R349) -/

/-- The address of a ring's slot in companion memory. -/
def ringSlot (base m cons : Nat) : Nat := ckey (base + 64 + 128 * (cons % 2 ^ m))

/-- The next slot of a ring is sealed: v set, the parity of its lap (12 R346). -/
def sealed (s : State) (q : LQueue) : Bool :=
  match q.ring with
  | none => false
  | some (base, m) =>
    let b := (mget s.mem (ringSlot base m q.cons + 127)).toNat
    decide (128 ≤ b) && decide (b % 2 = q.cons / 2 ^ m % 2)

/-- The record in the next slot of a ring; of its seal byte, v and p have done their service. -/
def ringRecord (s : State) (q : LQueue) (base m : Nat) : Vector Word 16 :=
  maskSeal 0x7E (recordOf (s.bytes (.mem (ringSlot base m q.cons)) 128))

/-- A port to the companion is up. -/
def State.igUp (s : State) : Bool := decide ((s.links.getD 112 Link.up).st = 2) || decide ((s.links.getD 113 Link.up).st = 2)

/-- A ring has a record that can be accepted now. -/
def sealDue (s : State) (c : Ctx) (q : LQueue) : Bool :=
  sealed s q && s.igUp && !c.dying && decide (s.acceptedCount c.id q.id < 64) &&
    !(q.ring.any fun x => completionHeld s c.id (ringRecord s q x.1 x.2))

/-- Advance a ring: cons is counted and stored in its header (12 R345). -/
def State.advanceRing (s : State) (ctx : Nat) (q : LQueue) (base : Nat) : State :=
  (s.updCtx ctx fun c => { c with queues := c.queues.map fun x => if x.id = q.id then { x with cons := x.cons + 1 } else x }).put
    (.mem (ckey base)) (natLE 8 (q.cons + 1))

/-- LAUNCH_RECORD_SEAL (12 R346): the sealed slot is read whole and accepted, or refused with its reason (12 R343). -/
def execLaunchRecordSeal (ctx queue : Nat) (s : State) : Out :=
  match s.ctxOf ctx, s.queueOf ctx queue with
  | some c, some q =>
    match q.ring with
    | none => done s
    | some (base, m) =>
      if sealDue s c q then
        let r := ringRecord s q base m
        let s1 := (s.advanceRing ctx q base).noteWalks ctx r
        let s2 := match refuseReason s1 ctx (some queue) r with
          | some n => s1.writeCompletion ctx r none 1 n 0
          | none => s1.acceptLaunch ctx (maskSeal 0 r) none
        done (match (s2.ctxOf ctx), s2.queueOf ctx queue with
          | some c2, some q2 => if sealDue s2 c2 q2 then s2.later (.launchRecordSeal ctx queue) else s2
          | _, _ => s2)
      else done s
  | _, _ => done s

/-- The effective class of a record (12 R348): 360,000 cycles are 100 us. -/
def agedClass (s : State) (l : Launch) : Nat :=
  let c := rClass l.rcd
  if c = 7 then 7 else Nat.min 6 (c + (s.tick - l.accepted) / 360000)

/-- CLASS_AGEING (12 R348). -/
def execClassAgeing (uid : Nat) (s : State) : Out :=
  match s.launch uid with
  | some l => if l.st = .accepted then done (s.updLaunch uid fun l => { l with effClass := agedClass s l }) else done s
  | none => done s

/-- The wait of an accepted record has held, now or since its acceptance, and the dispatcher has not taken it up yet. -/
def waitOver (s : State) (l : Launch) : Bool := decide (l.st = .accepted) && !l.waitHeld && (l.met || launchWait s l)

/-- LAUNCH_WAIT_HOLDS (12 R349): it holds once it has held. -/
def execLaunchWaitHolds (uid : Nat) (s : State) : Out :=
  match s.launch uid with
  | some l =>
    if waitOver s l then
      done (s.updLaunch uid fun l => { l with waitHeld := true, ready := some s.tick })
    else done s
  | none => done s

/-! ## What a core can take (12 R350-R352) -/

/-- Slots a launch's strands take on a core, with their areas: base and size in KiB (12 R340). -/
def areaOf (r : Vector Word 16) (slot : Nat) : Nat × Nat := (rBase r + slot * rStride r, rStride r)

/-- Two areas of a local memory do not overlap. -/
def apart (a b : Nat × Nat) : Bool := decide (b.1 + b.2 ≤ a.1) || decide (a.1 + a.2 ≤ b.1)

/-- The KiB units of an area are free on a core. -/
def areaFree (c : CoreRec) (a : Nat × Nat) : Bool := c.areas.all fun x => apart a x.2

/-- The areas of a context on a core that stand in backing memory (12 R365, R367). -/
def savedFor (s : State) (core ctx : Nat) : List SavedArea :=
  s.sched.saved.filter fun a => decide (a.core = core) && (s.launch a.launch).any fun l => decide (l.ctx = ctx)

/-- The units of an area are free for a context, which gets its saved areas back with the core (12 R350, R368). -/
def areaOpen (s : State) (core ctx : Nat) (a : Nat × Nat) : Bool :=
  ((savedFor s core ctx).all fun x => apart a (x.base, x.size)) &&
    (decide ((s.core core).owner ≠ some ctx) || areaFree (s.core core) a)

/-- The memory of a core belongs to a context, or is clean (12 R351). -/
def memoryFor (c : CoreRec) (ctx : Nat) : Bool :=
  c.zeroing.isNone && c.wback.isNone && (decide (c.owner = some ctx) || c.clean)

/-- A slot is Empty: no strand is in it or still moving out of it (01 R16). -/
def slotFree (s : State) (core slot : Nat) : Bool :=
  !(s.strands.any fun o => decide (o.sid = core * 8 + slot) && !decide (o.run = .empty) && (!o.out || decide (s.tick < o.moveEnd)))

/-- Cycles that a context takes to the thread-context cache or from it: the bound of 01 R47 (log 34). -/
def swapCycles : Nat := 48

/-- Cores of the reserved rectangle (12 R352, R371). -/
def reservedCores (s : State) : List Nat :=
  match s.sched.rsv with
  | none => []
  | some _ =>
    let w := s.sched.rsvWord.toNat
    (List.range (fld w 32 8)).flatMap fun i => (List.range (fld w 24 8)).map fun j =>
      coreAt (fld w 48 4) (fld w 8 8 + i) (fld w 0 8 + j)

/-- A core reserved for another record, or stopped for debug, takes nothing new (12 R352, 18 R469). -/
def closedFor (s : State) (uid core : Nat) : Bool :=
  (s.core core).stopped || (decide (s.sched.rsv ≠ some uid) && (reservedCores s).contains core)

/-- The launch runs paired; that is fixed at its placement (18 R460). -/
def isPaired (s : State) (l : Launch) : Bool := if l.st = .accepted then rPair l.rcd || (s.ctxOf l.ctx).any (·.pairing) else l.paired

/-- The dispatcher places and restores nothing: SCHCTL.hold, which a checkpoint sets too (12 R371, 18 R476). -/
def placingHeld (s : State) : Bool := s.sched.hold

/-- Slots of a number's set bits below 8. -/
def slotsOf (x : Nat) : List Nat := (List.range 8).filter fun i => bit x i

/-- Empty slots 0-6 outside a set, lowest first, for trailers. -/
def trailerSlots (s : State) (core : Nat) (used : List Nat) : List Nat :=
  (List.range 7).filter fun i => !used.contains i && slotFree s core i

/-- A core can take strands in some slots. -/
def coreTakes (s : State) (l : Launch) (core : Nat) (slots : List Nat) : Bool :=
  let c := s.core core
  !closedFor s l.uid core && memoryFor c l.ctx && (slots.all fun i => slotFree s core i && areaOpen s core l.ctx (areaOf l.rcd i)) &&
    (!isPaired s l || decide (2304 ≤ core) || decide (slots.length ≤ (trailerSlots s core slots).length))

/-- A rectangle: die, origin row and column. -/
abbrev Rect := Nat × Nat × Nat

/-- Cores of a rectangle of a launch's crew, in row order. -/
def rectCores (r : Vector Word 16) (x : Rect) : List Nat :=
  (List.range (rH r)).flatMap fun i => (List.range (rW r)).map fun j => coreAt x.1 (x.2.1 + i) (x.2.2 + j)

/-- Rectangles of a launch's crew on some dies in first-fit order (12 R350). -/
def rects (r : Vector Word 16) (dies : List Nat) : List Rect :=
  dies.flatMap fun d => (List.range 24).flatMap fun y => (List.range 24).filterMap fun x =>
    if (rOy r = 255 ∨ rOy r = y) ∧ (rOx r = 255 ∨ rOx r = x) ∧ y + rH r ≤ 24 ∧ x + rW r ≤ 24 then some (d, y, x) else none

/-- The first rectangle that fits. -/
def firstFit (s : State) (l : Launch) (dies : List Nat) : Option Rect :=
  (rects l.rcd dies).find? fun x => (rectCores l.rcd x).all fun c => coreTakes s l c (slotsOf (rSlots l.rcd))

/-! ## Creating strands (12 R353, R355, R357) -/

/-- A strand of a launch in a slot, with the words of R340. -/
def strandFor (s : State) (l : Launch) (key core slot : Nat) : Strand :=
  let r := l.rcd
  let area : Word := 0x00FD000000000000 + BitVec.ofNat 64 (1024 * (areaOf r slot).1)
  let dq := area + BitVec.ofNat 64 (256 * rWsz r)
  { Strand.blank with
    key := key
    sid := core * 8 + slot
    ctx := l.ctx
    launch := some l.uid
    run := .ready
    turn := alignTurn (core * 8 + slot) (s.tick + 1)
    wsp := area
    wlim := dq
    dqbase := dq
    dqmask := BitVec.ofNat 64 (rSe r * 2 ^ 15 + rDqm r) }

/-- Three argument registers. -/
def withArgs (a b c : Word) (o : Strand) : Strand :=
  { o with lo := ((o.lo.setIfInBounds 11 a).setIfInBounds 12 b).setIfInBounds 13 c }

/-- The core's local memory is the context's: its areas come back from backing memory (12 R351, R367, R368). -/
def State.claim (s : State) (core ctx : Nat) : State :=
  let mine := savedFor s core ctx
  let s1 := mine.foldl (fun s a =>
    let s1 := a.bytes.foldl (fun s b => s.put (.mem (lkey core b.1)) [b.2]) s
    { s1 with poison := (a.bad.map fun g => lkey core (8 * g) / 8) ++ s1.poison }) s
  (s1.setCore core fun c =>
    { c with owner := some ctx, clean := false,
             areas := (mine.map fun a => (a.launch, a.base, a.size)) ++ (if c.owner = some ctx then c.areas else []) }).setSched fun d =>
      { d with saved := d.saved.filter fun a => !mine.contains a }

/-- Add a strand: the memory is the context's, its area is taken, the deque's indexes start at 0 (10 R296). The strand starts with an
acquire on the launch's wait, if there is one (12 R349). -/
def State.create (s : State) (l : Launch) (o : Strand) : State :=
  let a := areaOf l.rcd (slotOf o.sid)
  let s1 := ((s.claim o.core l.ctx).addStrand o).setCore o.core fun c => { c with areas := (l.uid, a.1, a.2) :: c.areas }
  let s2 := match dequeOf o with
    | some (k, _) => s1.put (.mem k) (natLE 16 0)
    | none => s1
  if rWkind l.rcd = 0 then s2 else s2.asStrand o.key fun s => s.acquire .sys

/-- Add a strand, with its trailer where the launch runs paired (18 R460). -/
def State.createBoth (s : State) (l : Launch) (o : Strand) (used : List Nat) : State :=
  if isPaired s l && decide (o.core < 2304) then
    match (trailerSlots s o.core used).head? with
    | some t =>
      let (u, s1) := s.fresh
      (s1.create l { o with pair := some u, pairLead := true }).addStrand
        { o with key := u, sid := o.core * 8 + t, pair := some o.key, pairLead := false, crew := none, crewpos := 0, borrower := false }
    | none => s.create l o
  else s.create l o

/-- Place one crew on a rectangle (12 R353). -/
def State.placeCrew (s : State) (l : Launch) (index : Nat) (x : Rect) : State :=
  let r := l.rcd
  let slots := slotsOf (rSlots r)
  let (cu, s0) := s.fresh
  let cores := rectCores r x
  let crew : Crew :=
    { uid := cu, launch := l.uid, index := index, die := x.1, ox := x.2.2, oy := x.2.1, w := rW r, h := rH r,
      slots := BitVec.ofNat 8 (rSlots r), p := false, c := cores.length * slots.length, acur := 0, anxt := 0, scur := noSums,
      snxt := noSums, poison := rBpol r, poisoned := false, gone := [], sq := Vector.replicate 256 0 }
  let s1 := s0.setSched fun d => { d with crews := d.crews ++ [crew] }
  cores.foldl (fun s c => slots.foldl (fun s i =>
    let (u, s2) := s.fresh
    let pos := rSlots r * 2 ^ 40 + rH r * 2 ^ 32 + rW r * 2 ^ 24 + (rowOf c - x.2.1) * 2 ^ 16 + (colOf c - x.2.2) * 2 ^ 8
    let o := withArgs (r.getD 1 0) (r.getD 2 0) (r.getD 3 0) (strandFor s2 l u c i)
    s2.createBoth l { o with pc := r.getD 0 0, crew := some cu, crewpos := BitVec.ofNat 64 pos } slots) s) s1

/-- Place the crews of a launch, one after another (12 R350); none if one finds no rectangle. -/
def State.placeCrews (s : State) (l : Launch) (dies : List Nat) : List Nat → Option State
  | [] => some s
  | i :: t =>
    match firstFit s l dies with
    | some x => (s.placeCrew l i x).placeCrews l dies t
    | none => none

/-- With spread, crew c goes on the c-th die that can take one. -/
def State.placeSpread (s : State) (l : Launch) (dies : List Nat) : Option State :=
  let fits := dies.filterMap fun d => firstFit s l [d]
  if fits.length < rCount l.rcd then none
  else some (((fits.take (rCount l.rcd)).zipIdx).foldl (fun s x => s.placeCrew l x.2 x.1) s)

/-- A backfill strand: it starts in the steal loop (12 R355). -/
def backfillFor (s : State) (l : Launch) (key core slot : Nat) : Strand :=
  let o := withArgs (l.rcd.getD 1 0) (l.rcd.getD 2 0) (l.rcd.getD 3 0) (strandFor s l key core slot)
  { o with run := .parked, park := .steal, dqmask := BitVec.ofNat 64 (2 ^ 15 + rDqm l.rcd) }

/-- The first place for a backfill strand: ascending core, then slot 0-6. -/
def backfillPlace (s : State) (l : Launch) (dies : List Nat) : Option (Nat × Nat) :=
  (dies.flatMap fun d => (List.range 576).map fun i => d * 576 + i).findSome? fun c =>
    (List.range 7).findSome? fun i => if coreTakes s l c [i] then some (c, i) else none

/-- Create a backfill strand. -/
def State.backfill (s : State) (l : Launch) (dies : List Nat) : Option State :=
  (backfillPlace s l dies).map fun p =>
    let (u, s1) := s.fresh
    s1.createBoth l (backfillFor s1 l u p.1 p.2) [p.2]

/-- Physical pages of a pipeline region. -/
def regionPages (s : State) (l : Launch) : List Nat :=
  (List.range (rPages l.rcd)).filterMap fun i =>
    match translate s l.ctx ((l.rcd.getD 12 0).toNat + i * 65536) with
    | .leaf x => if x.pa / 65536 ≤ 7812351 then some (x.pa / 65536) else none
    | .bad _ _ => none

/-- Place the cox strands of a pipeline launch (12 R357). -/
def State.placeCox (s : State) (l : Launch) : Option State :=
  let pages := regionPages s l
  let slots := slotsOf (rCslots l.rcd)
  let cores := (List.range 256).filter fun i => pages.any fun f => decide (f % 256 = i)
  cores.foldl (fun (x : Option State) i => x.bind fun s =>
    let core := 2304 + i
    if coreTakes s l core slots then
      some (slots.foldl (fun s k =>
        let (u, s1) := s.fresh
        let o := withArgs (l.rcd.getD 12 0) (BitVec.ofNat 64 (rPages l.rcd))
          (BitVec.ofNat 64 (pages.filter fun f => decide (f % 256 = i)).length) (strandFor s1 l u core k)
        s1.create l { o with pc := l.rcd.getD 13 0 }) s)
    else none) (some s)

/-- Everything that is placed at the start of a launch, on some dies (12 R350). -/
def State.placeAll (s : State) (l : Launch) (dies : List Nat) : Option State :=
  let r := l.rcd
  if isPaired s l && decide (3 < (slotsOf (rSlots r)).length) then none
  else
    let a := if rSlots r = 0 then some s
      else if rSpread r then s.placeSpread l dies else s.placeCrews l dies (List.range (rCount r))
    let b := a.bind fun s => if rKind r = 1 then s.placeCox l else some s
    b.bind fun s => if rSlots r = 0 ∧ rKind r = 0 then s.backfill l dies else some s

/-- Strands of a launch in ascending strand id, without trailers. -/
def launchStrands (s : State) (uid : Nat) : List Strand :=
  (s.strands.filter fun o => decide (o.launch = some uid) && !decide (o.run = .empty) && !o.trailer && o.ump.isNone).foldl
    (fun l o => (l.filter fun x => decide (x.sid < o.sid)) ++ [o] ++ l.filter fun x => decide (o.sid < x.sid)) []

/-- Addresses of the seed frames of a record. -/
def seedAddrs (l : Launch) : List Word := (List.range (rNseed l.rcd)).map fun i => l.rcd.getD 4 0 + BitVec.ofNat 64 (64 * i)

/-- The seed frames of a record, read at placement as coherent loads that merge what updates they meet (12 R355, 02 R66); none where a
page fails. -/
def seedFrames (s : State) (l : Launch) : Option (List Frame × State) :=
  (seedAddrs l).foldl (fun (x : Option (List Frame × State)) va => x.bind fun p =>
    (userPlace p.2 l.ctx false va).map fun at' =>
      let s1 := match at' with
        | .mem k => if paExists k then p.2.request outsider k .loadSi else p.2
        | .tile _ _ => p.2
      (p.1 ++ [frameFrom (s1.bytes at' 64)], s1)) (some ([], s))

/-- Push the seed frames, frame i to strand i mod n; none when R355 does not allow them. -/
def State.pushSeeds (s0 : State) (l : Launch) : Option State :=
  match seedFrames s0 l with
  | none => none
  | some (fs, s) =>
    let os := launchStrands s l.uid
    if fs.isEmpty then some s
    else if fs.any (fun f => decide (frameKind f ≠ 1)) || os.isEmpty || decide (os.length * (rDqm l.rcd + 1) < fs.length) then none
    else (fs.zipIdx).foldl (fun (x : Option State) p => x.bind fun s =>
      (os[p.2 % os.length]?).bind fun o => s.pushFrame o p.1 l.uid) (some s)

/-- The home cluster of a placed launch (12 R354). -/
def launchHome (s : State) (uid : Nat) : Nat :=
  match s.sched.crews.find? fun c => decide (c.launch = uid) && decide (c.index = 0) with
  | some c => clusterOf (coreAt c.die c.oy c.ox)
  | none =>
    match launchStrands s uid with
    | o :: _ => if o.core < 2304 then clusterOf o.core else dieOf o.core * 36
    | [] => 0

/-- The queue of a launch is in partition replay (18 R473). -/
def replayOn (s : State) (l : Launch) : Bool := (s.queueOf l.ctx l.queue).any fun q => decide (0 < q.replayWin)

/-- What a try to place a record gives. -/
inductive Placing where
  | placed (s : State)
  | no
  | badSeeds

/-- The launch stands. -/
def State.standing (s : State) (uid : Nat) : State :=
  (s.updLaunch uid fun l => { l with st := .placed, home := launchHome s uid, paired := isPaired s l }).setSched fun d => { d with lastPlaced := uid }

/-- Place a record whole, twice in partition replay. -/
def State.tryPlace (s : State) (l : Launch) : Placing :=
  if replayOn s l then
    let (u, s0) := s.fresh
    let la := { l with partner := some u }
    let lb := { l with uid := u, partner := some l.uid, copyB := true }
    let s1 := s0.setSched fun d => { d with launches := (d.launches.map fun x => if x.uid = l.uid then la else x) ++ [lb] }
    match (s1.placeAll la [0, 1]).bind fun s => s.placeAll lb [2, 3] with
    | none => .no
    | some s2 =>
      match (s2.pushSeeds la).bind fun s => s.pushSeeds lb with
      | none => .badSeeds
      | some s3 => .placed ((s3.standing u).standing l.uid)
  else
    match s.placeAll l (allowedDies l.rcd) with
    | none => .no
    | some s1 =>
      match s1.pushSeeds l with
      | none => .badSeeds
      | some s2 => .placed (s2.standing l.uid)

/-- The package with nothing on it: what could a record ever take (12 R350 UNPLACEABLE). -/
def emptied (s : State) : State :=
  { s with me := Strand.blank, others := [], cores := [] }.setSched fun d => { d with rsv := none, crews := [], saved := [] }

/-- A record that does not fit even when its dies are empty. -/
def unplaceable (s : State) (l : Launch) : Bool :=
  match (emptied s).tryPlace l with
  | .no => true
  | _ => false

/-- A record leaves unplaced with a status: its completion is written (12 R360). -/
def State.dropRecord (s : State) (l : Launch) (status reason : Nat) : State :=
  ((s.setSched fun d =>
    { d with launches := d.launches.filter fun x => !decide (x.uid = l.uid), chosen := d.chosen.filter fun p => !decide (p.1 = l.uid),
             rsv := if d.rsv = some l.uid then none else d.rsv, rsvWord := if d.rsv = some l.uid then 0 else d.rsvWord })).writeCompletion
    l.ctx l.rcd none status reason 0

/-! ## Swaps (01 R47; 12 R363-R368) -/

/-- The state of an outcome that is always next. -/
def nextOf (s : State) (o : Out) : State :=
  match o with
  | .next t => t
  | _ => s

/-- A started step of the strand retires before its swap ends (12 R365), unless its gang has not come so far. -/
def State.retireStarted (s : State) (o : Strand) : State :=
  match (s.core o.core).pipe with
  | m :: _ => if m.key = o.key then nextOf s (execMatrixStepRetire o.core s) else s
  | [] => s

/-- Strands that are swapped together: a gang, a pair (01 R44, 18 R463). -/
def swapMates (s : State) (o : Strand) : List Nat :=
  match s.gangOf o with
  | some g => g.members
  | none => s.both o

/-- Can a strand be swapped out at all: a user strand in its slot, on a core that is not stopped (11 R318, 18 R469). -/
def swappable (s : State) (o : Strand) : Bool :=
  !o.out && o.ump.isNone && decide (o.level = .user) && !decide (o.run = .empty) && !(s.core o.core).stopped

/-- One strand's state moves to its cluster's context cache (12 R366): its unstarted step leaves the pipe with it, after the A syllable of
the step's bundle, if that can act now (log 34). -/
def State.swapOne (s : State) (key : Nat) : State :=
  match s.strand key with
  | none => s
  | some o0 =>
    let s0 := s.retireStarted o0
    match s0.strand key with
    | none => s0
    | some o =>
      let step := (s0.core o.core).pipe.find? fun m => decide (m.key = key)
      let s0 := if step.any (fun m => !m.started) ∧ (stepMates s0 key).length = 1 then (match s0.runHeld [key] with
        | .ok s1 => s1
        | _ => s0) else s0
      let s1 := (s0.traceOf o 5 0).upd key fun o =>
        { (step.elim o fun m => unpopStep m o) with
          out := true, moveEnd := s0.tick + swapCycles, mstep := if step.isSome then step.map unstaged else o.mstep }
      let s2 := s1.setCore o.core fun c =>
        { c with pipe := c.pipe.filter fun m => !decide (m.key = key), mwait := c.mwait.erase key }
      let cl := poolOf o.core
      let l := ((s2.sched.cached.find? fun p => decide (p.1 = cl)).map (·.2)).getD []
      let l1 := l.erase key ++ [key]
      s2.setSched fun d =>
        { d with cached := (cl, if 96 < l1.length then l1.drop 1 else l1) :: d.cached.filter fun p => !decide (p.1 = cl) }

/-- Swaps that can begin: the contexts that they push out of full caches find units in backing memory (12 R367). -/
def swapsFit (s : State) (keys : List Nat) (kib : Nat) : Bool :=
  let os := keys.filterMap s.strand
  let pools := os.foldl (fun l o => if l.contains (poolOf o.core) then l else poolOf o.core :: l) ([] : List Nat)
  let out := pools.flatMap fun p =>
    let l := ((s.sched.cached.find? fun x => decide (x.1 = p)).map (·.2)).getD [] ++
      (os.filter fun o => decide (poolOf o.core = p)).map (·.key)
    l.take (l.length - 96)
  decide ((out.filterMap s.strand).foldl (fun n o => n + ctxUnits o) 0 + (kib + 3) / 4 ≤ s.freeUnits)

/-- Swap out a strand with those that go with it. -/
def State.swapAll (s : State) (key : Nat) : State :=
  match s.strand key with
  | none => s
  | some o =>
    let ks := swapMates s o
    if (ks.all fun k => (s.strand k).any (swappable s)) && swapsFit s ks 0 then ks.foldl State.swapOne s else s

/-- Class of the launch of a strand. -/
def effOf (s : State) (o : Strand) : Nat := ((o.launch.bind s.launch).map (·.effClass)).getD 0

/-- Records that need a slot: it was vacated for them, or lies in their reserved rectangle (12 R368). -/
def needers (s : State) (sid : Nat) : List Launch :=
  s.sched.launches.filter fun l =>
    decide (l.st = .accepted) && l.waitHeld &&
      ((s.sched.chosen.any fun p => decide (p.1 = l.uid) && p.2.contains sid) ||
        (decide (s.sched.rsv = some l.uid) && (reservedCores s).contains (coreOf sid) && (slotsOf (rSlots l.rcd)).contains (slotOf sid)))

/-- The slot a swapped strand goes back to: its own; a reclaimed borrower takes any Empty slot 0-6 (12 R368, R370). -/
def restoreSlot (s : State) (o : Strand) : Option Nat :=
  if o.borrower then
    (List.range 7).findSome? fun i => if slotFree s o.core i then some (o.core * 8 + i) else none
  else if slotFree s o.core (slotOf o.sid) then some o.sid else none

/-- The core's memory is the strand's context's, or can become so again (12 R368). -/
def restoreMemory (s : State) (o : Strand) : Bool := memoryFor (s.core o.core) o.ctx

/-- A swapped strand can come back (12 R368); not before the third phase of a checkpoint (18 R476). -/
def restorable (s : State) (o : Strand) : Bool :=
  o.out && decide (o.moveEnd ≤ s.tick) && !decide (o.run = .empty) && !(s.core o.core).stopped && restoreMemory s o && !(s.fw.ckpt.any fun k => decide (k.phase < 3)) &&
    match restoreSlot s o with
    | some sid => !((needers s sid).any fun l => decide (effOf s o < l.effClass))
    | none => false

/-- A register bank with an uncorrectable word: the strand freezes, its registers undefined (18 R456, R457; log 8). -/
def State.spoilRegs (s : State) (key : Nat) : State :=
  match s.strand key with
  | none => s
  | some o =>
    let (n, s1) := s.freeNo
    let x := fun (i : Nat) => Config.scrubbed n i
    let s2 := s1.upd key fun o =>
      { o with lo := Vector.ofFn fun i : Fin 16 => x i.val, inG := Vector.ofFn fun i : Fin 8 => x (16 + i.val)
               outG := Vector.ofFn fun i : Fin 8 => x (24 + i.val), k := Vector.ofFn fun i : Fin 8 => x (32 + i.val)
               h := Vector.ofFn fun i : Fin 8 => x (40 + i.val)
               v := Vector.ofFn fun i : Fin 32 => (List.range 8).foldl (fun (a : Vec) j =>
                 a ||| BitVec.ofNat 512 ((x (48 + 8 * i.val + j)).toNat * 2 ^ (64 * j))) 0 }
    if o.isFrozen then s2 else s2.freezeAny key (Raise.of Cause.ueConsumed)

/-- A strand back from the thread-context cache: with an uncorrectable word in its entry it comes back frozen (18 R456). -/
def State.entryBack (s : State) (key : Nat) : State :=
  if (s.strand key).any (·.badEntry) then (s.spoilRegs key).upd key fun o => { o with badEntry := false } else s

/-- Bring one strand back. A reclaimed borrower that comes back to another slot than the stroke slot is a borrower no more (12 R370). -/
def State.restoreOne (s : State) (key : Nat) : State :=
  match s.strand key with
  | none => s
  | some o =>
    match restoreSlot s o with
    | none => s
    | some sid =>
      let s0 := s.claim o.core o.ctx
      let s1 := s0.upd key fun o =>
        { o with out := false, sid := sid, borrower := o.borrower && decide (slotOf sid = 7), moveEnd := s.tick + swapCycles,
                 turn := alignTurn sid (s.tick + swapCycles) }
      ((s1.setSched fun d => { d with cached := d.cached.map fun p => (p.1, p.2.erase key) }).traceOf { o with sid := sid } 6 0).entryBack key

/-- STRAND_RESTORE (12 R368): a gang or a pair comes back whole. -/
def execStrandRestore (key : Nat) (s : State) : Out :=
  match s.strand key with
  | none => done s
  | some o =>
    let ks := swapMates s o
    if ks.all fun k => (s.strand k).any (restorable s) then done (ks.foldl State.restoreOne s) else done s

/-! ## Local memory between contexts (12 R351, R365) -/

/-- Keys of a core's local memory. -/
def inLocal (core k : Nat) : Bool := decide (lkey core 0 ≤ k) && decide (k < lkey core 0 + 2 ^ 17)

/-- Zero a core's local memory. -/
def State.zeroLocal (s : State) (core : Nat) : State :=
  { s with mem := s.mem.filter fun c => !inLocal core c.1, poison := s.poison.filter fun g => !inLocal core (g * 8) }

/-- LOCAL_MEMORY_ZEROED (12 R351): all 128 KiB are zero and the core is clean; it belongs to its context until it is given to another
(02 R51). -/
def execLocalMemoryZeroed (core : Nat) (s : State) : Out :=
  if (s.core core).zeroing.any fun t => decide (t ≤ s.tick) then
    done ((s.zeroLocal core).setCore core fun c =>
      { c with zeroing := none, clean := true, ramA := c.ramA.map fun r => { r with stale := true },
               ramB := c.ramB.map fun r => { r with stale := true }, verdicts := [] })
  else done s

/-- An area as it goes to backing memory. -/
def saveArea (s : State) (core : Nat) (a : Nat × Nat × Nat) : SavedArea :=
  let lo := lkey core (1024 * a.2.1)
  let hi := lo + 1024 * a.2.2
  { core := core, launch := a.1, base := a.2.1, size := a.2.2
    bytes := (s.mem.filter fun c => decide (lo ≤ c.1) && decide (c.1 < hi)).map fun c => (c.1 - lkey core 0, c.2)
    bad := (s.poison.filter fun g => decide (lo ≤ g * 8) && decide (g * 8 < hi)).map fun g => (g * 8 - lkey core 0) / 8 }

/-- AREA_WRITE_BACK_COMPLETE (12 R365): the areas stand in backing memory, and the core is zeroed next. -/
def execAreaWriteBackComplete (core : Nat) (s : State) : Out :=
  let c := s.core core
  if c.wback.isSome then
    done ((s.setSched fun d => { d with saved := d.saved ++ c.areas.map (saveArea s core) }).setCore core fun c =>
      { c with wback := none, areas := [], owner := none, zeroing := some (s.tick + 2048) })
  else done s

/-! ## Pre-emption (12 R363-R365) -/

/-- Holds a reservation (12 R364). -/
def marked (s : State) (o : Strand) : Bool := decide (0 < s.heldBy o.key)

/-- A strand may be displaced by a record: lower declared class, not marked below class 7, not freshly frozen (12 R363, R364;
log 26). -/
def displaceable (s : State) (l : Launch) (o : Strand) : Bool :=
  swappable s o && decide (s.classOf o < rClass l.rcd) && (!marked s o || decide (rClass l.rcd = 7)) &&
    (!o.isFrozen || decide (o.since + 360000 ≤ s.tick))

/-- Slots that a placement takes: cores with slots. -/
abbrev Spots := List (Nat × List Nat)

/-- Strand ids of slots. -/
def spotSids (p : Spots) : List Nat := p.flatMap fun x => x.2.map fun i => x.1 * 8 + i

/-- User strands that a placement displaces: those in its slots; on a core of another context all of them (12 R365). -/
def victimsIn (s : State) (l : Launch) (p : Spots) : List Strand :=
  let sids := spotSids p
  let here := s.strands.filter fun o =>
    !decide (o.run = .empty) && !o.out && o.ump.isNone && decide (o.level = .user) &&
      (sids.contains o.sid || ((p.any fun x => decide (x.1 = o.core)) && !decide ((s.core o.core).owner = some l.ctx)))
  let keys := here.foldl (fun ks o => (swapMates s o).foldl (fun ks k => if ks.contains k then ks else ks ++ [k]) ks) []
  keys.filterMap s.strand

/-- Of the slots that a placement takes on a core, those of the launch's own strands, which hold areas; where it runs paired the other half
are the trailers' (18 R460). -/
def ownSlots (s : State) (l : Launch) (x : Nat × List Nat) : List Nat :=
  if isPaired s l && decide (x.1 < 2304) then x.2.take (x.2.length / 2) else x.2

/-- Slots could be vacated: everyone in them may go, their areas are free or go to backing memory. -/
def vacatable (s : State) (l : Launch) (p : Spots) : Bool :=
  (victimsIn s l p).all (displaceable s l) &&
    p.all fun x =>
      !closedFor s l.uid x.1 && (s.core x.1).zeroing.isNone && (s.core x.1).wback.isNone &&
        (ownSlots s l x).all fun i => areaOpen s x.1 l.ctx (areaOf l.rcd i)

/-- The first of the placements with the fewest strands to swap out (12 R365). -/
def fewest (s : State) (l : Launch) (ps : List Spots) : Option Spots :=
  (ps.foldl (fun (b : Option (Spots × Nat)) p =>
    if vacatable s l p then
      let n := (victimsIn s l p).length
      match b with
      | some y => if n < y.2 then some (p, n) else some y
      | none => some (p, n)
    else b) none).map (·.1)

/-- Slots of a launch's strands on a core: their own, and where it runs paired as many for the trailers, Empty ones first (18 R460). -/
def withTrailers (s : State) (l : Launch) (core : Nat) (slots : List Nat) : List Nat :=
  if isPaired s l then
    let free := trailerSlots s core slots
    slots ++ (free ++ (List.range 7).filter fun i => !slots.contains i && !free.contains i).take slots.length
  else slots

/-- Slots of a crew on a core. -/
def crewSlots (s : State) (l : Launch) (core : Nat) : List Nat := withTrailers s l core (slotsOf (rSlots l.rcd))

/-- Rectangles for one crew on some dies, in first-fit order, away from cores already taken. -/
def crewSpots (s : State) (l : Launch) (dies taken : List Nat) : List Spots :=
  ((rects l.rcd dies).map (rectCores l.rcd)).filterMap fun cs =>
    if cs.any taken.contains then none else some (cs.map fun c => (c, crewSlots s l c))

/-- Slots for n crews, each the rectangle with the fewest victims among those the earlier left (12 R350, R365). -/
def planCrews (s : State) (l : Launch) (dies : List Nat) : Nat → Spots → Option Spots
  | 0, p => some p
  | n + 1, p => (fewest s l (crewSpots s l dies (p.map (·.1)))).bind fun q => planCrews s l dies n (p ++ q)

/-- Slots for crews on different dies. -/
def planSpread (s : State) (l : Launch) (dies : List Nat) : Option Spots :=
  let fits := dies.filterMap fun d => fewest s l (crewSpots s l [d] [])
  if fits.length < rCount l.rcd then none else some (fits.take (rCount l.rcd)).flatten

/-- Slots for the cox strands (12 R357). -/
def planCox (s : State) (l : Launch) : Option Spots :=
  let pages := regionPages s l
  let p := ((List.range 256).filter fun i => pages.any fun f => decide (f % 256 = i)).map fun i => (2304 + i, slotsOf (rCslots l.rcd))
  if vacatable s l p then some p else none

/-- A slot for the first backfill strand (12 R350). -/
def planFill (s : State) (l : Launch) (dies : List Nat) : Option Spots :=
  fewest s l (dies.flatMap fun d => (List.range 576).flatMap fun i => (List.range 7).map fun k => [(d * 576 + i, withTrailers s l (d * 576 + i) [k])])

/-- Slots for all that is placed at the start of a launch, on some dies (12 R350, R365). -/
def planFor (s : State) (l : Launch) (dies : List Nat) : Option Spots :=
  let r := l.rcd
  let a := if rSlots r = 0 then some [] else if rSpread r then planSpread s l dies else planCrews s l dies (rCount r) []
  a.bind fun p => (if rKind r = 1 then planCox s l else some []).bind fun q =>
    (if rSlots r = 0 ∧ rKind r = 0 then planFill s l dies else some []).map fun t => p ++ q ++ t

/-- Units that the areas of other contexts on a placement's cores take in backing memory, in KiB. -/
def areaKib (s : State) (l : Launch) (p : Spots) : Nat :=
  p.foldl (fun n x => if (s.core x.1).owner = some l.ctx then n else n + (s.core x.1).areas.foldl (fun n a => n + a.2.2) 0) 0

/-- Vacate slots: strands are swapped out, areas of other contexts begin to be written back. -/
def State.vacate (s : State) (l : Launch) (p : Spots) : State :=
  let vs := victimsIn s l p
  let s1 := vs.foldl (fun s o => s.swapOne o.key) s
  let s2 := s1.setSched fun d =>
    { d with
      pre := BitVec.ofNat 16 (Nat.min 0xFFFF (d.pre.toNat + vs.length))
      chosen := (l.uid, spotSids p) :: d.chosen.filter fun p => !decide (p.1 = l.uid) }
  p.foldl (fun s x =>
    match (s.core x.1).owner with
    | some o =>
      if o ≠ l.ctx ∧ (s.core x.1).clean = false ∧ (s.core x.1).wback.isNone then
        (s.setCore x.1 fun r => { r with wback := some o }).later (.areaWriteBackComplete x.1)
      else s
    | none => s) s2

/-- The slots that a record has had vacated are still its own: nobody else has taken one. -/
def planStands (s : State) (l : Launch) : Bool :=
  match s.sched.chosen.find? fun p => decide (p.1 = l.uid) with
  | some p => !(s.strands.any fun o => p.2.contains o.sid && !o.out && !decide (o.run = .empty))
  | none => false

/-- Make room for a record of class 6 or 7, if that is possible (12 R363, R365): for all its crews, its cox strands or its first
backfill strand; a placement without units in backing memory waits (12 R367). -/
def State.preemptFor (s : State) (l : Launch) : Option State :=
  if rClass l.rcd < 6 ∨ s.sched.nopre = true ∨ planStands s l = true then none
  else
    let plan := if replayOn s l then (planFor s l [0, 1]).bind fun p => (planFor s l [2, 3]).map fun q => p ++ q
      else planFor s l (allowedDies l.rcd)
    plan.bind fun p =>
      if swapsFit s ((victimsIn s l p).map (·.key)) (areaKib s l p) then some (s.vacate l p) else none

/-! ## The dispatcher's step (12 R348-R352, R355) -/

/-- A record held back by an earlier one of its queue with ord (12 R349). -/
def heldBack (s : State) (l : Launch) : Bool :=
  (s.sched.launches.takeWhile fun x => !decide (x.uid = l.uid)).any fun x =>
    decide (x.st = .accepted) && decide (x.ctx = l.ctx) && decide (x.queue = l.queue) && rOrd x.rcd && !x.waitHeld

/-- Records that can be placed, highest effective class first, then in order of acceptance (12 R348). -/
def readyRecords (s : State) : List Launch :=
  let l := s.sched.launches.filter fun l => decide (l.st = .accepted) && l.waitHeld && !heldBack s l && !l.copyB
  (List.range 8).reverse.flatMap fun c => l.filter fun x => decide (x.effClass = c)

/-- Place one record if it can be: in free slots, else by vacating some; else it stays. It waits while memory that its placement reads or
writes is held. -/
def State.considerRecord (s : State) (l : Launch) : State :=
  let settled := fun (s : State) => s.setSched fun d =>
    { d with chosen := d.chosen.filter fun p => !decide (p.1 = l.uid), rsv := if d.rsv = some l.uid then none else d.rsv,
             rsvWord := if d.rsv = some l.uid then 0 else d.rsvWord }
  if completionHeld s l.ctx l.rcd || (seedAddrs l).any (userHeld s l.ctx) then s
  else
  match s.tryPlace l with
  | .placed s1 => settled s1
  | .badSeeds => (s.noteWalks l.ctx l.rcd).dropRecord l 1 4
  | .no =>
    if unplaceable s l then s.dropRecord l 3 0
    else
      match s.preemptFor l with
      | none => s
      | some s1 =>
        match s1.tryPlace l with
        | .placed s2 => settled s2
        | .badSeeds => s1.dropRecord l 1 4
        | .no => s1

/-- Frames stand on a deque of a launch. -/
def hasFrames (s : State) (uid : Nat) : Bool :=
  s.strands.any fun o => decide (o.launch = some uid) && o.ump.isNone && !o.trailer && s.bankHolds o && match dequeOf o with
    | some (k, _) => decide (dqCount s k ≠ 0)
    | none => false

/-- Backfill strands of a launch. -/
def backfills (s : State) (uid : Nat) : Nat :=
  (s.strands.filter fun o => decide (o.launch = some uid) && !decide (o.run = .empty) && o.crew.isNone && decide (o.core < 2304) &&
    !o.trailer && o.ump.isNone).length

/-- Dies a launch's later backfill strands may use: all, but for the copies of partition replay (12 R355, 18 R473; log 53). -/
def fillDies (l : Launch) : List Nat := if l.partner.isSome then (if l.copyB then [2, 3] else [0, 1]) else List.range 4

/-- At most one backfill strand for each launch in a step (12 R355); none for a context that is being destroyed (16 R408). -/
def State.fillLaunches (s : State) : State :=
  s.sched.launches.foldl (fun s l =>
    if l.st = .placed ∧ (s.ctxOf l.ctx).all (!·.dying) = true ∧ backfills s l.uid < rTmax l.rcd ∧ hasFrames s l.uid = true then (s.backfill l (fillDies l)).getD s else s) s

/-- A core whose inbox is full has the frozen strand with the most entries swapped out (11 R333). -/
def State.offerInboxSwaps (s : State) : State :=
  s.cores.foldl (fun s' c => match s.inboxVictim c.id with
    | some x => s'.later (.swapOut x.key)
    | none => s') s

/-- Swapped strands that can come back are offered (12 R368). -/
def State.offerRestores (s : State) : State :=
  s.strands.foldl (fun s o => if restorable s o then s.later (.strandRestore o.key) else s) s

/-- A stroke slot can be lent (12 R370): enabled, without privileged work now (01 R19) and for 1,024 cycles, outside the reserved
rectangle. -/
def lendable (s : State) (core : Nat) : Bool :=
  let c := s.core core
  decide (core < 2304) && c.lendOn && !s.sched.nolend && !c.stopped && decide (c.lastPriv + 1024 ≤ s.tick) && slotFree s core 7 &&
    !(reservedCores s).contains core && !placingHeld s && !inboxWork s core

/-- The reclaimed borrower of a core that waits and whose context owns the core's local memory (12 R370). -/
def waitingBorrower (s : State) (core : Nat) : Option Strand :=
  s.strands.find? fun o => o.borrower && o.out && decide (o.moveEnd ≤ s.tick) && decide (o.core = core) && !decide (o.run = .empty) &&
    !o.isFrozen && ((swapMates s o).all fun k => decide (k = o.key) || (s.strand k).any (restorable s)) && (s.ctxOf o.ctx).all (!·.dying) && decide ((s.core core).owner = some o.ctx) && memoryFor (s.core core) o.ctx

/-- A launch that may send a new borrower to a core: none of a context that is being destroyed (16 R408), and in partition replay only on
the copy's dies (18 R473). -/
def lendLaunch (s : State) (core : Nat) : Option Launch :=
  s.sched.launches.find? fun l =>
    decide (l.st = .placed) && rLend l.rcd && decide ((s.core core).owner = some l.ctx) && memoryFor (s.core core) l.ctx &&
      decide (backfills s l.uid < rTmax l.rcd) && hasFrames s l.uid && areaOpen s core l.ctx (areaOf l.rcd 7) &&
      (!isPaired s l || !(trailerSlots s core [7]).isEmpty) && (s.ctxOf l.ctx).all (!·.dying) && (fillDies l).contains (dieOf core)

/-- STROKE_SLOT_LEND (12 R370): to the reclaimed borrower, with its trailer (18 R463), else to a new backfill strand in slot 7. -/
def execStrokeSlotLend (core : Nat) (s : State) : Out :=
  if lendable s core then
    match waitingBorrower s core with
    | some o =>
      let s1 := ((((s.claim core o.ctx).upd o.key fun o =>
        { o with out := false, sid := core * 8 + 7, moveEnd := s.tick + swapCycles, turn := alignTurn (core * 8 + 7) (s.tick + swapCycles) }).setSched
        fun d => { d with cached := d.cached.map fun p => (p.1, p.2.erase o.key) }).traceOf { o with sid := core * 8 + 7 } 6 0).entryBack o.key
      done (((swapMates s o).filter fun k => !decide (k = o.key)).foldl State.restoreOne s1)
    | none =>
      match lendLaunch s core with
      | some l =>
        let (u, s1) := s.fresh
        done (s1.createBoth l { backfillFor s1 l u core 7 with borrower := true } [7])
      | none => done s
  else done s

/-- STROKE_SLOT_RECLAIM (01 R19): the borrower in slot 7 is swapped out, with its trailer; not begun where its context finds no unit in
backing memory (12 R367), and it then stays in the borrow bank, without turns. -/
def execStrokeSlotReclaim (core : Nat) (s : State) : Out :=
  match s.strands.find? fun o => o.borrower && !o.out && decide (o.sid = core * 8 + 7) && !decide (o.run = .empty) with
  | some o => done (if swapsFit s (swapMates s o) 0 then (swapMates s o).foldl State.swapOne s else s)
  | none => done s

/-- Cores whose stroke slot can be lent to somebody are offered. -/
def State.offerLends (s : State) : State :=
  s.cores.foldl (fun s' c =>
    if lendable s c.id && ((waitingBorrower s c.id).isSome || (lendLaunch s c.id).isSome) then s'.later (.strokeSlotLend c.id) else s') s

/-- DISPATCHER_STEP (12 R350, R355, R368, R370). The walks of the waits it watches report the lines they could not read (16 R421). -/
def execDispatcherStep (s : State) : Out :=
  let s1 := s.setSched fun d => { d with nextStep := s.tick / 108 * 108 + 108 }
  if placingHeld s1 then done s1
  else
    let s2 := (readyRecords s1).foldl State.considerRecord ((s1.sched.launches.filter fun l =>
      decide (l.st = .accepted) && !l.waitHeld && decide (rWkind l.rcd = 1)).foldl (fun s l => s.noteBad l.ctx (l.rcd.getD 9 0).toNat) s1)
    done (s2.fillLaunches.offerRestores.offerLends.offerInboxSwaps)

/-- The rectangle a record would take on an empty die (12 R352), copy A's in partition replay (18 R473; log 53). -/
def emptyFit (s : State) (l : Launch) : Option Rect := firstFit (emptied s) l (if replayOn s l then [0, 1] else allowedDies l.rcd)

/-- RECTANGLE_RESERVE (12 R352): for the ready record of highest effective class, 100 us after it became ready. -/
def execRectangleReserve (uid : Nat) (s : State) : Out :=
  match (readyRecords s).head? with
  | some l =>
    if l.uid = uid ∧ s.sched.rsv.isNone ∧ rSlots l.rcd ≠ 0 ∧ l.ready.getD s.tick + 360000 ≤ s.tick then
      match emptyFit s l with
      | some (d, y, x) =>
        done (s.setSched fun c =>
          { c with rsv := some uid
                   rsvWord := BitVec.ofNat 64 (2 ^ 63 + d * 2 ^ 48 + rH l.rcd * 2 ^ 32 + rW l.rcd * 2 ^ 24 + y * 2 ^ 8 + x) })
      | none => done s
    else done s
  | none => done s

/-! ## YIELD and swaps on demand (10 R314, 01 R47) -/

/-- The package as it would be with a strand's slot Empty. -/
def without (s : State) (o : Strand) : State :=
  (swapMates s o).foldl (fun s k => s.upd k fun x => { x with out := true, moveEnd := 0 }) s

/-- The scheduler holds a ready strand, task or launch for the slot of a strand, of at least its class (10 R314): a swapped strand that
would come back to it and would not stay parked, a backfill strand that would be created there, a record whose placement would take it. -/
def slotWanted (s : State) (o : Strand) : Bool :=
  let f := without s o
  let c := s.classOf o
  (s.strands.any fun x => !decide (x.key = o.key) && x.out && !x.isFrozen && readyOut s x &&
      decide (c ≤ s.classOf x) && restorable f x && decide (restoreSlot f x = some o.sid)) ||
    (!placingHeld s && s.sched.launches.any fun l =>
      (decide (l.st = .placed) && decide (c ≤ rClass l.rcd) && decide (backfills s l.uid < rTmax l.rcd) && hasFrames s l.uid &&
        decide (backfillPlace f l (fillDies l) = some (o.core, slotOf o.sid))) ||
      ((readyRecords s).contains l && decide (c ≤ rClass l.rcd) && match s.tryPlace l, f.tryPlace l with
        | .no, .placed t => t.strands.any fun x => decide (x.sid = o.sid) && decide (x.launch = some l.uid) && !decide (x.run = .empty)
        | _, _ => false))

/-- SWAP_OUT (01 R47): after YIELD, only when the slot is wanted. -/
def execSwapOut (key : Nat) (s : State) : Out :=
  match s.strand key with
  | none => done s
  | some o =>
    if o.yields then
      let s1 := s.upd key fun o => { o with yields := false }
      done (if slotWanted s1 { o with yields := false } then s1.swapAll key else s1)
    else done (s.swapAll key)

/-! ## The end of a launch (12 R358-R360; 18 R473, R474) -/

/-- The context of a launch is being destroyed: nobody will take the frames on its killed strands' deques (16 R408). -/
def abandoned (s : State) (uid : Nat) : Bool := (s.launch uid).any fun l => (s.ctxOf l.ctx).any (·.dying)

/-- Nothing of a launch is at work: its strands are Empty or in the steal loop with nothing in their q4, its deques empty, its commands
over. -/
def launchIdle (s : State) (uid : Nat) : Bool :=
  (s.strands.all fun o => !decide (o.launch = some uid) || decide (o.run = .empty) || o.trailer ||
      (decide (o.park = .steal) && !o.out && !o.isFrozen && o.q4.isEmpty)) &&
    (!hasFrames s uid || abandoned s uid) &&
    s.cmds.all fun c => !decide (c.launch = some uid) || (c.signalled && (match s.strand c.key with
      | some o => decide (o.park = .steal)
      | none => true))

/-- Frames on the deques of a launch. -/
def dequeFrames (s : State) (uid : Nat) : Nat :=
  (s.strands.filter fun o => decide (o.launch = some uid) && o.ump.isNone && !o.trailer && s.bankHolds o).foldl
    (fun n o => n + ((dequeOf o).map fun p => dqCount s p.1).getD 0) 0

/-- Frames of a launch left in wait pools and triggers, and on the deques of an abandoned one. -/
def leftFrames (s : State) (uid : Nat) : Nat :=
  (if abandoned s uid then dequeFrames s uid else 0) + (s.homes.wframes.filter fun w => decide (w.launch = uid)).length +
    s.homes.names.foldl (fun n x => n + (x.trigs.filter fun t => decide (t.launch = uid)).length) 0

/-- A completion word that still waits is discarded at the end of its launch, and its command is complete (09 R276): what it refers to is
referred to no more (02 R82). -/
def State.tellFor (s : State) (uid : Nat) : State :=
  let ended := s.cmds.filter fun c => decide (c.launch = some uid) && c.signalled && !c.told
  ended.foldl (fun s c => 
    let s1 := c.refs.foldl State.unref s
    { s1 with cmds := s1.cmds.map fun d => if d.uid = c.uid then { d with told := true, refs := [] } else d }) s

/-- What is left of a killed strand of a launch. -/
def goneFor (uid : Nat) (o : Strand) : Bool := decide (o.launch = some uid) && decide (o.run = .empty)

/-- The strands, frames, commands and crews of a launch that is over go. -/
def State.clearLaunch (s : State) (uid : Nat) : State :=
  let keys := (s.strands.filter fun o => decide (o.launch = some uid) && !decide (o.run = .empty)).map (·.key)
  let s1 : State := keys.foldl (fun s k => match s.strand k with
    | some o => s.retireStrand o
    | none => s) s
  let s2 : State := s1.setHomes fun h =>
    { h with wframes := h.wframes.filter fun w => !decide (w.launch = uid)
             names := h.names.map fun n => { n with trigs := n.trigs.filter fun t => !decide (t.launch = uid) } }
  let t : State := s2.tellFor uid
  let s3 : State :=
    { t with others := s2.others.filter fun o => !goneFor uid o,
              me := if goneFor uid s2.me then Strand.blank else s2.me }
  let s4 : State := { s3 with cmds := s3.cmds.filter fun c => !(c.told && !(s3.cmds.any fun d => c.merged.contains d.uid && !d.told)) }
  s4.routeAll.setSched fun d =>
    { d with crews := d.crews.filter fun c => !decide (c.launch = uid)
             saved := d.saved.filter fun a => !decide (a.launch = uid) }

/-- Compare the hashes of a window of replayed launches (18 R474). -/
def State.replayCheck (s : State) (ctx queue : Nat) (tag ha hb : Word) : State :=
  match s.queueOf ctx queue with
  | none => s
  | some q =>
    let a := q.hashA + ha
    let b := q.hashB + hb
    let left := q.replayLeft - 1
    let set := fun (s : State) (a b : Word) (left : Nat) => s.updCtx ctx fun c =>
      { c with queues := c.queues.map fun x => if x.id = queue then { x with hashA := a, hashB := b, replayLeft := left } else x }
    if left ≠ 0 then set s a b left
    else
      let s1 := set s 0 0 q.replayWin
      if a = b then s1
      else
        ((s1.blackBox 0 9 0 0 ctx tag).blackBox 2 9 0 0 ctx tag).setRas fun r => { r with divs := r.divs + 1, divTag := tag }

/-- The launch ends now: both copies of a replayed one. -/
def endDue (s : State) (l : Launch) : Bool :=
  decide (l.st = .placed) && !l.copyB && !completionHeld s l.ctx l.rcd && launchIdle s l.uid && (match l.partner with
    | some p => launchIdle s p
    | none => true)

/-- LAUNCH_END (12 R358, R359). Of a replayed launch the completion is copy A's (18 R473). -/
def execLaunchEnd (uid : Nat) (s : State) : Out :=
  match s.launch uid with
  | none => done s
  | some l =>
    if endDue s l then
      let n := leftFrames s uid + l.disc
      let s1 := s.clearLaunch uid
      let s2 : State := match l.partner with
        | some p => s1.clearLaunch p
        | none => s1
      let s3 : State := match l.partner with
        | some p => s2.replayCheck l.ctx l.queue (l.rcd.getD 15 0) (((s2.launch uid).map (·.hash)).getD 0) (((s2.launch p).map (·.hash)).getD 0)
        | none => s2
      let s4 := s3.setSched fun d =>
        { d with launches := d.launches.filter fun x => !decide (x.uid = uid) && !decide (some x.uid = l.partner) }
      done (s4.writeCompletion l.ctx l.rcd l.start (if l.killed then 4 else 0) 0 n)
    else done s

/-- What the dispatcher does next by itself. -/
def schedEvent (s : State) : Option Ev :=
  match s.sched.launches.find? (waitOver s) with
  | some l => some (.launchWaitHolds l.uid)
  | none =>
    match s.sched.launches.find? fun l => decide (l.st = .accepted) && decide (agedClass s l ≠ l.effClass) with
    | some l => some (.classAgeing l.uid)
    | none =>
      match s.sched.launches.find? (endDue s) with
      | some l => some (.launchEnd l.uid)
      | none =>
       match s.cores.find? fun c => c.zeroing.any fun t => decide (t ≤ s.tick) with
       | some c => some (.localMemoryZeroed c.id)
       | none =>
        match s.fw.ctxs.findSome? fun c => (c.queues.find? (sealDue s c)).map fun q => (c.id, q.id) with
        | some (c, q) => some (.launchRecordSeal c q)
        | none =>
          match (readyRecords s).head? with
          | some l =>
            if s.sched.rsv.isNone ∧ rSlots l.rcd ≠ 0 ∧ l.ready.getD s.tick + 360000 ≤ s.tick ∧ (emptyFit s l).isSome ∧ placingHeld s = false
            then some (.rectangleReserve l.uid)
            else if s.sched.nextStep ≤ s.tick then some .dispatcherStep else none
          | none => if s.sched.nextStep ≤ s.tick then some .dispatcherStep else none

end Sys2Proof.Machine
end

