-- ==== Sys2Proof/Machine/LinkEvents.lean ====
section
/-! DEFINITION. Messages between strands and packages (10 R294, 17 R447), the states of links (17 R440-R448, R453) and the link
service routine (17 R444). -/

namespace Sys2Proof.Machine

open Sys2Proof

/-! ## Messages (10 R294) -/

/-- Where the head of a strand's q6 goes: it leaves the package, is lost, or enters a strand's q7; none while it waits. -/
inductive Sent where
  | left
  | lost
  | taken (s : State)

/-- Older stores to a package wait on their way before a strand's message to it (17 R447). -/
def storesBefore (s : State) (key rank : Nat) : Bool :=
  s.homes.posted.any fun p => decide (rankAt p.loc = some rank) && !p.after.contains key

/-- A strand's message to a package has left: what is to follow it may. -/
def State.messageLeft (s : State) (key rank : Nat) : State :=
  let ps := s.homes.posted.map fun p => if rankAt p.loc = some rank then { p with after := p.after.erase key } else p
  (s.setHomes ({ · with posted := ps })).letIn

/-- What becomes of a message now. -/
def sendHead (s : State) (o : Strand) (d w : Word) : Option Sent :=
  let rank := fld d.toNat 16 16
  if d.getLsbD 15 && !decide (rank = ownRank s o.ctx) then
    (if portUp s rank && (s.heldAt (dieOf o.core) 4 (coreKey o.core 0)).isNone && !storesBefore s o.key rank then some .left else none)
  else
    match s.slotStrand (d.toNat % 2 ^ 15) o.ctx with
    | none => some .lost
    | some f =>
      if !s.meshOpen o.core f.core then none
      else
      let (took, s1) := s.deliver f.key 7 w o.key
      if took then some (.taken s1) else none

/-- The head of q6 can go. -/
def messageDue (s : State) (o : Strand) : Bool :=
  match o.q6 with
  | [] => false
  | (d, w) :: _ => (sendHead s o d w).isSome

/-- MESSAGE_DELIVERY (10 R294): the oldest message goes to its strand, its port, or is dropped with a notice; a full receiver
holds it. -/
def execMessageDelivery (src : Nat) (s : State) : Out :=
  match s.strand src with
  | none => done s
  | some o =>
    match o.q6 with
    | [] => done s
    | (d, w) :: t =>
      let sent := fun (s : State) => s.upd src fun x => { x with q6 := t }
      match sendHead s o d w with
      | none => done s
      | some .left =>
        done (((s.upd src fun x => { x with q6 := t, acks := x.acks + 1 }).messageLeft src (fld d.toNat 16 16)).later (.remoteAccessComplete src))
      | some .lost => done ((sent s).later (.dropNotice src 6))
      | some (.taken s1) => done (sent s1)

/-! ## Messages between packages (17 R447, R448) -/

/-- The context of this package that joined a group. -/
def groupCtx (s : State) (g : Nat) : Option Ctx := s.fw.ctxs.find? fun c => match c.group with
  | some (h, _, _) => decide (h = g)
  | none => false

/-- A message for this package: a word for a strand, a rank's report that it joined, a drop notice, or an outgoing window. The fields
of the destination word are the model's: strand 14-0, group 27-16, kind 30-28 (log 28). None while its strand cannot take it (11 R333). -/
def State.takeMessage (s : State) (c : Ctx) (g : Nat) (dst : Nat) (x : Word) : Option State :=
  let n := x.toNat
  match fld dst 28 3 with
  | 0 =>
    match s.slotStrand (dst % 2 ^ 15) c.id with
    | none => some s
    | some f =>
      let (took, s1) := s.deliver f.key 7 x 0
      if took then some s1 else none
  | 1 => some <| s.setFw fun f => { f with joined := if f.joined.contains (g, n % 16) then f.joined else (g, n % 16) :: f.joined }
  | 2 =>
    match s.slotStrand (dst % 2 ^ 15) c.id with
    | some f => some (s.later (.dropNotice f.key 6))
    | none => some s
  | _ =>
    some <| s.setFw fun f =>
      { f with exports := (g, fld n 48 4, fld n 0 28 * 65536, fld n 28 20 * 2 ^ 26) ::
          f.exports.filter fun e => !(decide (e.1 = g) && decide (e.2.1 = fld n 48 4)) }

/-- A message stands at the ports: to go on to another package, or until a strand of this one can take it. -/
def State.holdAtPort (s : State) (m : BitVec 16 × Word × Word) : State := s.setFw fun f => { f with ports := f.ports ++ [m] }

/-- A message at the ports is for a strand of this package, and what taking it makes of the state. -/
def portTakes (s : State) (m : BitVec 16 × Word × Word) : Option State :=
  let g := fld m.2.1.toNat 16 12
  (groupCtx s g).bind fun c =>
    if ownRank s c.id = m.1.toNat then (s.setFw fun f => { f with ports := f.ports.erase m }).takeMessage c g m.2.1.toNat m.2.2 else none

/-- FLEZIL_FORWARD (17 R447): a message that arrives for another rank goes on by this package's table, in order; one for this package
is taken, in order for each strand, or waits at the ports while its strand cannot take it. -/
def execFlezilForward (rank dst : Nat) (x : BitVec 64) (s : State) : Out :=
  let m : BitVec 16 × Word × Word := (BitVec.ofNat 16 rank, BitVec.ofNat 64 dst, x)
  let waits := s.fw.ports.any fun p => decide (p.1 = m.1) && decide (p.2.1 = m.2.1)
  let mine := (groupCtx s (fld dst 16 12)).any fun c => decide (ownRank s c.id = rank)
  if !mine then done ((s.holdAtPort m).flushPorts)
  else if waits && !s.fw.ports.contains m then done (s.holdAtPort m)
  else
    match portTakes s m with
    | some s1 => done s1
    | none => if s.fw.ports.contains m then done s else done (s.holdAtPort m)

/-- FLEZIL_PORT_DOWN (17 R448): the port is down, its routes stay, a LINK event is posted. -/
def execFlezilPortDown (p : Nat) (s : State) : Out :=
  if p < 16 then done ((s.linkTo (96 + p) 0 id).linkEvent (96 + p) 0) else done s

/-- IGVOS_PORT_DOWN (17 R453). -/
def execIgvosPortDown (p : Nat) (s : State) : Out :=
  if p < 2 then done ((s.linkTo (112 + p) 0 id).linkEvent (112 + p) 0) else done s

/-- IGVOS_PORT_UP (17 R453). -/
def execIgvosPortUp (p : Nat) (s : State) : Out :=
  if p < 2 then done ((s.linkTo (112 + p) 2 id).linkEvent (112 + p) 2) else done s

/-! ## The states of a link (17 R440-R442) -/

/-- LINK_HOLD (17 R442). -/
def execLinkHold (l : Nat) (s : State) : Out := done (s.linkCmd l 1)
/-- LINK_RETRAIN (17 R442). -/
def execLinkRetrain (l : Nat) (s : State) : Out := done (s.linkCmd l 2)
/-- LINK_RESUME (17 R442). -/
def execLinkResume (l : Nat) (s : State) : Out := done (s.linkCmd l 3)
/-- LINK_TAKE_DOWN (17 R442). -/
def execLinkTakeDown (l : Nat) (s : State) : Out := done (s.linkCmd l 4)
/-- LINK_TRAIN (17 R442). -/
def execLinkTrain (l : Nat) (s : State) : Out := done (s.linkCmd l 5)

/-- A LINK event that carries LNKSTAT. -/
def State.statEvent (s : State) (l : Nat) : State := s.linkEvent l (s.lnkstatOf l)

/-- HOLD_DRAINED (17 R442): the flits admitted have drained, both replay buffers are empty. -/
def execHoldDrained (l : Nat) (s : State) : Out :=
  if (s.link l).st = 3 ∧ (s.link l).stuck = 0 then done ((s.linkTo l 4 fun x => { x with rb := 0 }).statEvent l) else done s

/-- HOLD_TIMEOUT (17 R442): after 2 us flits are still unacknowledged; how many is what the far end left, else a free value. -/
def execHoldTimeout (l : Nat) (s : State) : Out :=
  let x := s.link l
  if x.st = 3 then
    let (n, s1) := s.freeNo
    done ((s1.linkTo l 6 fun x => { x with rb := if x.stuck = 0 then 1 + Config.heldFlits n % bufferFlits l else x.stuck }).statEvent l)
  else done s

/-- Entry k of the LNKMAP of a lane test: its lane, where it is valid (17 R441). -/
def mapEntry (x : Link) (k : Nat) : Option Nat :=
  if bit x.wantMap.toNat (7 * k + 6) then some (fld x.wantMap.toNat (7 * k) 6) else none

/-- Data lanes of a link. -/
def laneCount (l : Nat) : Nat := if linkType l = 2 then 8 else 64

/-- The lanes that the width and half of a lane test put in use. -/
def lanesInUse (l : Nat) (x : Link) : List Nat :=
  let n := laneCount l
  if x.wantWidth then (List.range (n / 2)).map fun i => (if x.wantHalf then n / 2 else 0) + i else List.range n

/-- Valid entries of the map of a lane test; Flezil ports ignore LNKMAP. -/
def mapEntries (l : Nat) (x : Link) : List (Nat × Nat) :=
  if linkType l = 2 then [] else (List.range 4).filterMap fun k => (mapEntry x k).map fun i => (k, i)

/-- No entry names a lane outside the width in use, no two the same lane (17 R442). -/
def mapFits (l : Nat) (x : Link) : Bool :=
  let es := mapEntries l x
  es.all fun e => (lanesInUse l x).contains e.2 && decide ((es.filter fun f => decide (f.2 = e.2)).length = 1)

/-- Every lane in use passed, a mapped one on its spare. -/
def lanesPass (l : Nat) (x : Link) (bad spare : Nat) : Bool :=
  (lanesInUse l x).all fun i => match (mapEntries l x).find? fun e => decide (e.2 = i) with
    | some e => !bit spare e.1
    | none => !bit bad i

/-- LANE_TEST_DONE (17 R442): the end of a retrain or a train. -/
def execLaneTestDone (l : Nat) (bad : BitVec 64) (badSpare : BitVec 4) (s : State) : Out :=
  let x := s.link l
  if x.st = 5 ∨ x.st = 1 then
    let ok := mapFits l x && lanesPass l x bad.toNat badSpare.toNat
    let s1 := s.setLink l fun x =>
      { x with bad := bad, win := 0, winCount := 0, wbase := s.tick, width := if ok then x.wantWidth else x.width, half := if ok then x.wantHalf else x.half }
    done ((if !ok then s1.linkTo l 6 id else if x.training then s1.linkUp l else s1.linkTo l 4 id).statEvent l)
  else done s

/-- FLIT_CRC_RETRY (17 R440): the retry is counted, and LNKBAD takes the lanes that the error is attributed to, which the spec does not
name: a free value (17 R441, log 52). -/
def execFlitCrcRetry (l : Nat) (s : State) : Out :=
  let (n, s1) := s.freeNo
  done (s1.setLink l fun x => { oneRetry x with bad := x.bad ||| Config.retryLanes n })

/-- The window of 2^20 cycles of a link is over (17 R441). -/
def windowOver (s : State) (x : Link) : Bool := decide (x.wbase + 2 ^ 20 ≤ s.tick)

/-- The end of a link's window. -/
def nextWindow (x : Link) : Link :=
  { x with win := BitVec.ofNat 16 (Nat.min 0xFFFF x.winCount), winCount := 0, wbase := x.wbase + 2 ^ 20 }

/-- ERROR_WINDOW_CLOSE (17 R441): LNKERR.win of each link whose window is over takes the retries that window counted. -/
def execErrorWindowClose (s : State) : Out :=
  done { s with links := s.links.map fun (x : Link) => if windowOver s x then nextWindow x else x }

/-! ## The link service routine (17 R444, R445) -/

/-- What a link is being served for. -/
def serveNone : Nat := 0
/-- R444 up to the choice of lanes. -/
def serveNow : Nat := 1
/-- LINK_SERVICE action 3. -/
def serveDown : Nat := 2
/-- LINK_SERVICE action 4. -/
def serveUp : Nat := 3
/-- R444 after its retrain was commanded. -/
def serveTested : Nat := 4
/-- Action 4 after its train was commanded. -/
def serveTrained : Nat := 5

/-- Number of set bits in some lanes. -/
def lanesBad (bad : Nat) (ls : List Nat) : List Nat := ls.filter fun i => bit bad i

/-- LNKMAP that carries lanes on the spares in ascending order. -/
def mapFor (ls : List Nat) : Nat := (ls.zipIdx).foldl (fun n x => n + (64 + x.1) * 2 ^ (7 * x.2)) 0

/-- Step 2 of R444: width, half and map; none when the module must go down. A Flezil port has no spare (17 R446). -/
def chooseLanes (l : Nat) (x : Link) : Option (Bool × Bool × Nat) :=
  let n := laneCount l
  let spares := if linkType l = 2 then 0 else 4
  let bad := (lnkbad l x).toNat
  let all := lanesBad bad (List.range n)
  let lo := lanesBad bad (List.range (n / 2))
  let hi := lanesBad bad ((List.range (n / 2)).map fun i => n / 2 + i)
  if all.length ≤ spares then some (false, false, mapFor all)
  else
    let half := decide (hi.length < lo.length)
    let ls := if half then hi else lo
    if spares < ls.length then none else some (true, half, mapFor ls)

/-- The end of a service: its command, if one asked for it, is answered (17 R445). -/
def State.serveEnd (s : State) (l : Nat) : State :=
  let x := s.link l
  let s1 := s.setLink l fun x => { x with serving := serveNone, asked := false }
  match if !x.asked then none else s.fw.long.find? fun p => decide (p.1 = 0x17) && decide ((p.2.p.getD 0 0).toNat = l) with
  | none => s1
  | some p =>
    let bad := decide (x.serving ≠ serveDown) && (decide (x.st = 0) || decide (x.st = 6))
    (s1.setFw fun f => { f with long := f.long.filter fun q => !decide (q = p) }).reply p.2 0x17 (if bad then 0xC else 0) (s.lnkstatOf l) 0

/-- One step for a link that is being served. -/
def State.serveStep (s : State) (l : Nat) : State :=
  let x := s.link l
  let st := x.st.toNat
  let down := fun (s : State) => ((s.linkCmd l 4).statEvent l).serveEnd l
  match x.serving with
  | 1 =>
    if st = 2 then s.linkCmd l 1
    else if st = 4 then
      match chooseLanes l x with
      | none => down (s.statEvent l)
      | some (w, h, m) =>
        ((s.setLink l fun x => { x with ctlWidth := w, ctlHalf := h, map := BitVec.ofNat 28 m, serving := serveTested }).statEvent l).linkCmd l 2
    else if st = 6 then down s
    else if st = 0 then s.serveEnd l
    else s
  | 4 => if st = 4 then ((s.linkCmd l 3).statEvent l).serveEnd l else if st = 6 then down s else if st = 5 then s else s.serveEnd l
  | 2 =>
    if st = 2 then s.linkCmd l 1 else if st = 4 ∨ st = 6 then down s else if st = 0 then s.serveEnd l else s
  | 3 =>
    let s1 := if st = 6 then s.linkCmd l 4 else s
    if st = 6 ∨ st = 0 then
      (s1.setLink l fun x => { x with map := 0, ctlWidth := false, ctlHalf := false, serving := serveTrained }).linkCmd l 5
    else s.serveEnd l
  | 5 => if st = 1 then s else s.serveEnd l
  | _ => s

/-- A link whose service can go on now. -/
def serveDue (x : Link) : Bool := decide (x.serving ≠ 0) && !(decide (x.st = 1) || decide (x.st = 3) || decide (x.st = 5))

/-- The routine runs on a link: it serves one at a time (17 R444). -/
def routineBusy (s : State) : Bool := s.links.toList.any fun x => decide (x.serving = serveNow) || decide (x.serving = serveTested)

/-- A link whose alert asks for the routine, when it serves no other (17 R444). -/
def alertDue (s : State) (l : Nat) : Bool :=
  decide (l < 96) && linkAlert (s.link l) && decide ((s.link l).st = 2) && decide ((s.link l).serving = 0) && !routineBusy s

/-- What an action of LINK_SERVICE makes of its link. -/
def serviceOf (c : CmdRec) : Nat :=
  match (c.p.getD 1 0).toNat % 256 with
  | 1 => serveNow
  | 3 => serveDown
  | _ => serveUp

/-- The first LINK_SERVICE on a link that has not ended can begin: the link is not being served, nor the routine busy when it is to run it
(16 R400, 17 R444, R445). -/
def startDue (s : State) (l : Nat) : Option CmdRec :=
  match s.fw.long.find? fun p => decide (p.1 = 0x17) && decide ((p.2.p.getD 0 0).toNat = l) with
  | some p => if (s.link l).serving = 0 ∧ (serviceOf p.2 ≠ serveNow ∨ routineBusy s = false) then some p.2 else none
  | none => none

/-- A service that can begin does. -/
def State.beginService (s : State) (l : Nat) : State :=
  match startDue s l with
  | some c => s.setLink l fun x => { x with serving := serviceOf c, asked := true }
  | none => s

/-- The routine takes up a link whose alert is set, and goes on with its scan behind it. -/
def State.beginRoutine (s : State) (l : Nat) : State :=
  (s.setLink l fun x => { x with serving := serveNow }).setFw fun f => { f with scan := (l + 1) % 96 }

/-- LINK_SERVICE_ROUTINE (17 R444): the next step of the routine on a link. -/
def execLinkServiceRoutine (l : Nat) (s : State) : Out :=
  if serveDue (s.link l) then done (s.serveStep l)
  else if (startDue s l).isSome then done ((s.beginService l).serveStep l)
  else if alertDue s l then done ((s.beginRoutine l).serveStep l)
  else done s

/-- Cycles a link stays in a state that ends by itself: a hold 2 us, a retrain 12 us, a train 30 us at most (17 R442). -/
def stayOf (x : Link) : Nat := if x.st = 3 then 7200 else if x.st = 5 then 43200 else 108000

/-- What a link that is holding, retraining or training does next. -/
def linkAuto (s : State) (l : Nat) : Option Ev :=
  let x := s.link l
  let late := decide (x.since + stayOf x ≤ s.tick)
  if x.st = 3 then if x.stuck = 0 then some (.holdDrained l) else if late then some (.holdTimeout l) else none
  else if (x.st = 1 ∨ x.st = 5) ∧ late = true then some (.laneTestDone l x.lanes x.spares)
  else if serveDue x || (startDue s l).isSome then some (.linkServiceRoutine l)
  else none

/-- The next link of the scan whose alert is set: the routine goes through the links in ascending id and begins again behind the last
(17 R444). -/
def scanNext (s : State) : Option Ev :=
  (((List.range 96).map fun i => (s.fw.scan + i) % 96).find? (alertDue s)).map .linkServiceRoutine

/-- A message at the ports that a strand of this package can take now. -/
def portNext (s : State) : Option Ev :=
  (s.fw.ports.find? fun m => (portTakes s m).isSome).map fun m => .flezilForward m.1.toNat m.2.1.toNat m.2.2

/-- What the links do next by themselves. -/
def linkNext (s : State) : Option Ev :=
  if (portNext s).isSome then portNext s else
  if s.links.toList.any (windowOver s) then some .errorWindowClose else
  match (List.range 112).findSome? (linkAuto s) with
  | some e => some e
  | none => scanNext s

end Sys2Proof.Machine
end

