-- ==== Sys2Proof/Machine/Tables.lean ====
section
/-! DEFINITION. What every driver command shares (16 R399, R400, R404), page tables and the commands over frames and mappings
(16 R410-R424). -/

namespace Sys2Proof.Machine

open Sys2Proof

/-! ## Commands (16 R399, R404) -/

/-- Parameter i of a command. -/
def par (c : CmdRec) (i : Nat) : Nat := (c.p.getD i 0).toNat

/-- Context of a command. -/
def cctx (c : CmdRec) : Nat := c.ctx.toNat

/-- Commands that a checkpoint does not bar (16 R434). -/
def allowedInCkpt (code : Nat) : Bool := code = 2 || code = 0x15 || code = 0x16 || code = 0x1B || code = 0x1C

/-- Checks before any effect (16 R404): parameters a command does not use are zero, it names a live context or none, and no
checkpoint bars it. `used` is the mask of its parameters. -/
def refuseCmd (s : State) (code : Nat) (named : Bool) (used : Nat) (c : CmdRec) : Option Nat :=
  if (List.range 12).any (fun i => !bit used i && decide (par c i ≠ 0)) || (!named && decide (cctx c ≠ 0)) then some 2
  else if named && (s.ctxOf (cctx c)).isNone then some 4
  else if s.fw.ckpt.isSome && !allowedInCkpt code then some 0xE
  else none

/-- Run a command after its checks; each answers exactly once (16 R400). -/
def State.command (s : State) (code : Nat) (named : Bool) (used : Nat) (c : CmdRec) (f : State → State) : State :=
  match refuseCmd s code named used c with
  | some st => s.reply c code st 0 0
  | none => f s

/-- What a command body answers: the state and its first result, or a status without effect. -/
abbrev CmdOut := State × Nat ⊕ Nat

/-- A command that ends at once. -/
def State.simple (s : State) (code : Nat) (named : Bool) (used : Nat) (c : CmdRec) (f : State → CmdOut) : State :=
  s.command code named used c fun s =>
    match f s with
    | .inl (s1, r) => s1.reply c code 0 (BitVec.ofNat 64 r) 0
    | .inr st => s.reply c code st 0 0

/-- Status codes of 16 R404. -/
def stBusy : Nat := 1
/-- INVALID. -/
def stInvalid : Nat := 2
/-- NO_RESOURCE. -/
def stNoResource : Nat := 5
/-- EXISTS. -/
def stExists : Nat := 6
/-- NOT_FOUND. -/
def stNotFound : Nat := 7
/-- KIND. -/
def stKind : Nat := 8

/-! ## Tables (16 R416-R418) -/

/-- Address of page table number i: eight to a frame, in the 64 firmware frames below the black box of each die, 512 to a die. -/
def tableAddr (i : Nat) : Nat := sram (i / 512) (2 ^ 30 - 65 * 65536 + i % 512 * 8192)

/-- Number of the table at an address. -/
def tableNo (a : Nat) : Nat := (a - 0x80000000000) / 2 ^ 30 * 512 + (a % 2 ^ 30 - (2 ^ 30 - 65 * 65536)) / 8192

/-- Zero a range of physical memory. -/
def State.zeroRange (s : State) (a n : Nat) : State :=
  { s with mem := s.mem.filter fun c => !(decide (a ≤ c.1) && decide (c.1 < a + n))
           poison := s.poison.filter fun g => !(decide (a ≤ g * 8) && decide (g * 8 < a + n)) }

/-- Allocate a table of a level, zeroed; none when the firmware frames are full. -/
def State.newTable (s : State) (level : Nat) : Option (Nat × State) :=
  let used := s.fw.ptUsed.map (·.1)
  let i := firstFree used used.length 0
  if 2048 ≤ i then none
  else some (tableAddr i, (s.zeroRange (tableAddr i) 8192).setFw fun f => { f with ptUsed := (i, level, 1) :: f.ptUsed })

/-- Entries of a table that are valid: byte 0 is odd. -/
def validEntries (s : State) (t : Nat) : List Nat :=
  (s.mem.filter fun c => decide (t ≤ c.1) && decide (c.1 < t + 8192) && decide (c.1 % 8 = 0) && c.2.getLsbD 0).map (·.1)

/-- Change the count of references to a table. -/
def State.tableRefs (s : State) (t : Nat) (f : Nat → Nat) : State :=
  s.setFw fun w => { w with ptUsed := w.ptUsed.map fun p => if p.1 = tableNo t then (p.1, p.2.1, f p.2.2) else p }

/-- Nothing read through a table stays cached. -/
def State.dropLinesOf (s : State) (t : Nat) : State :=
  { s with tlb := s.tlb.filter fun e => !e.lines.any fun l => decide (l / 8192 * 8192 = t)
           walks := s.walks.filter fun w => !decide (w.at0 / 8192 * 8192 = t) }

/-- Drop one reference to a table; the last one frees it and drops its references to lower tables. `n` bounds the levels. -/
def State.dropTable (s : State) (t : Nat) : Nat → State
  | 0 => s
  | n + 1 =>
    match s.fw.ptUsed.find? fun p => decide (p.1 = tableNo t) with
    | none => s
    | some (i, level, refs) =>
      if 1 < refs then s.tableRefs t (· - 1)
      else
        let subs := if level = 0 then [] else (validEntries s t).filter fun a => !bit (s.loadNat (.mem a) 8) 1
        let s1 : State := subs.foldl (fun s a => s.dropTable (fld (s.loadNat (.mem a) 8) 13 31 * 8192) n) s
        ((s1.zeroRange t 8192).dropLinesOf t).setFw fun f => { f with ptUsed := f.ptUsed.filter fun p => !decide (p.1 = i) }

/-- Firmware writes one entry (16 R416). -/
def State.writeEntry (s : State) (a e : Nat) : State := s.put (.mem a) (natLE 8 e)

/-- Firmware changes an entry that was valid: what the TLBs and walk caches hold of its line goes (16 R420). -/
def State.changeEntry (s : State) (a e : Nat) : State := (s.writeEntry a e).dropCached (a / 64 * 64)

/-! ## Accesses through changed entries (16 R420) -/

/-- Frames that a leaf of a level covers: the first and how many. -/
def leafFrames (e level : Nat) : Nat × Nat := (fld e 16 28, 2 ^ (10 * level))

/-- The frames that the entries of a table reach; `n` is the table's level. -/
def framesUnder (s : State) : Nat → Nat → List (Nat × Nat)
  | 0, t => (validEntries s t).map fun a => leafFrames (s.loadNat (.mem a) 8) 0
  | n + 1, t => (validEntries s t).flatMap fun a =>
      let e := s.loadNat (.mem a) 8
      if bit e 1 then [leafFrames e (n + 1)] else framesUnder s n (fld e 13 31 * 8192)

/-- The frames that one entry of a level reaches. -/
def framesOfEntry (s : State) (e level : Nat) : List (Nat × Nat) :=
  if !bit e 0 then []
  else if bit e 1 || decide (level = 0) then [leafFrames e level]
  else framesUnder s (level - 1) (fld e 13 31 * 8192)

/-- A place lies in some frames. -/
def inFrames (s : State) (rs : List (Nat × Nat)) (l : Loc) : Bool :=
  let f := match l with
    | .mem k => k / 65536
    | .tile v off => s.framePa v off / 65536
  rs.any fun r => decide (r.1 ≤ f) && decide (f < r.1 + r.2)

/-- No access translated before still has to be made in some frames: no store on its way, no place that an engine has still to read or
write (16 R420). -/
def settled (s : State) (rs : List (Nat × Nat)) : Bool :=
  (s.homes.posted.all fun p => !inFrames s rs p.loc) && s.cmds.all fun c => (c.toWrite ++ c.src.flatten ++ c.dst.flatten).all fun l => !inFrames s rs l

/-- A changed table is in force: the command is answered once the accesses through the old entries are over. -/
def State.settle (s : State) (code : Nat) (c : CmdRec) (r : Nat) (rs : List (Nat × Nat)) : State :=
  if settled s rs then s.reply c code 0 (BitVec.ofNat 64 r) 0
  else s.setFw fun f => { f with settling := f.settling ++ [(code, c, r, rs)], long := f.long ++ [(code, c)] }

/-- The entry of a command that waits in `settling`. -/
def settlingOf (s : State) (code : Nat) (c : CmdRec) : Option (Nat × CmdRec × Nat × List (Nat × Nat)) :=
  s.fw.settling.find? fun q => decide (q.1 = code) && decide (q.2.1 = c)

/-- End the wait of such a command where it is over. -/
def State.settleEnd (s : State) (q : Nat × CmdRec × Nat × List (Nat × Nat)) : State :=
  if settled s q.2.2.2 then
    (s.setFw fun f => { f with settling := f.settling.erase q, long := f.long.erase (q.1, q.2.1) }).reply q.2.1 q.1 0 (BitVec.ofNat 64 q.2.2.1) 0
  else s

/-- A leaf entry (16 R417). P4 of MAP names r, w and x from the highest bit down, as it spells them (16 R405; log 31). -/
def leafEntry (pa kind rwx : Nat) : Nat :=
  pa / 65536 * 65536 + kind * 512 + fld rwx 0 1 * 16 + fld rwx 1 1 * 8 + fld rwx 2 1 * 4 + 3

/-- An entry that points to a table. -/
def tableEntry (t : Nat) : Nat := t + 1

/-- Where the entry of a VA at a level stands: the address, or what stops the walk on the way. -/
inductive Slot where
  | at (a : Nat)
  | missing
  | taken
  deriving DecidableEq, Repr

/-- The level at which the entry of a page size lies. -/
def leafLevel (size : Nat) : Nat := Nat.min size 2

/-- Walk down to the entry of a VA at a level without changing anything: `level` is the level of table `t`. -/
def slotFrom (s : State) (va target : Nat) : Nat → Nat → Slot
  | 0, t => .at (t + 8 * levelIndex 0 va)
  | n + 1, t =>
    let a := t + 8 * levelIndex (n + 1) va
    if n + 1 = target then .at a
    else
      let e := s.loadNat (.mem a) 8
      if !bit e 0 then .missing else if bit e 1 then .taken else slotFrom s va target n (fld e 13 31 * 8192)

/-- The entry of a VA at a level in a context. -/
def slotOfVa (s : State) (root va target : Nat) : Slot := slotFrom s va target 3 root

/-- The same, allocating the tables that are missing. -/
def State.makeSlot (s : State) (va target : Nat) : Nat → Nat → Option (Nat × State)
  | 0, t => some (t + 8 * levelIndex 0 va, s)
  | n + 1, t =>
    let a := t + 8 * levelIndex (n + 1) va
    if n + 1 = target then some (a, s)
    else
      let e := s.loadNat (.mem a) 8
      if bit e 0 then s.makeSlot va target n (fld e 13 31 * 8192)
      else
        match s.newTable n with
        | none => none
        | some (t', s1) => (s1.writeEntry a (tableEntry t')).makeSlot va target n t'

/-- Bytes of a page of a size code. -/
def pageSize (size : Nat) : Nat := 2 ^ (16 + 10 * leafLevel size)

/-- First VA that is never translated (16 R416). -/
def vaEnd : Nat := 0x00FC000000000000

/-- Frames a page of a size covers. -/
def pageFrames (pa size : Nat) : List Nat := (List.range (pageSize size / 65536)).map fun i => pa / 65536 + i

/-- MAP refuses a PA that is no memory and no aperture (16 R410, 17 R449). -/
def pagePaOk (pa size : Nat) : Bool :=
  if pa / 2 ^ 42 = 1 ∨ pa / 2 ^ 42 = 3 then decide (pa + pageSize size ≤ (pa / 2 ^ 42 + 1) * 2 ^ 42)
  else (pageFrames pa size).all fun f => paExists (f * 65536)

/-- Frames of backing memory (12 R367). -/
def isBacking (f : Nat) : Bool := decide (f ≤ 7812351) && decide (30485 ≤ f / 256)

/-- The frames have the kind that MAP names; an aperture needs plain (17 R449), and backing memory is refused (12 R367). -/
def pageKindOk (s : State) (pa size kind : Nat) : Bool :=
  if paExists pa then (pageFrames pa size).all fun f => decide (kindCode (s.kindOf f) = kind) && !isBacking f else decide (kind = 0)

/-- The pages of a MAP or UNMAP. -/
def pageVas (c : CmdRec) : List Nat := (List.range (par c 3)).map fun i => par c 0 + i * pageSize (par c 2)

/-- VA, size and count are in range and aligned (16 R418). -/
def vaOk (c : CmdRec) : Bool :=
  decide (par c 2 ≤ 3) && decide (par c 0 % pageSize (par c 2) = 0) && decide (par c 0 + par c 3 * pageSize (par c 2) ≤ vaEnd)

/-- MAP of leaves (16 R418). -/
def mapLeaves (s : State) (c : CmdRec) (root : Nat) : CmdOut :=
  let size := par c 2
  let kind := fld (par c 4) 4 3
  let rwx := par c 4 % 8
  let pages := (pageVas c).map fun va => (va, par c 1 + (va - par c 0))
  if par c 1 % pageSize size ≠ 0 ∨ 5 ≤ kind ∨ fld (par c 4) 3 1 ≠ 0 ∨ 128 ≤ par c 4 ∨ par c 5 ≠ 0 ∨
      pages.any (fun p => !pagePaOk p.2 size) then .inr stInvalid
  else if pages.any fun p => match slotOfVa s root p.1 (leafLevel size) with
      | .at a => bit (s.loadNat (.mem a) 8) 0
      | .missing => false
      | .taken => true then .inr stExists
  else if pages.any fun p => !pageKindOk s p.2 size kind then .inr stKind
  else
    match pages.foldl (fun (x : Option State) p => x.bind fun s =>
        (s.makeSlot p.1 (leafLevel size) 3 root).map fun y => y.2.writeEntry y.1 (leafEntry p.2 kind rwx)) (some s) with
    | some s1 => .inl (s1, 0)
    | none => .inr stNoResource

/-- The level-1 table that a context uses at a VA; none without one. -/
def linkTarget (s : State) (ctx va : Nat) : Option Nat :=
  match s.ctxOf ctx with
  | none => none
  | some c =>
    match slotOfVa s c.root va 2 with
    | .at a =>
      let e := s.loadNat (.mem a) 8
      if bit e 0 && !bit e 1 then some (fld e 13 31 * 8192) else none
    | _ => none

/-- MAP of links (16 R418); the addresses of the source lie in the global space too. -/
def mapLinks (s : State) (c : CmdRec) (root : Nat) : CmdOut :=
  let vas := pageVas c
  let src := fun (va : Nat) => par c 5 + (va - par c 0)
  let linked := ((s.ctxOf (par c 1)).map (·.linked)).getD []
  if par c 4 ≠ 0 ∨ par c 5 % pageSize 2 ≠ 0 ∨ vas.any (fun va => decide (0x00FC000000000000 ≤ src va)) ∨ vas.any (fun va => linked.contains (src va / 2 ^ 36)) then .inr stInvalid
  else if vas.any fun va => match slotOfVa s root va 2 with
      | .at a => bit (s.loadNat (.mem a) 8) 0
      | .missing => false
      | .taken => true then .inr stExists
  else if vas.any fun va => (linkTarget s (par c 1) (src va)).isNone then .inr stNotFound
  else
    match vas.foldl (fun (x : Option State) va => x.bind fun s =>
        match linkTarget s (par c 1) (src va), s.makeSlot va 2 3 root with
        | some t, some (a, s1) => some ((s1.writeEntry a (tableEntry t)).tableRefs t (· + 1))
        | _, _ => none) (some s) with
    | some s1 => .inl (s1.updCtx (cctx c) fun x => { x with linked := vas.map (· / 2 ^ 36) ++ x.linked }, 0)
    | none => .inr stNoResource

/-- MAP (16 R418). -/
def execMap (c : CmdRec) (s : State) : Out :=
  done (s.simple 4 true 0x3F c fun s =>
    match s.ctxOf (cctx c) with
    | none => .inr stInvalid
    | some x => if !vaOk c then .inr stInvalid else if par c 2 = 3 then mapLinks s c x.root else mapLeaves s c x.root)

/-- The entry that UNMAP of a size removes stands there. -/
def mappedSlot (s : State) (x : Ctx) (va size : Nat) : Option Nat :=
  match slotOfVa s x.root va (leafLevel size) with
  | .at a =>
    let e := s.loadNat (.mem a) 8
    if !bit e 0 then none
    else if size = 3 then (if x.linked.contains (va / 2 ^ 36) && !bit e 1 then some a else none)
    else if bit e 1 || decide (size = 0) then some a
    else none
  | _ => none

/-- Frames that the entries which UNMAP removes reach. -/
def unmapFrames (s : State) (x : Ctx) (c : CmdRec) : List (Nat × Nat) :=
  (pageVas c).flatMap fun va => match mappedSlot s x va (par c 2) with
    | some a => framesOfEntry s (s.loadNat (.mem a) 8) (leafLevel (par c 2))
    | none => []

/-- Remove the entries that UNMAP names. -/
def State.unmapAll (s : State) (x : Ctx) (c : CmdRec) : State :=
  let s1 : State := (pageVas c).foldl (fun s va =>
    match mappedSlot s x va (par c 2) with
    | none => s
    | some a =>
      let t := fld (s.loadNat (.mem a) 8) 13 31 * 8192
      let s1 := s.changeEntry a 0
      if par c 2 = 3 then s1.dropTable t 3 else s1) s
  if par c 2 = 3 then s1.updCtx x.id fun x =>
      { x with linked := x.linked.filter fun i => !(pageVas c).any fun va => decide (va / 2 ^ 36 = i) }
  else s1

/-- UNMAP (16 R418, R420): all entries go, or none; the reply follows the last access through them. -/
def execUnmap (c : CmdRec) (s : State) : Out :=
  match settlingOf s 5 c with
  | some q => done (s.settleEnd q)
  | none =>
    done (s.command 5 true 0xD c fun s =>
      let answer := fun (st : Nat) => s.reply c 5 st 0 0
      match s.ctxOf (cctx c) with
      | none => answer stInvalid
      | some x =>
        if !vaOk c then answer stInvalid
        else if (pageVas c).any fun va => (mappedSlot s x va (par c 2)).isNone then answer stNotFound
        else (s.unmapAll x c).settle 5 c 0 (unmapFrames s x c))

/-! ## Repair of a table line (16 R422, R423) -/

/-- FRES retry by firmware for a capability it holds; a freed entry lets in what waits (16 R403, R423). -/
def State.retryHeld (s : State) (h : FwCap) : State :=
  match s.capStrand h.cap with
  | none => s.freeHandle h.handle
  | some o =>
    let s1 := s.retryCap h o
    s1.admitCaps s1.fw.capWait.length

/-- A line of a table in use. -/
def liveLine (s : State) (pa : Nat) : Bool := s.fw.ptUsed.any fun p => decide (tableAddr p.1 ≤ pa) && decide (pa < tableAddr p.1 + 8192)

/-- The frames that the leaves of a line reach before it is repaired. -/
def lineFrames (s : State) (pa : Nat) : List (Nat × Nat) :=
  match s.fw.ptUsed.find? fun p => decide (tableAddr p.1 ≤ pa) && decide (pa < tableAddr p.1 + 8192) with
  | some p => (List.range 8).flatMap fun i => framesOfEntry s (s.loadNat (.mem (pa + 8 * i)) 8) p.2.1
  | none => []

/-- PTE_REPAIR (16 R423): the line is written, cached entries go, the line is unblocked, the capabilities parked on it are retried, and
the reply follows the last access through an old entry (16 R420). -/
def execPteRepair (c : CmdRec) (s : State) : Out :=
  match settlingOf s 6 c with
  | some q => done (s.settleEnd q)
  | none =>
    let pa := par c 0
    done (s.command 6 false 0x1FF c fun s =>
      let answer := fun (st : Nat) => s.reply c 6 st 0 0
      if pa % 64 ≠ 0 ∨ paExists pa = false then answer stInvalid
      else if s.kindOf (pa / 65536) ≠ .firmware then answer stKind
      else if !s.fw.blocked.contains pa && !liveLine s pa then answer stNotFound
      else
        let bytes := (List.range 8).flatMap fun i => natLE 8 (par c (i + 1))
        let s1 := ((s.put (.mem pa) bytes).dropCached pa).setFw fun f =>
          { f with blocked := f.blocked.filter fun l => !decide (l = pa), ueSeen := f.ueSeen.filter fun u => !decide (u.1 = pa) }
        let parked := s1.fw.caps.filter fun h => decide (h.line = some pa)
        let s2 : State := parked.foldl (fun s h => s.retryHeld h) s1
        s2.settle 6 c parked.length (lineFrames s pa))

/-! ## Frames (16 R412-R414) -/

/-- Pieces of frames that a version holds. -/
def verFrames (v : Ver) : List Nat := (v.frames ++ v.hbm).map (· / 65536)

/-- A frame of a trace buffer that is assigned (16 R415). -/
def traceFrame (s : State) (f : Nat) : Bool :=
  s.cores.any fun c => c.trcOn && decide (c.trcBase ≤ f) && decide (f < c.trcBase + c.trcFrames)

/-- A frame in use by a version, a trace buffer or firmware (02 R90, 16 R413). -/
def frameUsed (s : State) (f : Nat) : Bool :=
  decide (s.kindOf f = .firmware) || traceFrame s f || s.homes.vers.any fun v => (verFrames v).contains f

/-- A frame of the cache portion of a die's stacked SRAM (16 R411). -/
def cacheFrame (s : State) (f : Nat) : Bool := decide (defaultKind s.fw.carve f = .none) && paExists (f * 65536)

/-- FRAME_KIND_SET (16 R413, 02 R90). A frame of the cache portion can be given no kind (log 29). -/
def execFrameKindSet (c : CmdRec) (s : State) : Out :=
  let fs := (List.range (par c 1)).map fun i => par c 0 / 65536 + i
  done (s.simple 7 false 7 c fun s =>
    if par c 0 % 65536 ≠ 0 ∨ 5 ≤ par c 2 ∨ fs.any (fun f => !paExists (f * 65536)) then .inr stInvalid
    else if fs.any (frameUsed s) then .inr stBusy
    else if par c 2 = 4 ∨ fs.any (cacheFrame s) then .inr stKind
    else .inl (fs.foldl (fun s f => s.setKind f (kindOfCode (par c 2))) s, fs.length))

/-- Leaves of all tables: address of the entry, level, frame. -/
def allLeaves (s : State) : List (Nat × Nat × Nat) :=
  s.fw.ptUsed.flatMap fun p =>
    (validEntries s (tableAddr p.1)).filterMap fun a =>
      let e := s.loadNat (.mem a) 8
      if bit e 1 || decide (p.2.1 = 0) then some (a, p.2.1, fld e 16 28) else none

/-- A leaf names a frame. -/
def leafNames (f : Nat) (l : Nat × Nat × Nat) : Bool := decide (l.2.2 ≤ f) && decide (f < l.2.2 + 2 ^ (10 * l.2.1))

/-- A frame takes part in a migration that is not over. -/
def migrating (s : State) (f : Nat) : Bool := s.fw.migrate.any fun m => decide (m.1 = f) || decide (m.2.1 = f)

/-- FRAME_MIGRATE (16 R414): the copy begins; accesses to the frame park until it is done. A frame that a larger page covers is in
use (log 29). -/
def execFrameMigrate (c : CmdRec) (s : State) : Out :=
  let src := par c 0 / 65536
  let dst := par c 1 / 65536
  done (s.command 8 false 3 c fun s =>
    let answer := fun (st : Nat) => s.reply c 8 st 0 0
    if par c 0 % 65536 ≠ 0 ∨ par c 1 % 65536 ≠ 0 ∨ paExists (par c 0) = false ∨ paExists (par c 1) = false ∨ src = dst then
      answer stInvalid
    else if !(decide (s.kindOf src = .plain) || decide (s.kindOf src = .carved)) || traceFrame s src || migrating s src || migrating s dst ||
        (allLeaves s).any (fun l => leafNames src l && decide (l.2.1 ≠ 0)) then answer stBusy
    else if s.kindOf dst ≠ s.kindOf src ∨ (allLeaves s).any (leafNames dst) then answer stKind
    else s.setFw fun f => { f with migrate := f.migrate ++ [(src, dst, c)], long := f.long ++ [(8, c)] })

/-- Copy a frame with its poison. -/
def State.copyFrame (s : State) (src dst : Nat) : State :=
  let bytes := (s.mem.filter fun c => decide (c.1 / 65536 = src)).map fun c => (c.1 % 65536, c.2)
  let bad := (s.poison.filter fun g => decide (g * 8 / 65536 = src)).map fun g => g % 8192 + dst * 8192
  let s1 := s.zeroRange (dst * 65536) 65536
  let s2 : State := bytes.foldl (fun s b => s.put (.mem (dst * 65536 + b.1)) [b.2]) s1
  { s2 with poison := bad ++ s2.poison }

/-! What moves with a frame: the accesses that park on it resume at the new one (16 R414). -/

/-- Where a number of 2^n-byte units of the source frame is in the destination. -/
def movedUnit (src dst n a : Nat) : Nat := if a / 2 ^ (16 - n) = src then dst * 2 ^ (16 - n) + a % 2 ^ (16 - n) else a

/-- A place after the move. -/
def Loc.moved (src dst : Nat) : Loc → Loc
  | .mem k => .mem (movedUnit src dst 0 k)
  | .tile v off => .tile v off

/-- A condition after the move. -/
def Cond.moved (src dst : Nat) : Cond → Cond
  | .counter l t => .counter (movedUnit src dst 0 l) t
  | .zero l => .zero (movedUnit src dst 0 l)
  | .seq f i t => .seq f i t
  | .ver sp n t => .ver sp n t

/-- A command after the move. -/
def Cmd.moved (src dst : Nat) (c : Cmd) : Cmd :=
  { c with src := c.src.map (·.map (Loc.moved src dst)), dst := c.dst.map (·.map (Loc.moved src dst))
           pieces := c.pieces.map fun p => { p with dst := p.dst.map (Loc.moved src dst) } }

/-- Objects and caches give the source frame up before it is copied: partials are merged, copies dropped (02 R66). -/
def State.gatherFrame (s : State) (src : Nat) : State :=
  let keys := (s.homes.coh.map (·.1)).filter fun k => (List.range 256).any fun i => inKey s k (src * 65536 + 256 * i)
  let s1 : State := keys.foldl (fun s k => s.resetKey k) s
  s1.setHomes fun h => { h with lines := h.lines.filter fun l => !decide (l.line / 1024 = src) }

/-- Everything that names places of the source frame by address names those of the destination; the destination's own remains in caches
and line buffers go. -/
def State.renameFrame (s : State) (src dst : Nat) : State :=
  let cond := Cond.moved src dst
  let s1 := s.setHomes fun h =>
    { h with objs := h.objs.map fun b => { b with granules := b.granules.map (movedUnit src dst 8) }
             coh := h.coh.filter fun p => match p.1 with
               | .gran g => !decide (g / 256 = dst)
               | .obj _ => true
             lines := h.lines.filter fun l => !decide (l.line / 1024 = dst)
             resv := h.resv.map fun q => { q with loc := movedUnit src dst 0 q.loc }
             posted := h.posted.map fun p => { p with loc := p.loc.moved src dst, pa := p.pa.map (movedUnit src dst 0) }
             wframes := h.wframes.map fun w => { w with conds := w.conds.map cond } }
  let strand := fun (o : Strand) => { o with await := o.await.map cond }
  { s1 with me := strand s1.me, others := s1.others.map strand, cmds := s1.cmds.map (Cmd.moved src dst)
            cores := s1.cores.map fun c => { c with line := c.line.filter fun l => !(decide (l.1 / 1024 = src) || decide (l.1 / 1024 = dst)) } }

/-- FRAME_MIGRATE_COPY_DONE (16 R414): every PTE that names the source of the oldest migration names the destination, and the command is
answered. -/
def execFrameMigrateCopyDone (s : State) : Out :=
  match s.fw.migrate with
  | [] => done s
  | (src, dst, c) :: rest =>
    let s1 := ((s.gatherFrame src).copyFrame src dst).renameFrame src dst
    let s2 : State := ((allLeaves s1).filter fun l => decide (l.2.2 = src) && decide (l.2.1 = 0)).foldl (fun s l =>
      s.changeEntry l.1 (s.loadNat (.mem l.1) 8 % 65536 + dst * 65536)) s1
    let s3 := s2.setFw fun f =>
      { f with migrate := rest, long := f.long.filter fun q => !decide (q = (8, c))
               settling := f.settling.map fun q => (q.1, q.2.1, q.2.2.1, (dst, 1) :: q.2.2.2) }
    done ((s3.reply c 8 0 0 0).unpark)

/-- Frames of a die that are carved between two numbers of units. -/
def inUnits (die lo hi f : Nat) : Bool :=
  decide (0x8000000 + die * 16384 ≤ f) && decide (f < 0x8000000 + (die + 1) * 16384) &&
    (let top := 16383 - (f - 0x8000000) % 16384
     decide (65 + 1024 * lo ≤ top) && decide (top < 65 + 1024 * hi))

/-- Versions with a frame among some. -/
def versIn (s : State) (p : Nat → Bool) : List Ver := s.homes.vers.filter fun v => v.frames.any fun a => p (a / 65536)

/-- Frames of a die that tiles lie in, each once. -/
def busyFrames (s : State) (die : Nat) : Nat := ((s.tileFrames die).filter fun f => s.usedFrames.contains f).length

/-- A version that can be moved to HBM4 now. -/
def canRack (s : State) (v : Ver) : Bool := decide (v.st = .afloat) && (s.takeRack (s.verDie v) v.cls).isSome

/-- The units that CARVE takes are clear, and the tile frames that stay leave the cache its 2,048 frames (16 R411, R412). -/
def carveClear (s : State) (die n : Nat) : Bool :=
  (versIn s (inUnits die (s.fw.carve.getD die 0) n)).isEmpty && decide (busyFrames s die ≤ roomBeside n)

/-- The version that CARVE moves next: one in the units it takes, else, while the cache would be left too small, the least recently used
of the die. -/
def carveNext (s : State) (die n : Nat) : Option Ver :=
  let inside := versIn s (inUnits die (s.fw.carve.getD die 0) n)
  if inside.isEmpty then
    if busyFrames s die ≤ roomBeside n then none
    else ((s.onDie die).filter (canRack s)).foldl (fun (b : Option Ver) v => match b with
      | some x => if v.used < x.used then some v else some x
      | none => some v) none
  else inside.find? (canRack s)

/-- Move versions to HBM4 while one that has to go can; `k` bounds them. -/
def State.carveMove (s : State) (die n : Nat) : Nat → State
  | 0 => s
  | k + 1 =>
    match carveNext s die n with
    | none => s
    | some v =>
      match s.takeRack (s.verDie v) v.cls with
      | some fs => (s.updVer v.uid fun v => { v with st := .racked, frames := [], hbm := fs }).carveMove die n k
      | none => s

/-- A die has its new number of carved units; the frames that changed hands have the kind of their place, and tile frames with nothing
on them go back to the cache where it would be too small. -/
def State.setUnits (s : State) (die n : Nat) : State :=
  let old := s.fw.carve.getD die 0
  let idle := if (s.tileFrames die).length ≤ roomBeside n then [] else (s.tileFrames die).filter fun f => !s.usedFrames.contains f
  s.setFw fun f =>
    { f with carve := f.carve.setIfInBounds die n
             fkinds := f.fkinds.filter fun k => !(inUnits die (Nat.min old n) (Nat.max old n) k.1 || idle.contains k.1) }

/-- Raising the number of units (16 R412): versions are moved, and the reply comes when the units are clear. -/
def State.carveOn (s : State) (c : CmdRec) : State :=
  let die := par c 0
  let n := par c 1
  let s1 := s.carveMove die n s.homes.vers.length
  if carveClear s1 die n then
    ((s1.setUnits die n).setFw fun f => { f with long := f.long.erase (9, c) }).reply c 9 0 0 0
  else s1

/-- A CARVE that waits can go on. -/
def carveDue (s : State) (q : Nat × CmdRec) : Bool :=
  decide (q.1 = 9) && (carveClear s (par q.2 0) (par q.2 1) || (carveNext s (par q.2 0) (par q.2 1)).isSome)

/-- A PTE or a trace buffer names one of some frames. -/
def framesNamed (s : State) (p : Nat → Bool) : Bool :=
  ((allLeaves s).any fun l => (List.range (2 ^ (10 * l.2.1))).any fun i => p (l.2.2 + i)) ||
    s.cores.any fun c => c.trcOn && (List.range c.trcFrames).any fun i => p (c.trcBase + i)

/-- CARVE (16 R412). -/
def execCarve (c : CmdRec) (s : State) : Out :=
  if s.fw.long.contains (9, c) then done (s.carveOn c)
  else
    let die := par c 0
    let n := par c 1
    done (s.command 9 false 3 c fun s =>
      let old := s.fw.carve.getD die 0
      if 4 ≤ die ∨ 12 < n then s.reply c 9 stInvalid 0 0
      else if old ≤ n then (s.setFw fun f => { f with long := f.long ++ [(9, c)] }).carveOn c
      else if framesNamed s (inUnits die n old) then s.reply c 9 stBusy 0 0
      else (s.setUnits die n).reply c 9 0 0 0)

/-- TIER_CONFIG (16 R405): the rack age of one slice or of all. -/
def execTierConfig (c : CmdRec) (s : State) : Out :=
  done (s.simple 0xA false 3 c fun s =>
    if (143 < par c 0 ∧ par c 0 ≠ 0xFFFF) ∨ par c 1 = 0 ∨ 1000000 < par c 1 then .inr stInvalid
    else
      let sl := if par c 0 = 0xFFFF then List.range 144 else [par c 0]
      .inl (s.setHomes fun h => { h with rackAge := sl.map (fun i => (i, par c 1)) ++ h.rackAge.filter fun p => !sl.contains p.1 }, 0))

end Sys2Proof.Machine
end

