-- ==== Sys2Proof/Machine/Contexts.lean ====
section
/-! DEFINITION. Contexts, their queues and tables (16 R407-R409, R425), pre-emption and capabilities by command (16 R405, R406),
pairing and partition replay (18 R460, R473). -/

namespace Sys2Proof.Machine

open Sys2Proof

/-! ## Contexts (16 R407-R409) -/

/-- A fresh context (16 R407): every UMPVEC entry 0, no queue, no group. -/
def Ctx.fresh (id cls root : Nat) : Ctx :=
  { id := id, maxClass := cls, root := root, umpvec := Vector.replicate 32 0, umparea := 0, group := none, queues := [],
    pairing := false, dying := false, killed := 0, linked := [] }

/-- CTX_CREATE (16 R407): id 0 asks for any, the lowest free one (log 13). -/
def execCtxCreate (c : CmdRec) (s : State) : Out :=
  done (s.simple 1 false 3 c fun s =>
    if 4095 < par c 0 ∨ 7 < par c 1 then .inr stInvalid
    else if par c 0 ≠ 0 ∧ (s.ctxOf (par c 0)).isSome then .inr stExists
    else
      let ids := s.fw.ctxs.map (·.id)
      let id := if par c 0 = 0 then firstFree ids ids.length 1 else par c 0
      if 4095 < id then .inr stNoResource
      else
        match s.newTable 3 with
        | none => .inr stNoResource
        | some (t, s1) => .inl (s1.setFw fun f => { f with ctxs := f.ctxs ++ [Ctx.fresh id (par c 1) t] }, id))

/-- Strands of a context, umpires last. -/
def ctxStrands (s : State) (id : Nat) : List Nat :=
  let l := s.strands.filter fun o => decide (o.ctx = id) && !decide (o.run = .empty)
  ((l.filter fun o => o.ump.isNone) ++ l.filter fun o => o.ump.isSome).map (·.key)

/-- Steps 1 to 3 of CTX_DESTROY (16 R408): every placed launch of the context is killed, whatever keeps it alive (12 R360). -/
def State.destroyStart (s : State) (id : Nat) : State :=
  let keys := ctxStrands s id
  let s1 := s.updCtx id fun x => { x with dying := true, killed := keys.length }
  let s2 : State := (s1.sched.launches.filter fun l => decide (l.ctx = id) && decide (l.st = .accepted)).foldl
    (fun s l => s.dropRecord l 2 0) s1
  let s3 : State := s2.setSched fun d =>
    { d with launches := d.launches.map fun l => if l.ctx = id ∧ l.st = .placed then { l with killed := true } else l }
  keys.foldl (fun s k => s.kill none k false) s3

/-- Step 4: the context's commands and launches are over. -/
def destroyReady (s : State) (id : Nat) : Bool :=
  (s.cmds.all fun c => !decide (c.ctx = id) || (decide (c.st = .finished) && c.signalled)) &&
    s.sched.launches.all fun l => !decide (l.ctx = id)

/-- Step 5: names, objects and versions go, and what firmware holds for the context. -/
def State.destroyData (s : State) (id : Nat) : State :=
  let gone := s.homes.vers.filter fun v => decide (v.space = id)
  let objs := s.homes.objs.filter fun b => decide (b.ctx = id)
  let s1 : State := objs.foldl (fun s b => s.resetKey (.obj b.id)) s
  let s2 := s1.setHomes fun h =>
    { h with objs := h.objs.filter fun b => !decide (b.ctx = id)
             names := h.names.filter fun n => !decide (n.space = id)
             vers := h.vers.filter fun v => !decide (v.space = id) }
  let s3 : State := gone.foldl (fun s v => s.forgetTile v.uid) s2
  let s4 := { s3 with cmds := s3.cmds.filter fun c => !decide (c.ctx = id) }
  let s5 := s4.setFw fun f =>
    { f with caps := f.caps.filter fun h => !decide (capCtx h.cap = id), capWait := f.capWait.filter fun w => !decide (capCtx w.1 = id) }
  s5.admitCaps s5.fw.capWait.length

/-- Step 6: every table goes, and the local memory the context still owns is zeroed (12 R351). -/
def State.destroyMemory (s : State) (x : Ctx) : State :=
  let s1 := (s.dropTable x.root 4).setFw fun f =>
    { f with ctxs := f.ctxs.filter fun c => !decide (c.id = x.id)
             joined := match x.group with
               | some (g, _, r) => f.joined.filter fun j => !decide (j = (g, r))
               | none => f.joined }
  s1.cores.foldl (fun s c =>
    if c.owner = some x.id then
      s.setCore c.id fun c => { c with owner := none, zeroing := if c.clean then c.zeroing else c.zeroing <|> some (s.tick + 2048) }
    else s) s1

/-- Steps 5 and 6. -/
def State.destroyEnd (s : State) (x : Ctx) : State := (s.destroyData x.id).destroyMemory x

/-- A checkpoint ends with ABORTED (16 R434). -/
def State.abortCkpt (s : State) : State :=
  match s.fw.ckpt with
  | none => s
  | some k =>
    let s1 : State := k.vers.foldl (fun s u => s.unref u) s
    (((s1.setSched fun d => { d with hold := d.hold && !decide (k.phase ≤ 2) }).setFw fun f => { f with ckpt := none, long := f.long.filter fun q => !decide (q = (0x10, k.cmd)) }).reply k.cmd 0x10 0xD 0 0).unpark

/-- The destruction can end. -/
def destroyDue (s : State) (q : Nat × CmdRec) : Bool :=
  decide (q.1 = 2) && (s.ctxOf (cctx q.2)).any (·.dying) && destroyReady s (cctx q.2)

/-- Answer a destruction whose waits are over. -/
def State.destroyFinish (s : State) (c : CmdRec) : State :=
  match s.ctxOf (cctx c) with
  | none => s
  | some x => ((s.destroyEnd x).setFw fun f => { f with long := f.long.filter fun q => !decide (q = (2, c)) }).reply c 2 0
      (BitVec.ofNat 64 x.killed) 0

/-- CTX_DESTROY (16 R408): it starts, and ends once its engine commands have. -/
def execCtxDestroy (c : CmdRec) (s : State) : Out :=
  if s.fw.long.contains (2, c) then (if destroyDue s (2, c) then done (s.destroyFinish c) else done s)
  else
    done (s.command 2 true 0 c fun s =>
      let s1 := ((s.abortCkpt).destroyStart (cctx c)).setFw fun f => { f with long := f.long ++ [(2, c)] }
      if destroyDue s1 (2, c) then s1.destroyFinish c else s1)

/-- NAMESPACE_CREATE (16 R409); the package's export window counts for the group (17 R449). -/
def execNamespaceCreate (c : CmdRec) (s : State) : Out :=
  done (s.simple 3 true 7 c fun s =>
    if par c 0 = 0 ∨ 4095 < par c 0 ∨ par c 1 = 0 ∨ 16 < par c 1 ∨ par c 1 ≤ par c 2 then .inr stInvalid
    else if (s.ctxOf (cctx c)).any fun x => x.group.isSome then .inr stExists
    else
      .inl ((s.updCtx (cctx c) fun x => { x with group := some (par c 0, par c 1, par c 2) }).setFw fun f =>
        { f with exports := (f.window.elim f.exports fun w => (par c 0, par c 2, w.1, w.2) ::
                   f.exports.filter fun e => !(decide (e.1 = par c 0) && decide (e.2.1 = par c 2)))
                 joined := if f.joined.contains (par c 0, par c 2) then f.joined else (par c 0, par c 2) :: f.joined }, 0))

/-! ## Queues and the umpire table (16 R405, R425) -/

/-- Change a queue of a context. -/
def State.updQueue (s : State) (ctx q : Nat) (f : LQueue → LQueue) : State :=
  s.updCtx ctx fun x => { x with queues := x.queues.map fun y => if y.id = q then f y else y }

/-- QUEUE_CREATE (16 R425): its class is capped at the context's. -/
def execQueueCreate (c : CmdRec) (s : State) : Out :=
  done (s.simple 0xC true 3 c fun s =>
    if 63 < par c 0 ∨ 7 < par c 1 then .inr stInvalid
    else if (s.queueOf (cctx c) (par c 0)).isSome then .inr stExists
    else
      .inl (s.updCtx (cctx c) fun x =>
        { x with queues := x.queues ++ [{ id := par c 0, maxClass := Nat.min (par c 1) x.maxClass, ring := none, cons := 0, replayWin := 0,
                                          replayLeft := 0, hashA := 0, hashB := 0 }] }, 0))

/-- QUEUE_PRIORITY (16 R425). -/
def execQueuePriority (c : CmdRec) (s : State) : Out :=
  done (s.simple 0xD true 3 c fun s =>
    if 63 < par c 0 ∨ (s.ctxOf (cctx c)).any (fun x => decide (x.maxClass < par c 1)) then .inr stInvalid
    else if (s.queueOf (cctx c) (par c 0)).isNone then .inr stNotFound
    else .inl (s.updQueue (cctx c) (par c 0) fun q => { q with maxClass := par c 1 }, 0))

/-- LAUNCH_WINDOW_CONFIG (16 R425): the ring starts at cons 0; a ring of 0 goes. -/
def execLaunchWindowConfig (c : CmdRec) (s : State) : Out :=
  let ctx := cctx c
  done (s.simple 0xB true 7 c fun s =>
    if 63 < par c 0 ∨ par c 1 % 4096 ≠ 0 ∨ (par c 1 ≠ 0 ∧ (par c 2 < 2 ∨ 10 < par c 2)) then .inr stInvalid
    else if (s.queueOf ctx (par c 0)).isNone then .inr stNotFound
    else if 0 < s.acceptedCount ctx (par c 0) then .inr stBusy
    else if par c 1 = 0 then .inl (s.updQueue ctx (par c 0) fun q => { q with ring := none }, 0)
    else
      .inl ((s.updQueue ctx (par c 0) fun q => { q with ring := some (par c 1, par c 2), cons := 0 }).put (.mem (ckey (par c 1)))
        (natLE 8 0), 0))

/-- UMPIRE_TABLE_SET (16 R405): 32 little-endian entries from companion memory. -/
def execUmpireTableSet (c : CmdRec) (s : State) : Out :=
  done (s.simple 0xE true 3 c fun s =>
    if par c 0 % 8 ≠ 0 ∨ par c 1 % 65536 ≠ 0 then .inr stInvalid
    else
      .inl (s.updCtx (cctx c) fun x =>
        { x with umparea := c.p.getD 1 0, umpvec := Vector.ofFn fun i : Fin 32 => s.word (ckey (par c 0 + 8 * i.val)) }, 0))

/-- Strands outside their slots. -/
def outCount (s : State) : Nat := (s.strands.filter fun o => o.out && !decide (o.run = .empty)).length

/-- PREEMPT (16 R405, 01 R47): the strands of one launch, or of all, are swapped out. -/
def execPreempt (c : CmdRec) (s : State) : Out :=
  done (s.simple 0xF true 1 c fun s =>
    if 2 ^ 56 ≤ par c 0 then .inr stInvalid
    else
      let uids := (s.sched.launches.filter fun l =>
        decide (l.ctx = cctx c) && (decide (par c 0 = 2 ^ 56 - 1) || decide ((l.rcd.getD 15 0).toNat = par c 0))).map (·.uid)
      let keys := (s.strands.filter fun o => uids.any fun u => decide (o.launch = some u)).map (·.key)
      let s1 : State := keys.foldl (fun s k => s.swapAll k) s
      .inl (s1, outCount s1 - outCount s))

/-! ## Capabilities (16 R406) -/

/-- The right an action of CAP_RESOLVE needs. -/
def resolveRight (action : Nat) : Nat := if action ≤ 2 then 2 else if action ≤ 4 then 3 else 4

/-- FRES by firmware (16 R406, 11 R326). -/
def resolveFres (s : State) (h : FwCap) (o : Strand) (m : Resume) : CmdOut :=
  if !o.isFrozen then .inr stInvalid
  else
    match s.replayAs o.key (performAll 8) with
    | .done s1 => .inl ((s1.resume o.key m).freeHandle h.handle, 0)
    | .fault s1 c => .inl (s1.upd o.key fun x => { x with frz := { x.frz with cause := c } }, 0)
    | .wait _ _ => .inr stBusy

/-- Transfer by firmware to the umpire of a receiver word (16 R406, 11 R328). -/
def resolveGive (s : State) (h : FwCap) (o : Strand) (w : Nat) : CmdOut :=
  if bit w 63 ∨ fld w 16 32 ≠ 0 ∨ fld w 53 10 ≠ 0 then .inr stInvalid
  else
    match s.umpire (w % 2 ^ 16) with
    | none => .inr stNotFound
    | some r =>
      let c := maskCap h.cap (fld w 48 5)
      if r.ctx ≠ capCtx h.cap then .inr stInvalid
      else
        match giveCap r c with
        | none => .inr stNoResource
        | some r1 => .inl (((s.endSet o.key).upd r.key fun _ => r1).freeHandle h.handle, 0)

/-- CAP_RESOLVE (16 R406): a stale capability frees its entry and is not found. -/
def execCapResolve (c : CmdRec) (s : State) : Out :=
  done (s.command 0x1E false 7 c fun s =>
    let answer := fun (x : CmdOut) => match x with
      | .inl (s1, r) => s1.reply c 0x1E 0 (BitVec.ofNat 64 r) 0
      | .inr st => s.reply c 0x1E st 0 0
    let a := par c 1
    if 5 < a ∨ (a ≠ 2 ∧ a ≠ 5 ∧ par c 2 ≠ 0) ∨ (a = 2 ∧ par c 2 % 8 ≠ 0) then answer (.inr stInvalid)
    else
      match s.fw.caps.find? fun h => decide (h.handle = par c 0) with
      | none => answer (.inr stNotFound)
      | some h =>
        match s.capStrand h.cap with
        | none => (s.freeHandle h.handle).reply c 0x1E stNotFound 0 0
        | some o =>
          if o.isFrozen && !decide (o.serial.toNat = capSerial h.cap) then (s.freeHandle h.handle).reply c 0x1E stNotFound 0 0
          else if !capRight h.cap (resolveRight a) then answer (.inr 0xE)
          else
            answer (match a with
              | 0 => resolveFres s h o .retry
              | 1 => resolveFres s h o .skip
              | 2 => resolveFres s h o (.redirect (c.p.getD 2 0))
              | 3 => .inl ((s.kill none o.key false).freeHandle h.handle, 0)
              | 4 => .inl ((s.kill none o.key true).freeHandle h.handle, 0)
              | _ => resolveGive s h o (par c 2)))

/-! ## Pairing and replay (18 R460, R473) -/

/-- PAIRING_SET (18 R460). -/
def execPairingSet (c : CmdRec) (s : State) : Out :=
  done (s.simple 0x18 true 1 c fun s =>
    if 1 < par c 0 then .inr stInvalid else .inl (s.updCtx (cctx c) fun x => { x with pairing := decide (par c 0 = 1) }, 0))

/-- PARTITION_REPLAY (18 R473). -/
def execPartitionReplay (c : CmdRec) (s : State) : Out :=
  done (s.simple 0x19 true 3 c fun s =>
    if 63 < par c 0 ∨ 65535 < par c 1 then .inr stInvalid
    else if (s.queueOf (cctx c) (par c 0)).isNone then .inr stNotFound
    else if 0 < s.acceptedCount (cctx c) (par c 0) then .inr stBusy
    else
      .inl ((s.updQueue (cctx c) (par c 0) fun q => { q with replayWin := par c 1, replayLeft := par c 1, hashA := 0, hashB := 0 }).setRas
        fun r => { r with divs := 0, divTag := 0 }, 0))

end Sys2Proof.Machine
end

