-- ==== Sys2Proof/Machine/Fleet.lean ====
section
/-! DEFINITION. Errors and evidence: scrubbing (18 R454-R457), RAS_QUERY and black boxes (18 R459, R465, R466), samples (18 R467,
R468), the debug module (18 R469), trace (18 R470, R471), power and clock (16 R435). -/

namespace Sys2Proof.Machine

open Sys2Proof

/-! ## Scrubbing (18 R454-R457) -/

/-- The field of RASCE that a unit counts in: its low bit. -/
def ceField (unit : Nat) : Nat :=
  match unit with
  | 4 => 48 | 3 => 32 | 2 | 7 => 16 | _ => 0

/-- A corrected error is counted, saturating (18 R454, R458). -/
def State.countCe (s : State) (unit : Nat) : State :=
  let at0 := ceField unit
  s.setRas fun r =>
    let n := r.ce.toNat
    { r with ce := BitVec.ofNat 64 (n - fld n at0 16 * 2 ^ at0 + Nat.min 0xFFFF (fld n at0 16 + 1) * 2 ^ at0) }

/-- The patrol of a unit is enabled (18 R458 RASCTL). -/
def patrolOn (s : State) (unit : Nat) : Bool :=
  match unit with
  | 0 => s.ras.ctl.getLsbD 0
  | 2 | 7 => s.ras.ctl.getLsbD 1
  | 3 => s.ras.ctl.getLsbD 2
  | 4 => s.ras.ctl.getLsbD 3
  | _ => true

/-- The place that a key of the error report names: a word of a version where its frames hold the physical address. -/
def faultPlace (s : State) (key : Nat) : Loc := if paExists key then (tileAt s key).getD (.mem key) else .mem key

/-- Places whose granules an uncorrectable error of a unit poisons: an HBM4 burst is 64 bytes (18 R455). -/
def badPlaces (s : State) (key unit : Nat) : List Loc :=
  if unit = 4 then (List.range 8).map fun i => faultPlace s (key / 64 * 64 + 8 * i) else [faultPlace s key]

/-- The address that RASUE and the UE event give: 0 for registers and contexts (18 R458), a free value for what has no physical address. -/
def uePa (key unit : Nat) : Nat :=
  if unit = 1 ∨ unit = 5 then 0 else if paExists key then key else (Config.uePlace unit key).toNat

/-- Die of a physical address: of its stacked SRAM, of its HBM4 channel. -/
def dieOfPa (pa : Nat) : Nat := if 0x80000000000 ≤ pa then (pa - 0x80000000000) / 2 ^ 30 % 4 else pa / 65536 % 256 / 64

/-- Slice of an entry of the tables: keys 2^40 + i name object i, 2^41 + i the i-th binding, 2^42 + i the i-th partial, the others a version
or a waiting frame. -/
def entrySlice (s : State) (key : Nat) : Nat :=
  if 2 ^ 42 ≤ key then (s.homes.parts[key - 2 ^ 42]?).elim 0 fun p => s.sliceOf p.pa
  else if 2 ^ 41 ≤ key then
    ((s.homes.names.flatMap fun n => n.trigs.map fun _ => s.nameSlice n.space n.name)[key - 2 ^ 41]?).getD 0
  else if 2 ^ 40 ≤ key then
    (s.homes.objs.find? fun b => decide (b.id = key - 2 ^ 40)).elim 0 fun b => homeSlice (b.granules.headD 0 * 256)
  else
    match s.ver key with
    | some v => s.nameSlice v.space v.name
    | none => (s.homes.wframes.find? fun w => decide (w.uid = key)).elim 0 WFrame.slice

/-- Die whose box takes the record of an error: that of the strand's core, of the entry's or the line's slice, of the bank, or of the
memory (18 R465). -/
def ueDie (s : State) (key unit : Nat) : Nat :=
  match unit with
  | 0 => dieOf ((key - 2 ^ 60) / 2 ^ 17)
  | 1 | 5 => (s.strand key).elim 0 fun o => dieOf o.core
  | 2 => dieOfSlice (s.sliceOf key)
  | 7 => dieOfSlice (entrySlice s key)
  | _ => dieOfPa key

/-- An entry of a slice's tables (18 R456): a version drops its name, a frame or a binding is discarded and counted, an object is
undeclared, a partial is poisoned. Keys 2^40 + i name object i, 2^41 + i the i-th binding, 2^42 + i the i-th partial. -/
def State.spoilEntry (s : State) (key : Nat) : State :=
  let lose := fun (s : State) (l : Nat) => s.updLaunch l fun x => { x with disc := x.disc + 1 }
  if 2 ^ 42 ≤ key then
    s.setHomes fun h => { h with parts := (h.parts.zipIdx).map fun p => if p.2 = key - 2 ^ 42 then { p.1 with bad := true } else p.1 }
  else if 2 ^ 41 ≤ key then
    match (s.homes.names.flatMap fun n => n.trigs.map fun t => (n, t))[key - 2 ^ 41]? with
    | some (n, t) => lose (s.setName { n with trigs := n.trigs.filter fun x => !decide (x = t) }) t.launch
    | none => s
  else if 2 ^ 40 ≤ key then
    (s.resetKey (.obj (key - 2 ^ 40))).setHomes fun h => { h with objs := h.objs.filter fun b => !decide (b.id = key - 2 ^ 40) }
  else
    match s.ver key with
    | some v => s.dropName v.space v.name
    | none =>
      match s.homes.wframes.find? fun w => decide (w.uid = key) with
      | some w => lose (s.setHomes fun h => { h with wframes := h.wframes.filter fun x => !decide (x.uid = key) }) w.launch
      | none => s

/-- An uncorrectable error of a unit is reported; the address is that of its granule. -/
def State.reportAt (s : State) (key unit : Nat) : State := s.reportUe unit (uePa key unit) (ueDie s key unit)

/-- The granule of a place is poisoned, and reported at its first detection (18 R455). -/
def State.poisonPlace (s : State) (unit key : Nat) (l : Loc) : State :=
  if s.poison.contains (granule l) then s
  else
    let s1 := s.reportAt key unit
    { s1 with poison := s1.poison ++ [granule l] }

/-- The unit of an error that has been found, a code of RASUE.unit (18 R458): bits 2-0 of the event's operand. -/
def errorUnit (unit : BitVec 4) : Nat := unit.toNat % 8

/-- An access has found the error, not a patrol (18 R454): bit 3 of the event's operand (log 44). -/
def byAccess (unit : BitVec 4) : Bool := unit.getLsbD 3

/-- PATROL_SCRUB (18 R454-R457): an error that a patrol finds where RASCTL enables it, or an access. A corrected one is counted; an
uncorrectable one poisons its granules, and the first detection of each is reported. -/
def execPatrolScrub (key : Nat) (unit : BitVec 4) (uncorrectable : Bool) (s : State) : Out :=
  let u := errorUnit unit
  if !(byAccess unit || patrolOn s u) then done s
  else if !uncorrectable then done (s.countCe u)
  else
    match u with
    | 1 => done ((s.reportAt key 1).spoilRegs key)
    | 5 => done ((s.reportAt key 5).upd key fun o => if o.out then { o with badEntry := true } else o)
    | 7 => done ((s.reportAt key 7).spoilEntry key)
    | _ =>
      let at0 := if u = 4 then key / 64 * 64 else key / 8 * 8
      done (((badPlaces s key u).zipIdx).foldl (fun s p => s.poisonPlace u (at0 + 8 * p.2) p.1) s)

/-! ## RAS_QUERY and the black boxes (18 R459, R466) -/

/-- Least element. -/
def leastOf (l : List Nat) : Nat := l.foldl (fun m x => if x < m then x else m) (l.headD 0)

/-- The physical address of a poisoned granule: a version's lies in its frames. -/
def granulePa (s : State) (g : Nat) : Option Nat :=
  if 2 ^ 63 ≤ g then
    let pa := s.framePa ((g - 2 ^ 63) / 2 ^ 20) (g % 2 ^ 20 * 8)
    if pa = 0 then none else some pa
  else if paExists (g * 8) then some (g * 8) else none

/-- The two results of an item (18 R459). -/
def rasItem (s : State) (i : Nat) : Option (Word × Word) :=
  let w := fun (n : Nat) => BitVec.ofNat 64 n
  match i with
  | 0 => some (s.ras.ce, s.ras.ue)
  | 1 => some (w s.ras.divs, s.ras.divTag)
  | 2 => some (w s.poison.length, w (leastOf (s.poison.filterMap (granulePa s))))
  | 3 => some (w s.ras.mism, w s.ras.mismSid)
  | 4 => some (w s.ras.uec, w s.ras.uecSid)
  | 5 => some (w (s.ras.capw.toNat * 2 ^ 32 + s.ras.pw.toNat * 2 ^ 16 + s.ras.mhz.toNat), w s.ras.bbTotal)
  | _ => if 16 ≤ i ∧ i < 16 + 114 then some (s.lnkstatOf (i - 16), lnkerr (s.link (i - 16))) else none

/-- RAS_QUERY (18 R459). -/
def execRasQuery (c : CmdRec) (s : State) : Out :=
  done (s.command 0x16 false 1 c fun s =>
    match rasItem s (par c 0) with
    | some (x, y) => s.reply c 0x16 0 x y
    | none => s.reply c 0x16 stNotFound 0 0)

/-- Place of record i of a die's box. -/
def boxSlot (die i : Nat) : Nat := sram die (2 ^ 30 - 65536) + 32 * i

/-- Sequence number of a record. -/
def boxSeq (s : State) (die i : Nat) : Nat := s.loadNat (.mem (boxSlot die i + 28)) 4

/-- How long ago a record was written, in records; numbers wrap past 0. -/
def boxAge (s : State) (die i : Nat) : Nat := (s.ras.bbSeq.getD die 1 + 0xFFFFFFFF - boxSeq s die i) % 0xFFFFFFFF

/-- Insert into a list of falling age. -/
def insertAge (x : Nat × Nat) : List (Nat × Nat) → List (Nat × Nat)
  | [] => [x]
  | y :: t => if y.1 < x.1 then x :: y :: t else y :: insertAge x t

/-- Valid records of a die, oldest first. -/
def boxRecords (s : State) (die : Nat) : List Nat :=
  ((((List.range 2048).filter fun i => decide (boxSeq s die i ≠ 0)).map fun i => (boxAge s die i, i)).foldl
    (fun l x => insertAge x l) []).map (·.2)

/-- BLACKBOX_READ (18 R466). -/
def execBlackboxRead (c : CmdRec) (s : State) : Out :=
  done (s.simple 0x15 false 7 c fun s =>
    if 4 ≤ par c 0 ∨ par c 2 = 0 ∨ 2048 < par c 2 then .inr stInvalid
    else
      let l := boxRecords s (par c 0)
      let l1 := l.drop (l.length - par c 2)
      .inl (s.put (.mem (ckey (par c 1))) (l1.flatMap fun i => s.bytes (.mem (boxSlot (par c 0) i)) 32), l1.length))

/-! ## Samples (18 R467, R468) -/

/-- SAMPLE_CONFIG (18 R467). -/
def execSampleConfig (c : CmdRec) (s : State) : Out :=
  done (s.simple 0x14 false 3 c fun s =>
    if par c 0 ≠ 0 ∧ (par c 0 < 65536 ∨ 2 ^ 32 < par c 0 ∨ par c 1 % 4096 ≠ 0) then .inr stInvalid
    else .inl (s.setFw fun f => { f with sample := { period := par c 0, buf := par c 1, sseq := 0, abs := false, prev := [], last := s.tick } }, 0))

/-- Code of a run state (01 R16). -/
def RunState.code : RunState → Nat
  | .empty => 0 | .ready => 1 | .parked => 2 | .frozen => 3 | .frozenPending => 4 | .swapping => 5 | .follower => 6 | .stopped => 7

/-- The strand in a slot of the package, umpires in slot 7 among them, else the one that is leaving it. -/
def inSlot (s : State) (sid : Nat) : Option Strand :=
  (s.strands.find? fun o => decide (o.sid = sid) && !decide (o.run = .empty) && !o.out) <|>
    s.strands.find? fun o => decide (o.sid = sid) && !decide (o.run = .empty) && decide (s.tick < o.moveEnd)

/-- The run state of a slot: Swapping while a context moves (01 R16). -/
def slotRun (s : State) (sid : Nat) : RunState :=
  match inSlot s sid with
  | some o => if s.tick < o.moveEnd then .swapping else o.run
  | none => .empty

/-- The PC that a sample holds of a strand: that of the bundle it is parked on, a matrix step's own among them (18 R467). -/
def samplePc (s : State) (o : Strand) : Word :=
  match o.park with
  | .matrix _ => ((s.undo.find? fun p => decide (p.key = o.key)).map fun p => p.before.pc).getD o.pc
  | _ => o.pc

/-- Run-length entries of a list of codes: at most 8,192 strands an entry. -/
def runLengths : List Nat → List (Nat × Nat)
  | [] => []
  | c :: t =>
    match runLengths t with
    | (d, n) :: r => if c = d ∧ n < 8192 then (d, n + 1) :: r else (c, 1) :: (d, n) :: r
    | [] => [(c, 1)]

/-- The same counted from the front, so that a full entry comes first. -/
def runEntries (l : List Nat) : List (Nat × Nat) := (runLengths l.reverse).reverse

/-- 7-bit groups, low group first, bit 7 on all but the last; 10 groups hold 64 bits. -/
def groups7 (x : Nat) : Nat → List Byte
  | 0 => []
  | n + 1 => if x < 128 then [BitVec.ofNat 8 x] else BitVec.ofNat 8 (x % 128 + 128) :: groups7 (x / 128) n

/-- The code of a PC against an earlier one (18 R468). -/
def pcDelta (pc prev : Word) : List Byte :=
  let d := (pc - prev).sshiftRight 3
  groups7 ((d <<< 1) ^^^ (d.sshiftRight 63)).toNat 10

/-- A sample record (18 R468). -/
def sampleRecord (s : State) : List Byte :=
  let p := s.fw.sample
  let slots := (List.range 20544).map fun i => (i, inSlot s i)
  let runs := runEntries (slots.map fun x => (slotRun s x.1).code)
  let here := slots.filterMap fun x => x.2.map fun o => (x.1, samplePc s o)
  let old := fun (sid : Nat) => if p.abs then 0 else ((p.prev.find? fun y => decide (y.1 = sid)).map (·.2)).getD 0
  let body := (runs.flatMap fun r => natLE 2 (r.1 * 2 ^ 13 + (r.2 - 1))) ++ here.flatMap fun x => pcDelta x.2 (old x.1)
  let len := (32 + body.length + 7) / 8 * 8
  natLE 8 s.tick ++ natLE 4 len ++ natLE 4 (p.sseq + 1) ++ natLE 2 runs.length ++ natLE 1 (if p.abs then 1 else 0) ++ natLE 1 0 ++
    natLE 4 here.length ++ natLE 8 0 ++ body ++ List.replicate (len - 32 - body.length) 0

/-- Write bytes into a ring, 8 at a time; `n` bounds the pieces. -/
def State.ringWrite (s : State) (base size pos : Nat) (bs : List Byte) : Nat → State
  | 0 => s
  | n + 1 => if bs.isEmpty then s else (s.put (.mem (base + pos % size)) (bs.take 8)).ringWrite base size (pos + 8) (bs.drop 8) n

/-- A sample is due. -/
def sampleDue (s : State) : Bool :=
  decide (s.fw.sample.period ≠ 0) && decide (s.tick % s.fw.sample.period = 0) && decide (s.fw.sample.last ≠ s.tick)

/-- SAMPLE_PULSE (18 R467): a record is written where it fits, otherwise dropped and counted. -/
def execSamplePulse (s : State) : Out :=
  let p := s.fw.sample
  if p.period = 0 ∨ s.tick % p.period ≠ 0 then done s
  else
    let h := ckey p.buf
    let size := s.loadNat (.mem h) 8 - 64
    let prod := s.loadNat (.mem (h + 8)) 8
    let cons := s.loadNat (.mem (h + 16)) 8
    let r := sampleRecord s
    let s1 := s.setFw fun f => { f with sample := { p with sseq := p.sseq + 1, last := s.tick } }
    if size < prod - cons + r.length then
      done ((s1.putNat (.mem (h + 24)) 8 (s.loadNat (.mem (h + 24)) 8 + 1)).setFw fun f => { f with sample := { f.sample with abs := true } })
    else
      let here := (List.range 20544).filterMap fun i => (inSlot s i).map fun o => (i, samplePc s o)
      done (((s1.ringWrite (h + 64) size prod r r.length).putNat (.mem (h + 8)) 8 (prod + r.length)).setFw fun f =>
        { f with sample := { f.sample with abs := false, prev := here } })

/-! ## Trace (18 R470, R471) -/

/-- TRACE_START (18 R470, 16 R415): the context of the record is a filter. -/
def execTraceStart (c : CmdRec) (s : State) : Out :=
  let fs := (List.range (par c 2)).map fun i => par c 1 / 65536 + i
  done (s.simple 0x12 (decide (cctx c ≠ 0)) 7 c fun s =>
    if 2568 ≤ par c 0 ∨ par c 1 % 65536 ≠ 0 ∨ par c 2 = 0 ∨ 65536 < par c 2 then .inr stInvalid
    else if fs.any fun f => decide (s.kindOf f ≠ .trace) then .inr stKind
    else if (s.core (par c 0)).trcOn || fs.any (traceFrame s) then .inr stBusy
    else
      .inl (s.setCore (par c 0) fun k =>
        { k with trcOn := true, trcCtx := cctx c, trcFrames := par c 2, trcBase := par c 1 / 65536, trcSeq := 1, trcLost := 0 }, 0))

/-- TRACE_STOP (18 R471): the pending lost record is written first. -/
def execTraceStop (c : CmdRec) (s : State) : Out :=
  done (s.simple 0x13 false 1 c fun s =>
    if !(s.core (par c 0)).trcOn then .inr stNotFound
    else
      let s1 := s.traceLost (par c 0)
      .inl (s1.setCore (par c 0) fun k => { k with trcOn := false }, 32 * ((s1.core (par c 0)).trcSeq - 1)))

/-! ## The debug module (18 R469, 11 R336) -/

/-- Cores that stop with some cores: those of every gang with a member on one of them, and so on; `n` bounds the rounds. -/
def stopMore (s : State) : Nat → List Nat → List Nat
  | 0, l => l
  | n + 1, l =>
    stopMore s n (s.sched.gangs.foldl (fun l g =>
      let cs := (g.members.filterMap s.strand).map Strand.core
      if cs.any l.contains then cs.foldl (fun l c => if l.contains c then l else c :: l) l else l) l)

/-- Cores that stop with a core. -/
def stopWith (s : State) (core : Nat) : List Nat := stopMore s s.sched.gangs.length [core]

/-- DEBUG_STOP (18 R469): every strand at a boundary stops now; one that is parked stops when its operation has completed. -/
def execDebugStop (core : Nat) (s : State) : Out :=
  done ((stopWith s core).foldl (fun s c => s.setCore c fun k => { k with stopped := true }) s).stopRest

/-- What a stopped strand becomes when it goes on; one that stopped before BRK goes on after it (11 R336). -/
def goOn (lead : Bool) (t : Nat) (o : Strand) : Strand :=
  if o.run ≠ .stopped then o
  else if o.park = .brk then { clauseEnd o o with run := .ready, park := .none, turn := alignTurn o.sid (t + 1) }
  else if o.park = .steal then { o with run := .parked, turn := alignTurn o.sid (t + 1) }
  else { o with run := if lead then .ready else .follower, park := .none, turn := alignTurn o.sid (t + 1) }

/-- A strand is in no gang, or leads its gang. -/
def leads (s : State) (o : Strand) : Bool := (s.gangOf o).all fun g => decide (g.members.head? = some o.key)

/-- DEBUG_RESUME (18 R469). -/
def execDebugResume (core : Nat) (s : State) : Out :=
  let s1 := s.setCore core fun k => { k with stopped := false }
  done (s1.strands.foldl (fun s o => if o.core = core ∧ o.out = false then s.upd o.key (goOn (leads s o) s.tick) else s) s1)

/-- DEBUG_STEP (18 R469): a stopped strand runs one bundle, in the next turn of its slot (01 R14), its gang with it; a follower is stepped
with its leader. -/
def execDebugStep (key : Nat) (s : State) : Out :=
  match s.strand key with
  | some o => done (if o.run = .stopped ∧ o.park ≠ .steal ∧ o.out = false ∧ leads s o = true then s.upd key fun x => { x with stepping := true } else s)
  | none => done s

/-- A stopped strand, with its gang, runs a bundle and stops again. -/
def State.stepOne (s : State) (o : Strand) (turn : Strand → State → State) : State :=
  let s1 := (gangMates s o).foldl (fun s m => s.upd m.key fun x => { goOn (decide (m.key = o.key)) s.tick x with stepping := false }) s
  ((s1.strand o.key).elim s1 fun x => turn x s1).stopRest

/-- What a debug write does to the registers of a strand. -/
def debugWrite (what : DebugItem) (x : Word) (o : Strand) : Strand :=
  match what with
  | .g n => o.setG n x
  | .v n part =>
    let v := (o.vr n).toNat
    o.setV n (BitVec.ofNat 512 (v - fld v (64 * part.toNat) 64 * 2 ^ (64 * part.toNat) + x.toNat * 2 ^ (64 * part.toNat)))
  | .k n => o.setK n x
  | .pc => { o with pc := x }
  | .word _ => o
  | .lmem _ => o
  | .run => o
  | .bank _ _ => o

/-- What a debug read of a strand gives: a register, a state word as MFS would return it, local memory, or its run state. -/
def debugRead (s : State) (o : Strand) (what : DebugItem) : Word :=
  match what with
  | .g n => o.g n
  | .v n part => BitVec.ofNat 64 (laneOf 64 (o.vr n) part.toNat)
  | .k n => o.kr n
  | .pc => o.pc
  | .word sel => readWord s o sel.toNat
  | .lmem off => s.word (lkey o.core (off.toNat / 8 * 8))
  | .run => BitVec.ofNat 64 (slotRun s o.sid).code
  | .bank core off => s.word (lkey core.toNat (off.toNat / 8 * 8))

/-- DEBUG_ACCESS (18 R469): a read leaves its value at the port; the run state can be read of every strand (01 R16), a core's local memory
is reached while the core is stopped, all else while the strand is. -/
def execDebugAccess (key : Nat) (wr : Bool) (what : DebugItem) (x : BitVec 64) (s : State) : Out :=
  match what with
  | .bank core off =>
    let k := lkey core.toNat (off.toNat / 8 * 8)
    if 2568 ≤ core.toNat ∨ (s.core core.toNat).stopped = false then done s
    else done (if wr then s.put (.mem k) (natLE 8 x.toNat) else { s with tap := s.word k })
  | _ =>
    match s.strand key with
    | some o =>
      let off := match what with
        | .lmem off => some (lkey o.core (off.toNat / 8 * 8))
        | _ => none
      let reached := decide (o.run = .stopped) || (off.isSome && (s.core o.core).stopped)
      if wr = false ∧ (reached = true ∨ what = .run) then done { s with tap := debugRead s o what }
      else if wr = true ∧ reached = true then
        match off, what with
        | some k, _ => done (s.put (.mem k) (natLE 8 x.toNat))
        | none, .word sel =>
          if (selCause .firmware sel.toNat (some x)).isSome then done s else done (s.writeWordOf key sel.toNat x)
        | none, w => done (s.upd key (debugWrite w x))
      else done s
    | none => done s

/-- DEBUG_ARM (18 R469, 11 R336). -/
def execDebugArm (core : Nat) (on : Bool) (s : State) : Out := done (s.setCore core fun k => { k with armed := on })

/-! ## Power and clock (16 R435) -/

/-- A clock step: an event and a black-box record with the new CLKSTAT (16 R402, 18 R465). -/
def State.setClock (s : State) (mhz : Nat) : State :=
  let s1 := s.setRas fun r => { r with mhz := BitVec.ofNat 16 mhz }
  let clk := BitVec.ofNat 64 (s1.ras.capw.toNat * 2 ^ 32 + s1.ras.pw.toNat * 2 ^ 16 + mhz)
  (s1.event 6 (BitVec.ofNat 64 mhz) (BitVec.ofNat 64 s1.ras.pw.toNat) 0).blackBox 4 5 6 0 0 clk

/-- POWER_SAMPLE (16 R435): above the cap the clock steps down, below it up, within the floor and 3,600 MHz (log 30). -/
def execPowerSample (watts : BitVec 16) (s : State) : Out :=
  let s1 := s.setRas fun r => { r with pw := watts }
  let f := s.ras.mhz.toNat
  let next := if s.ras.capw.toNat < watts.toNat then (if f ≤ s.ras.floor.toNat then f else Nat.max s.ras.floor.toNat (f - 100))
    else if watts.toNat < s.ras.capw.toNat then Nat.min 3600 (f + 100) else f
  done (if next = f then s1 else s1.setClock next)

/-- THERMAL_LIMIT (16 R435): the clock falls, to no less than 1,800 MHz. -/
def execThermalLimit (mhz : BitVec 16) (s : State) : Out :=
  done (s.setClock (Nat.max 1800 (Nat.min s.ras.mhz.toNat mhz.toNat)))

/-- POWER_SET (16 R435). -/
def execPowerSet (c : CmdRec) (s : State) : Out :=
  done (s.simple 0x1D false 3 c fun s =>
    if par c 0 < 400 ∨ 2100 < par c 0 ∨ par c 1 < 1800 ∨ 3600 < par c 1 then .inr stInvalid
    else .inl (s.setRas fun r => { r with capw := BitVec.ofNat 16 (par c 0), floor := BitVec.ofNat 16 (par c 1) }, 0))

/-! ## LINK_SERVICE (17 R445) -/

/-- Route masks do not overlap another port's (17 R445). -/
def routesFree (s : State) (port mask : Nat) : Bool :=
  s.fw.routes.all fun r => decide (r.2 = port) || !bit mask r.1

/-- A window for other packages lies in HBM4 or carved frames (17 R445). -/
def exportOk (s : State) (base units : Nat) : Bool :=
  (List.range (units * 1024)).all fun i =>
    let f := base + i
    paExists (f * 65536) && (decide (f ≤ 7812351) || decide (s.kindOf f = .carved))

/-- LINK_SERVICE (17 R445): actions 1, 3 and 4 begin as the link comes free and go on with its states; the others end at once. -/
def execLinkService (c : CmdRec) (s : State) : Out :=
  let l := par c 0
  let a := par c 1 % 256
  let arg := fld (par c 1) 8 48
  let now := fun (s : State) (r : Word) => s.reply c 0x17 0 r 0
  let stat := fun (s : State) => s.lnkstatOf l
  done (s.command 0x17 false 3 c fun s =>
    let bad := s.reply c 0x17 stInvalid 0 0
    let serve := (s.setFw fun f => { f with long := f.long ++ [(0x17, c)] }).beginService l
    if 8 ≤ a ∨ 2 ^ 56 ≤ par c 1 ∨ ((a = 0 ∨ a = 1 ∨ a = 3 ∨ a = 4) ∧ arg ≠ 0) ∨ ((a = 2 ∨ a = 5 ∨ a = 6) ∧ 2 ^ 16 ≤ arg) ∨ (a = 6 ∧ 255 < l) then bad
    else if a = 6 then now (s.setFw fun f => { f with colls := (l, BitVec.ofNat 16 arg) :: f.colls.filter fun p => !decide (p.1 = l) }) 0
    else if (113 < l ∧ a ≠ 7) ∨ (a = 5 ∧ linkType l ≠ 2) ∨ ((a = 1 ∨ a = 3 ∨ a = 4) ∧ linkType l = 3) then s.reply c 0x17 0xC 0 0
    else
      match a with
      | 0 => now s (stat s)
      | 1 | 3 | 4 => serve
      | 2 =>
        let s1 := s.setLink l fun x => { x with thr := BitVec.ofNat 16 arg }
        now s1 (stat s1)
      | 5 =>
        if !routesFree s (l - 96) arg then bad
        else
          now ((s.setFw fun f =>
            { f with routes := (((List.range 16).filter (bit arg)).map fun r => (r, l - 96)) ++ f.routes.filter fun r => !decide (r.2 = l - 96) }).flushPorts.letIn) 0
      | _ =>
        if !exportOk s (fld arg 0 28) (fld arg 28 20) then bad
        else
          now (s.setFw fun f =>
            let mine := f.ctxs.filterMap (·.group)
            { f with window := some (fld arg 0 28 * 65536, fld arg 28 20 * 2 ^ 26), exports := (mine.map fun g => (g.1, g.2.2, fld arg 0 28 * 65536, fld arg 28 20 * 2 ^ 26)) ++
                f.exports.filter fun e => !(mine.any fun g => decide (g.1 = e.1) && decide (g.2.2 = e.2.1)) }) 0)

end Sys2Proof.Machine
end

