-- ==== Sys2Proof/Machine/Checkpoint.lean ====
section
/-! DEFINITION. Checkpoint and restore (18 R475-R478). The sections of kinds 3 and 4 have no layout in the specification: their bytes are
free values, and the package remembers what it wrote (log 27). -/

namespace Sys2Proof

/-- What an image holds whose digest the package does not remember: the layout of its kinds 3 and 4 is not stated. FREE VALUE (log 27). -/
opaque Config.foreignImage : BitVec 256 → Option Machine.Image

end Sys2Proof

namespace Sys2Proof.Machine

open Sys2Proof

/-! ## Sections (18 R475) -/

/-- A section: its 64-byte descriptor and its payload. -/
def section75 (kind key ctx : Nat) (payload : List Byte) : List Byte :=
  natLE 4 kind ++ natLE 4 payload.length ++ natLE 8 key ++ natLE 2 ctx ++ List.replicate 46 0 ++ payload

/-- Flag bits as bytes, the first lowest. -/
def flagBytes : List Bool → Nat → List Byte
  | _, 0 => []
  | l, n + 1 => BitVec.ofNat 8 (((l.take 8).zipIdx).foldl (fun x b => x + (if b.1 then 2 ^ b.2 else 0)) 0) :: flagBytes (l.drop 8) n

/-- Bytes at a place, then a poison bit for each granule. -/
def payloadAt (s : State) (l : Loc) (n : Nat) : List Byte :=
  s.bytes l n ++ flagBytes ((List.range (n / 8)).map fun i => s.poisonedAt (l.add (8 * i))) (n / 64)

/-- Frames of kind plain or carved. -/
def savedFrames (s : State) : List Nat :=
  ((List.range 7812352) ++ (List.range 65536).map fun i => 0x8000000 + i).filter fun (f : Nat) =>
    decide (s.kindOf f = FrameKind.plain) || decide (s.kindOf f = FrameKind.carved)

/-- Pieces of racked versions and of drafts: address, handle, offset, bytes. -/
def savedPieces (s : State) : List (Nat × Nat × Nat × Nat) :=
  s.homes.vers.flatMap fun v =>
    let unit := v.cls.size.min 65536
    let ps := match v.st with
      | .racked => v.hbm
      | .drafted => v.frames
      | .completed => v.frames
      | _ => []
    (ps.zipIdx).map fun p => (p.1, v.uid, p.2 * unit, unit)

/-- Strands that a checkpoint saves. -/
def savedStrands (s : State) : List Strand := s.strands.filter fun o => o.out && !decide (o.run = .empty)

/-- Bytes of a payload that is not laid out: free values. -/
def freeBytes (n len : Nat) : List Byte := (List.range len).map (Config.imageByte n)

/-- The sections of phase 2; `n` is the first free number. -/
def pausedSections (s : State) (n : Nat) : List Byte :=
  ((savedFrames s).flatMap fun f => section75 1 (f * 65536) 0 (payloadAt s (.mem (f * 65536)) 65536)) ++
    ((savedPieces s).flatMap fun p => section75 1 p.1 0 (payloadAt s (.tile p.2.1 p.2.2.1) p.2.2.2)) ++
    (((savedStrands s).zipIdx).flatMap fun p => section75 3 p.1.sid p.1.ctx (freeBytes (n + 1 + p.2) (4096 * ctxUnits p.1))) ++
    section75 4 0 0 (freeBytes n (Config.firmwareBytes n)) ++
    ((s.cores.filter fun c => c.owner.isSome && !c.clean).flatMap fun c =>
      section75 5 c.id (c.owner.getD 0) (payloadAt s (.mem (lkey c.id 0)) (2 ^ 17)))

/-- The section of a published version. -/
def versionSection (s : State) (u : Nat) : List Byte :=
  match s.ver u with
  | some v => section75 2 (v.name + v.num * 2 ^ 32) (if v.space < 2 ^ 16 then v.space else 0) (payloadAt s (.tile u 0) v.cls.size)
  | none => []

/-- The header (18 R475). -/
def imageHeader (cut : Nat) (body : List Byte) : List Byte :=
  natLE 4 0x4B594350 ++ natLE 4 1 ++ natLE 8 (4096 + body.length) ++ natLE 8 cut ++ natLE 32 (Config.shake256 body).toNat ++
    List.replicate (4096 - 56) 0

/-- A memory key lies in a page table that is in use. -/
def inTables (s : State) (k : Nat) : Bool :=
  s.fw.ptUsed.any fun p => decide (tableAddr p.1 ≤ k) && decide (k < tableAddr p.1 + 8192)

/-- What kinds 2, 3 and 4 hold; the checkpoint has a reference of its own on some versions. -/
def savedImage (s : State) (held : List Nat) : Image :=
  { tables := s.mem.filter fun c => inTables s c.1, badTables := s.poison.filter fun g => inTables s (g * 8),
    capWait := s.fw.capWait.filter fun w => decide (w.2 = 0), held := held, digest := 0, strands := savedStrands s, homes := s.homes, crews := s.sched.crews, launches := s.sched.launches,
    gangs := s.sched.gangs, sets := s.sched.sets, saved := s.sched.saved, cmds := s.cmds, ctxs := s.fw.ctxs, caps := s.fw.caps,
    ptUsed := s.fw.ptUsed, fkinds := s.fw.fkinds, carve := s.fw.carve,
    owners := s.cores.map fun c => { c with pipe := [], mwait := [], stopped := false, armed := false, trcOn := false } }

/-! ## Checkpoint (18 R476) -/

/-- User strands that are still in their slots. -/
def inSlots (s : State) : List Strand :=
  s.strands.filter fun o => decide (o.level = .user) && o.ump.isNone && !o.out && !decide (o.run = .empty)

/-- A strand can be swapped out now, with room for the context that it pushes out of the cache (12 R367). -/
def canLeave (s : State) (o : Strand) : Bool := swappable s o && swapsFit s [o.key] 0

/-- Swap out every user strand that can be. -/
def State.swapEverything (s : State) : State :=
  (inSlots s).foldl (fun s o => if (s.strand o.key).any (canLeave s) then s.swapOne o.key else s) s

/-- Started commands are over; a TFETCH is paused. -/
def commandsQuiet (s : State) : Bool :=
  s.cmds.all fun c => if cOp c.word.toNat = 1 then fetchPaused s c else !(decide (c.st = .started) || decide (c.st = .resolved) || decide (c.st = .running))

/-- Every U object is merged. -/
def State.mergeAll (s : State) : State := s.homes.coh.foldl (fun s p => s.merge p.1) s

/-- The end of a phase is on record (18 R465, 16 R402). -/
def State.phaseEnd (s : State) (phase bytes : Nat) : State :=
  (s.event 8 (BitVec.ofNat 64 bytes) (BitVec.ofNat 64 phase) 0).blackBox 4 10 phase 0 0 (BitVec.ofNat 64 bytes)

/-- The state at the cut: strands out, objects merged, a reference on every published version. -/
def State.cut (s : State) : State :=
  let s1 := s.swapEverything.mergeAll
  s1.setHomes fun h => { h with vers := h.vers.map fun v => if v.st.published && !v.doomed then addRef v else v }

/-- Published versions at the cut. -/
def cutVersions (s : State) : List Nat := (s.homes.vers.filter fun v => v.st.published && !v.doomed).map (·.uid)

/-- Bytes of the image that a checkpoint would write now. -/
def imageLength (s : State) : Nat :=
  let t := s.cut
  4096 + (pausedSections t t.free).length + ((cutVersions t).filter fun u => (t.ver u).any fun v => decide (v.st ≠ .racked)).foldl
    (fun n u => n + (versionSection t u).length) 0

/-- The first phase of a checkpoint can go on: strands can be swapped, or everything is quiet. -/
def ckptDue (s : State) : Bool :=
  match s.fw.ckpt with
  | none => false
  | some k => if k.phase = 1 then (inSlots s).any (canLeave s) || ((inSlots s).isEmpty && commandsQuiet s) else true

/-- CHECKPOINT (18 R476): phase 1 begins, and SCHCTL.hold is set (12 R371). -/
def execCheckpoint (c : CmdRec) (s : State) : Out :=
  done (s.command 0x10 false 3 c fun s =>
    if par c 1 < imageLength s then s.reply c 0x10 stNoResource 0 0
    else
      ((s.setSched fun d => { d with hold := true }).setFw fun f =>
        { f with ckpt := some { cmd := c, phase := 1, cut := 0, uid := 0, vers := [], out := [] }, long := f.long ++ [(0x10, c)] }).swapEverything)

/-- Write the image so far behind its header's place. -/
def State.writeImage (s : State) (k : Ckpt) (more : List Byte) : State :=
  s.put (.mem (ckey (par k.cmd 0 + 4096 + k.out.length))) more

/-- CHECKPOINT_PHASE_END (18 R476). -/
def execCheckpointPhaseEnd (s : State) : Out :=
  match s.fw.ckpt with
  | none => done s
  | some k =>
    let set := fun (s : State) (k : Ckpt) => s.setFw fun f => { f with ckpt := some k }
    match k.phase with
    | 1 =>
      let s1 := s.swapEverything
      if (inSlots s1).isEmpty && commandsQuiet s1 then
        let s2 := s1.cut
        done ((set s2 { k with phase := 2, cut := s.tick, vers := cutVersions s2 }).phaseEnd 1 0)
      else done s1
    | 2 =>
      let body := pausedSections s s.free
      let racked := k.vers.filter fun u => (s.ver u).all fun v => decide (v.st = .racked)
      let s0 := { s with free := s.free + 1 + (savedStrands s).length }
      let s1 : State := racked.foldl (fun s u => s.unref u) s0
      let k1 := { k with phase := 3, out := body, uid := s.free, vers := k.vers.filter fun u => !racked.contains u }
      let s2 := (set (s1.writeImage k body) k1).setFw fun f => { f with images := savedImage s k.vers :: f.images }
      done (((s2.phaseEnd 2 (4096 + body.length)).setSched fun d => { d with hold := false }).offerRestores.unpark)
    | 3 =>
      let body := k.vers.flatMap (versionSection s)
      let k1 := { k with phase := 4, vers := [], out := k.out ++ body }
      let s1 : State := k.vers.foldl (fun s u => s.unref u) (set (s.writeImage k body) k1)
      done (s1.phaseEnd 3 (4096 + k1.out.length))
    | _ =>
      let len := 4096 + k.out.length
      let s1 := s.put (.mem (ckey (par k.cmd 0))) (imageHeader k.cut k.out)
      let s2 := s1.setFw fun f =>
        { f with
          ckpt := none
          long := f.long.filter fun q => !decide (q = (0x10, k.cmd))
          images := match f.images with
            | i :: t => { i with digest := Config.shake256 k.out } :: t
            | [] => [] }
      done ((s2.phaseEnd 4 len).reply k.cmd 0x10 0 (BitVec.ofNat 64 len) 0)

/-! ## Restore (18 R478) -/

/-- Poisoned granules that a payload's flags name. -/
def flaggedGranules (flags : List Byte) (g n : Nat) : List Nat :=
  (List.range n).filterMap fun i => if ((flags[i / 8]?).getD 0).getLsbD (i % 8) then some (g + i) else none

/-- Write a payload back to a place: bytes and poison. -/
def State.putPayload (s : State) (l : Loc) (n : Nat) (payload : List Byte) : State :=
  let s1 := s.put l (payload.take n)
  { s1 with poison := flaggedGranules (payload.drop n) (granule l) (n / 8) ++ s1.poison }

/-- The version that a section of kind 2 holds. -/
def sectionVersion (s : State) (key ctx : Nat) : Option Ver :=
  s.homes.vers.find? fun v =>
    decide (v.name = key % 2 ^ 32) && decide (v.num = key / 2 ^ 32) && decide ((if v.space < 2 ^ 16 then v.space else 0) = ctx)

/-- Bytes of data in a payload of m bytes: 64 of data to each of flags. -/
def dataBytes (m : Nat) : Nat := m / 65 * 64

/-- Write back the sections of kinds 1, 2 and 5 from companion memory, a racked tile's and a draft's into the version whose frames they
are; `n` bounds them. -/
def State.restoreSections (s : State) (a stop : Nat) : Nat → State
  | 0 => s
  | n + 1 =>
    if stop < a + 64 then s
    else
      let kind := s.loadNat (.mem (ckey a)) 4
      let m := s.loadNat (.mem (ckey (a + 4))) 4
      let key := s.loadNat (.mem (ckey (a + 8))) 8
      let payload := s.bytes (.mem (ckey (a + 64))) m
      let back := fun (l : Loc) => s.putPayload l (dataBytes m) payload
      let s1 := match kind with
        | 1 => back (faultPlace s key)
        | 2 => (sectionVersion s key (s.loadNat (.mem (ckey (a + 16))) 2)).elim s fun v => back (.tile v.uid 0)
        | 5 => back (.mem (lkey key 0))
        | _ => s
      s1.restoreSections (a + 64 + m) stop n

/-- A version of kind 2 takes tile frames afloat, or is racked where they are short (18 R478). -/
def State.seatVersion (s : State) (v : Ver) : State :=
  match s.takeTile (s.nameSlice v.space v.name) v.cls with
  | some (fs, s1) => s1.updVer v.uid fun v => { v with frames := fs }
  | none => (s.takeRack (s.verDie v) v.cls).elim s fun fs => s.updVer v.uid fun v => { v with st := .racked, hbm := fs }

/-- The versions of kind 2 of an image find their frames. -/
def State.seatVersions (s : State) (held : List Nat) : State :=
  let vs := s.homes.vers.filter fun v => (decide (v.st = .afloat) || decide (v.st = .racking)) && held.contains v.uid
  let empty := fun (v : Ver) => if vs.any fun x => decide (x.uid = v.uid) then { v with st := .afloat, frames := [], hbm := [] } else v
  let s1 := s.setHomes fun h => { h with vers := h.vers.map empty }
  vs.foldl State.seatVersion s1

/-- The page tables of an image come back, bytes and poison. -/
def State.restoreTables (s : State) (i : Image) : State :=
  let s1 := i.ptUsed.foldl (fun s p => s.zeroRange (tableAddr p.1) 8192) s
  let s2 : State := i.tables.foldl (fun s c => s.put (.mem c.1) [c.2]) s1
  { s2 with poison := i.badTables ++ s2.poison }

/-- What an image holds beside its bytes comes back: contexts swapped out, names, launches, commands, tables (18 R478), without the references
that the checkpoint held; frozen strands call for their umpires again (log 27). -/
def State.restoreImage (s : State) (i : Image) : State :=
  let s1 : State :=
    { s with
      others := s.others ++ i.strands
      homes := i.homes
      cores := i.owners
      cmds := i.cmds
      fw := { s.fw with ctxs := i.ctxs, caps := i.caps, capWait := i.capWait, ptUsed := i.ptUsed, fkinds := i.fkinds }
      sched := { s.sched with crews := i.crews, launches := i.launches, gangs := i.gangs, sets := i.sets, saved := i.saved } }
  let s2 := (i.held.foldl State.unref (s1.seatVersions i.held)).restoreTables i
  let called := fun (o : Strand) => (i.caps.any fun h => decide (capSid h.cap = o.sid)) || i.capWait.any fun w => decide (capSid w.1 = o.sid)
  i.strands.foldl (fun s o => if o.isFrozen && !called o then s.later (.umpireSpawn o.key) else s) s2

/-- What an image holds: the package remembers those that it wrote; what another one wrote is a free value, and none stands for firmware
state that this package does not read (log 27). -/
def imageHeld (s : State) (digest : BitVec 256) : Option Image :=
  match s.fw.images.find? fun i => decide (i.digest = digest) with
  | some i => some i
  | none => Config.foreignImage digest

/-- RESTORE (18 R478). -/
def execRestore (c : CmdRec) (s : State) : Out :=
  let a := par c 0
  done (s.command 0x11 false 3 c fun s =>
    let f := fun (i n : Nat) => s.loadNat (.mem (ckey (a + i))) n
    let len := f 8 8
    let digest := BitVec.ofNat 256 (f 24 32)
    if !s.fw.ctxs.isEmpty then s.reply c 0x11 0xE 0 0
    else if f 0 4 ≠ 0x4B594350 ∨ f 4 4 ≠ 1 ∨ len < 4096 ∨ par c 1 < len then s.reply c 0x11 stInvalid 0 0
    else if Config.shake256 (s.bytes (.mem (ckey (a + 4096))) (len - 4096)) ≠ digest then s.reply c 0x11 9 0 0
    else
      match imageHeld s digest with
      | none => s.reply c 0x11 stInvalid 0 0
      | some i =>
        if i.carve ≠ s.fw.carve then s.reply c 0x11 stInvalid 0 0
        else
          let s1 := (s.restoreImage i).restoreSections (a + 4096) (a + len) len
          (s1.blackBox 4 10 0 0 0 (BitVec.ofNat 64 len)).reply c 0x11 0 (BitVec.ofNat 64 len) 0)

end Sys2Proof.Machine
end

