-- ==== Sys2Proof/Machine/Boot.lean ====
section
/-! DEFINITION. Mailboxes (16 R397-R401), the configuration space and the companion's accesses (16 R397, R430; 17 R452), boot,
patches, attestation and resets (16 R426-R433). -/

namespace Sys2Proof.Machine

open Sys2Proof

/-! ## Mailboxes (16 R397-R401) -/

/-- A mailbox. -/
def State.box (s : State) (m : Nat) : Mbx := s.fw.mbx.getD m Mbx.blank

/-- Change a mailbox. -/
def State.setBox (s : State) (m : Nat) (f : Mbx → Mbx) : State := s.setFw fun w => { w with mbx := w.mbx.setIfInBounds m (f (s.box m)) }

/-- Key of a command slot. -/
def cmdSlot (b : Mbx) : Nat := ckey (b.base + 64 + 128 * (b.cons % 2 ^ b.cm))

/-- Key of the event ring header. -/
def eventHead (b : Mbx) : Nat := ckey (b.base + 64 + 128 * 2 ^ b.cm)

/-- The event ring has a free entry. -/
def ringRoom (s : State) (b : Mbx) : Bool := decide (b.prod - s.loadNat (.mem (eventHead b + 8)) 8 < 2 ^ b.en)

/-- An entry that firmware holds can be written. -/
def drainDue (s : State) (m : Nat) : Bool :=
  let b := s.box m
  b.on && s.igUp && !b.evq.isEmpty && ringRoom s b

/-- EVENT_RING_DRAIN (16 R401): the oldest held entry is written, its seal last, and prod advances. -/
def execEventRingDrain (mbx : Nat) (s : State) : Out :=
  let b := s.box mbx
  match b.evq with
  | [] => done s
  | e :: t =>
    if drainDue s mbx then
      let h := eventHead b
      let body := (e.toList.flatMap fun w => natLE 8 w.toNat).take 31
      let s1 := s.put (.mem (h + 64 + 32 * (b.prod % 2 ^ b.en))) (body ++ [BitVec.ofNat 8 (128 + b.prod / 2 ^ b.en % 2)])
      done ((s1.put (.mem h) (natLE 8 (b.prod + 1))).setBox mbx fun b => { b with evq := t, prod := b.prod + 1 })
    else done s

/-- The next command slot is sealed for this lap: v is set and the parity is the lap's (16 R398, 12 R346). -/
def slotSealed (s : State) (b : Mbx) : Bool :=
  let x := (mget s.mem (cmdSlot b + 127)).toNat
  bit x 7 && decide (x % 2 = b.cons / 2 ^ b.cm % 2)

/-- A command can be accepted: the device is ready, nothing is held for the event ring and the ring has room (16 R401), and no warm
reset is outstanding (16 R400). -/
def acceptDue (s : State) (m : Nat) : Bool :=
  let b := s.box m
  b.on && s.igUp && decide (s.fw.stage = 0x0A) && s.fw.resetCmd.isNone && !(s.fw.long.any fun q => decide (q.1 = 0x1C)) && b.evq.isEmpty && ringRoom s b && slotSealed s b

/-- The command that a code starts (16 R405). -/
def commandOf (code : Nat) (c : CmdRec) : Option Ev :=
  match code with
  | 0x01 => some (.ctxCreate c)
  | 0x02 => some (.ctxDestroy c)
  | 0x03 => some (.namespaceCreate c)
  | 0x04 => some (.map c)
  | 0x05 => some (.unmap c)
  | 0x06 => some (.pteRepair c)
  | 0x07 => some (.frameKindSet c)
  | 0x08 => some (.frameMigrate c)
  | 0x09 => some (.carve c)
  | 0x0A => some (.tierConfig c)
  | 0x0B => some (.launchWindowConfig c)
  | 0x0C => some (.queueCreate c)
  | 0x0D => some (.queuePriority c)
  | 0x0E => some (.umpireTableSet c)
  | 0x0F => some (.preempt c)
  | 0x10 => some (.checkpoint c)
  | 0x11 => some (.restore c)
  | 0x12 => some (.traceStart c)
  | 0x13 => some (.traceStop c)
  | 0x14 => some (.sampleConfig c)
  | 0x15 => some (.blackboxRead c)
  | 0x16 => some (.rasQuery c)
  | 0x17 => some (.linkService c)
  | 0x18 => some (.pairingSet c)
  | 0x19 => some (.partitionReplay c)
  | 0x1A => some (.fwPatchLoad c)
  | 0x1B => some (.attest c)
  | 0x1C => some (.resetWarm c)
  | 0x1D => some (.powerSet c)
  | 0x1E => some (.capResolve c)
  | _ => none

/-- The record of a waiting command. -/
def recOf (e : Ev) : Option (Nat × CmdRec) :=
  match e with
  | .ctxCreate c => some (0x01, c)
  | .ctxDestroy c => some (0x02, c)
  | .namespaceCreate c => some (0x03, c)
  | .map c => some (0x04, c)
  | .unmap c => some (0x05, c)
  | .pteRepair c => some (0x06, c)
  | .frameKindSet c => some (0x07, c)
  | .frameMigrate c => some (0x08, c)
  | .carve c => some (0x09, c)
  | .tierConfig c => some (0x0A, c)
  | .launchWindowConfig c => some (0x0B, c)
  | .queueCreate c => some (0x0C, c)
  | .queuePriority c => some (0x0D, c)
  | .umpireTableSet c => some (0x0E, c)
  | .preempt c => some (0x0F, c)
  | .checkpoint c => some (0x10, c)
  | .restore c => some (0x11, c)
  | .traceStart c => some (0x12, c)
  | .traceStop c => some (0x13, c)
  | .sampleConfig c => some (0x14, c)
  | .blackboxRead c => some (0x15, c)
  | .rasQuery c => some (0x16, c)
  | .linkService c => some (0x17, c)
  | .pairingSet c => some (0x18, c)
  | .partitionReplay c => some (0x19, c)
  | .fwPatchLoad c => some (0x1A, c)
  | .attest c => some (0x1B, c)
  | .resetWarm c => some (0x1C, c)
  | .powerSet c => some (0x1D, c)
  | .capResolve c => some (0x1E, c)
  | _ => none

/-- The context that a command names; TRACE_START only filters by one. -/
def namedCtx (q : Nat × CmdRec) : Nat := if q.1 = 0x12 then 0 else cctx q.2

/-- The long commands (16 R400). -/
def isLong (code : Nat) : Bool := [0x02, 0x08, 0x0F, 0x10, 0x11, 0x17, 0x1A].contains code

/-- A command waits for an outstanding long command on its context, for the one before it of its mailbox that is not long and has still
to end, for a CARVE of its die, or for one before it of its mailbox or context, or a RESET_WARM
(16 R400). -/
def mustWait (s : State) (q : Nat × CmdRec) (earlier : List Ev) : Bool :=
  let sameCtx := fun (l : Nat × CmdRec) => decide (namedCtx q ≠ 0) && decide (namedCtx l = namedCtx q)
  (s.fw.long.any fun l => sameCtx l || (!isLong l.1 && decide (l.2.mbx = q.2.mbx)) ||
      (decide (q.1 = 9) && decide (l.1 = 9) && decide (par l.2 0 = par q.2 0))) ||
    (earlier.filterMap recOf).any fun e => decide (e.2.mbx = q.2.mbx) || sameCtx e || decide (e.1 = 0x1C)

/-- The first waiting command that can start. -/
def firstStartable (s : State) : List Ev → List Ev → Option Ev
  | _, [] => none
  | seen, e :: t =>
    match recOf e with
    | some q => if mustWait s q seen then firstStartable s (seen ++ [e]) t else some e
    | none => firstStartable s (seen ++ [e]) t

/-- COMMAND_ACCEPT (16 R398-R400): the sealed slot is read, cons advances, and the command starts, waits, or is answered at once. -/
def execCommandAccept (mbx : Nat) (s : State) : Out :=
  if acceptDue s mbx then
    let b := s.box mbx
    let bs := s.bytes (.mem (cmdSlot b)) 128
    let f := fun (i n : Nat) => leNat ((bs.drop i).take n)
    let c : CmdRec :=
      { mbx := mbx, seq := BitVec.ofNat 32 (f 4 4), ctx := BitVec.ofNat 16 (f 8 2),
        p := Vector.ofFn fun i : Fin 12 => BitVec.ofNat 64 (f (16 + 8 * i.val) 8) }
    let s1 := (s.setBox mbx fun b => { b with cons := b.cons + 1 }).put (.mem (ckey b.base)) (natLE 8 (b.cons + 1))
    if f 2 2 ≠ 0 ∨ f 10 6 ≠ 0 ∨ f 112 15 ≠ 0 ∨ f 127 1 / 2 % 64 ≠ 0 then done (s1.reply c (f 0 2) stInvalid 0 0)
    else
      match commandOf (f 0 2) c with
      | none => done (s1.reply c (f 0 2) 3 0 0)
      | some e =>
        if mustWait s1 (f 0 2, c) s1.waiting then done { s1 with waiting := s1.waiting ++ [e] } else done (s1.later e)
  else done s

/-- MAILBOX_ENABLE (16 R397): firmware reads base, cm and en; the first mailbox that is on makes the device ready. -/
def execMailboxEnable (mbx : Nat) (s : State) : Out :=
  let b := s.box mbx
  let w := b.cfg.toNat
  if bit w 0 then
    let s1 := s.setBox mbx fun b => { b with on := true, base := w / 4096 * 4096, cm := fld w 8 4, en := fld w 4 4, cons := 0, prod := 0 }
    let s2 := if s.fw.stage = 9 then s1.setFw fun f => { f with stage := 0x0A } else s1
    done (match s2.fw.resetCmd with
      | some c => (s2.setFw fun f => { f with resetCmd := none }).reply c 0x1C 0 0 0
      | none => s2)
  else done s

/-! ## The configuration space (16 R397, R430; 17 R452) -/

/-- MBXCFG as a write leaves it: on only with cm and en in range. -/
def mbxWord (x : Word) : Word :=
  let n := x.toNat
  let ok := decide (2 ≤ fld n 8 4) && decide (fld n 8 4 ≤ 10) && decide (4 ≤ fld n 4 4) && decide (fld n 4 4 ≤ 12)
  BitVec.ofNat 64 (n / 16 * 16 + (if ok then n % 2 else 0))

/-- A write to MBXCFG: a change of on from 0 to 1 makes firmware read it, a change to 0 ends the service. -/
def State.writeMbx (s : State) (m : Nat) (x : Word) : State :=
  let was := (s.box m).cfg.getLsbD 0
  let w := mbxWord x
  let s1 := s.setBox m fun b => { b with cfg := w, on := b.on && w.getLsbD 0 }
  if !was && w.getLsbD 0 then s1.later (.mailboxEnable m) else s1

/-- CONFIG_SPACE_WRITE (16 R397): offsets 4,096 and up are those of Igvos port 1. -/
def execConfigSpaceWrite (off : Nat) (x : BitVec 64) (s : State) : Out :=
  let n := x.toNat
  match off % 4096 with
  | 0x010 => done (s.setFw fun f => { f with igbase := f.igbase.setIfInBounds (off / 4096) (BitVec.ofNat 64 (n / 2 ^ 32 * 2 ^ 32 + n % 2)) })
  | 0x018 =>
    done (s.setFw fun f =>
      { f with bootpatch := BitVec.ofNat 64 (n / 4096 * 4096 + (if bit n 0 then fld f.bootpatch.toNat 4 8 * 16 + 1 else 0)) })
  | 0x100 => done (s.writeMbx 0 x)
  | 0x108 => done (s.writeMbx 1 x)
  | _ => done s

/-- The device address behind a companion address, through a port that serves it and is up (17 R452). -/
def devicePa (s : State) (addr : Nat) : Option Nat :=
  (List.range 2).findSome? fun p =>
    let g := (s.fw.igbase.getD p 0).toNat
    if bit g 0 ∧ (s.link (112 + p)).st = 2 ∧ g / 2 ^ 32 * 2 ^ 32 ≤ addr ∧ addr - g / 2 ^ 32 * 2 ^ 32 < 2 ^ 44 then
      some (addr - g / 2 ^ 32 * 2 ^ 32)
    else none

/-- The byte's place: a version's byte in its frame, or memory. -/
def deviceLoc (s : State) (pa : Nat) : Loc := (tileAt s pa).getD (.mem pa)

/-- A companion access waits at its port: for a module on its way from the port die or that of a recall (17 R439, R443), during the first
phases of a checkpoint, while a frame moves or an engine owns a line, for a
write while a reservation stands there, and behind one that waits (18 R477, 16 R414, 03 R101, R110, 17 R452). -/
def portHolds (s : State) (wr : Bool) (pas : List Nat) : Bool :=
  (s.fw.ckpt.any fun k => decide (k.phase ≤ 2)) || pas.any s.heldPa ||
    (pas.any fun p => paExists p && (!s.wayOpen 4 (dieOfSlice (s.sliceOf p)) (p / 4096) (.mem p) ||
      !s.partiesOpen outsider p (if wr then .storeNc else .loadSi) (dieOfSlice (s.sliceOf p)) (p / 4096))) || (wr && pas.any fun p => s.reservedFrom 0 (.mem p) 1) ||
    !s.parked.isEmpty

/-- A companion address lies in a window of the package, whether or not its port is up. -/
def inWindow (s : State) (addr : Nat) : Bool :=
  (List.range 2).any fun p =>
    let g := (s.fw.igbase.getD p 0).toNat
    bit g 0 && decide (g / 2 ^ 32 * 2 ^ 32 ≤ addr) && decide (addr - g / 2 ^ 32 * 2 ^ 32 < 2 ^ 44)

/-- COMPANION_ACCESS (17 R452): a system-scope access at the home. Outside the package's window a write is one to the companion's own memory,
where the rings and mailboxes lie that the line monitors watch (17 R453). -/
def execCompanionAccess (wr : Bool) (addr : Nat) (bytes : List (BitVec 8)) (s : State) : Out :=
  match devicePa s addr with
  | none => done (if wr && !inWindow s addr then s.put (.mem (ckey addr)) bytes else s)
  | some pa =>
    let pas := (List.range bytes.length).map fun i => pa + i
    if portHolds s wr pas then done { s with parked := s.parked ++ [.companionAccess wr addr bytes] }
    else if pas.any fun p => !paExists p then done s
    else
      let s1 : State := pas.foldl (fun s p => s.request outsider p (if wr then .storeNc else .loadSi)) s
      if wr then done (s1.putMask (deviceLoc s1 pa) (bytes.map some) (bytes.length / 8 + 1)) else done s1

/-! ## Patch bundles (16 R428-R430) -/

/-- A bundle's version, floor and digest, or the status of the first check it fails (16 R429). -/
def checkBundle (s : State) (addr len : Nat) : Nat ⊕ (BitVec 16 × BitVec 32 × BitVec 256) :=
  let f := fun (i n : Nat) => s.loadNat (.mem (ckey (addr + i))) n
  let ver := f 4 2
  let pay := f 0xC 4
  if f 0 4 ≠ 0x4B595042 ∨ ver = 0 ∨ f 6 2 ≠ 0 ∨ f 0x30 0xD0 ≠ 0 ∨ 0x0C04 + 2 ^ 20 < len ∨ len < 0x0C04 + pay then .inl stInvalid
  else if f 8 4 < s.fw.otpRollback.toNat then .inl 0xA
  else if !Config.xmssVerifies (s.bytes (.mem (ckey addr)) 0x30) (s.bytes (.mem (ckey (addr + 0x100))) 2820) then .inl 9
  else if Config.shake256 (s.bytes (.mem (ckey (addr + 0x0C04))) pay) ≠ BitVec.ofNat 256 (f 0x10 32) then .inl 9
  else .inr (BitVec.ofNat 16 ver, BitVec.ofNat 32 (f 8 4), BitVec.ofNat 256 (f 0x10 32))

/-- FW_PATCH_LOAD (16 R429): a bundle that passes is staged; one that fails leaves what is staged. -/
def execFwPatchLoad (c : CmdRec) (s : State) : Out :=
  done (s.simple 0x1A false 3 c fun s =>
    match checkBundle s (par c 0) (par c 1) with
    | .inl st => .inr st
    | .inr b => .inl (s.setFw fun f => { f with staged := some b }, b.1.toNat))

/-- Apply a bundle: the rollback counter rises to its floor (16 R429). -/
def State.applyPatch (s : State) (b : BitVec 16 × BitVec 32 × BitVec 256) : State :=
  s.setFw fun f =>
    { f with patchVer := b.1, patchDigest := b.2.2, otpRollback := if f.otpRollback.toNat < b.2.1.toNat then b.2.1 else f.otpRollback }

/-- Stage 0x07 of a cold boot (16 R430): the bundle that BOOTPATCH names, its status in BOOTPATCH.st. -/
def State.bootPatch (s : State) : State :=
  let w := s.fw.bootpatch.toNat
  let st := fun (s : State) (n : Nat) => s.setFw fun f => { f with bootpatch := BitVec.ofNat 64 (w / 4096 * 4096 + n * 16 + w % 2) }
  if !bit w 0 then st s 0
  else
    let addr := w / 4096 * 4096
    match checkBundle s addr (0x0C04 + s.loadNat (.mem (ckey (addr + 0xC))) 4) with
    | .inl n => st s n
    | .inr b => st (s.applyPatch b) 0

/-- BOOTSTS (16 R427). -/
def bootsts (s : State) : Word :=
  BitVec.ofNat 64 (Config.romVersion.toNat * 2 ^ 48 + s.fw.patchVer.toNat * 2 ^ 32 + s.fw.bootErr.toNat * 2 ^ 16 + s.fw.stage.toNat)

/-! ## Attestation (16 R431, R432) -/

/-- Bytes 0x000-0x0FF of a report. -/
def reportBody (s : State) (nonce : List Byte) : List Byte :=
  nonce ++ natLE 32 Config.romDigest.toNat ++ natLE 32 s.fw.patchDigest.toNat ++ natLE 32 Config.otpConfigDigest.toNat ++
    natLE 4 s.fw.otpRollback.toNat ++ natLE 4 s.fw.otpIndex ++ natLE 4 (2 ^ 20 - (s.fw.otpIndex + 1)) ++
    natLE 2 s.fw.patchVer.toNat ++ natLE 2 s.fw.stage.toNat ++ List.replicate 112 0

/-- ATTEST (16 R431, R432): the index advances before the signature is released. -/
def execAttest (c : CmdRec) (s : State) : Out :=
  done (s.simple 0x1B false 3 c fun s =>
    let n := s.fw.otpIndex
    if 2 ^ 20 ≤ n then .inr 0xB
    else
      let body := reportBody s (s.bytes (.mem (ckey (par c 0))) 32)
      let sig := (List.range 2820).map (Config.xmssSign n body)
      let cert := (List.range 2888).map Config.deviceCertByte
      .inl ((s.setFw fun f => { f with otpIndex := n + 1 }).put (.mem (ckey (par c 1))) (body ++ sig ++ cert), 0x174C))

/-! ## Resets (16 R426, R433) -/

/-- Memory that is not this package's: the companion's and other packages'. -/
def isForeign (k : Nat) : Bool := decide (2 ^ 61 ≤ k)

/-- A byte of a die's black box. -/
def isBox (k : Nat) : Bool := decide (0x80000000000 ≤ k) && decide (k < 0x80000000000 + 2 ^ 32) && decide (2 ^ 30 - 65536 ≤ k % 2 ^ 30)

/-- A byte that stage 0x08 zeroes: local memory, and firmware frames outside the black box. -/
def isZeroed (s : State) (k : Nat) : Bool :=
  (decide (2 ^ 60 ≤ k) && decide (k < 2 ^ 61)) || (decide (k < 2 ^ 60) && decide (defaultKind s.fw.carve (k / 65536) = .firmware) && !isBox k)

/-- Keep the memory and poison that a test keeps. -/
def State.keepMem (s : State) (p : Nat → Bool) : State :=
  { s with mem := s.mem.filter fun c => p c.1, poison := s.poison.filter fun g => p (g * 8) }

/-- Stages 0x08 and 0x09 (16 R426): memories are zeroed, then firmware waits for a mailbox. -/
def State.bootEnd (s : State) : State :=
  let s1 := s.keepMem fun k => !isZeroed s k
  let s2 := s1.setFw fun f => { f with stage := if (s.box 0).on || (s.box 1).on then 0x0A else 9 }
  s2

/-- Stage 0x01 (16 R426, R428): the mask ROM and the vendor key in it have the digests that OTP holds; the key is an OID of 4 bytes, a
root and a seed of 32. -/
def romSound : Bool :=
  decide (Config.romDigest = Config.otpRomDigest) && decide (Config.shake256 ((List.range 68).map Config.romKeyByte) = Config.otpKeyDigest)

/-- Events that the outside world offers; a reset of the package does not stop it. -/
def fromOutside : Ev → Bool
  | .configSpaceWrite _ _ | .companionAccess _ _ _ | .igvosPortDown _ | .igvosPortUp _ | .powerSample _ | .thermalLimit _ | .powerLoss
  | .powerOn | .coldReset | .flitCrcRetry _ | .flezilForward _ _ _ | .flezilPortDown _ | .patrolScrub _ _ _ | .debugStop _
  | .debugStep _ | .debugResume _ | .debugAccess _ _ _ _ | .debugArm _ _ => true
  | _ => false

/-- COLD_RESET (16 R426): everything starts anew but BOOTPATCH and OTP, for a field that is kept is zero after it (00 R7); then the mask
ROM takes its stages. -/
def execColdReset (s : State) : Out :=
  if !s.power then done s
  else
    let s0 : State :=
      { State.reset with
        mem := s.mem, poison := s.poison, agenda := s.agenda.filter fromOutside
        fw := { State.reset.fw with bootpatch := s.fw.bootpatch, otpRollback := s.fw.otpRollback, otpIndex := s.fw.otpIndex } }
    if !romSound then done (s0.setFw fun f => { f with stage := 0xFF, bootErr := Config.bootFailure 1 })
    else
      let s1 := (s0.keepMem fun k => !isBox k).bootPatch.bootEnd
      done (s1.blackBox 4 8 0 0 0 (bootsts s1))

/-- POWER_ON (16 R430): BOOTPATCH is cleared and the package is as at reset, its memories empty. -/
def execPowerOn (s : State) : Out :=
  if s.power then done s
  else
    done { State.reset with
      mem := s.mem.filter fun c => isForeign c.1
      fw := { State.reset.fw with otpRollback := s.fw.otpRollback, otpIndex := s.fw.otpIndex } }

/-- POWER_LOSS (16 R432): only OTP survives in the package. -/
def execPowerLoss (s : State) : Out :=
  done { State.reset with
    power := false
    mem := s.mem.filter fun c => isForeign c.1
    fw := { State.reset.fw with otpRollback := s.fw.otpRollback, otpIndex := s.fw.otpIndex } }

/-- Every outstanding command is answered ABORTED (16 R433). -/
def State.abortAll (s : State) : State :=
  let s1 := s.abortCkpt
  let qs := s1.fw.long ++ s1.waiting.filterMap recOf
  let s2 : State := qs.foldl (fun s q => s.reply q.2 q.1 0xD 0 0) s1
  { s2.setFw fun f => { f with long := [], migrate := [], settling := [] } with waiting := [] }

/-- What a warm reset makes of a link: the reset column of its words (00 R7, 17 R441). What the outside world does to its lanes
stays. -/
def warmLink (tick : Nat) (x : Link) : Link :=
  { Link.up with since := tick, wbase := tick, lanes := x.lanes, spares := x.spares, stuck := x.stuck }

/-- Frame kinds that a warm reset keeps: those of HBM4 and of carved frames (16 R433). -/
def keepKind (s : State) (p : Nat × FrameKind) : Bool :=
  decide (p.1 ≤ 7812351) || decide (defaultKind s.fw.carve p.1 = .carved)

/-- Versions whose bytes stand in HBM4 leave them in their frames. -/
def State.settleRacked (s : State) : State :=
  (s.homes.vers.filter fun v => !v.hbm.isEmpty).foldl (fun s v =>
    ((v.hbm.zipIdx).foldl (fun s p =>
      let unit := v.cls.size.min 65536
      s.put (.mem p.1) ((List.range unit).map fun j => tget v.uid v.data (p.2 * unit + j))) s)) s

/-- The package after the contexts of a warm reset are gone: cores, homes and engines empty, stacked-SRAM cache written back; a word
takes the value of its reset column, and keeps its value where that column or 16 R433 says so (00 R7). -/
def State.warmed (s : State) : State :=
  { State.reset with
    tick := s.tick, free := s.free, uid := s.uid
    mem := s.mem, poison := s.poison, agenda := s.agenda.filter fromOutside
    fw := { State.reset.fw with
            fkinds := s.fw.fkinds.filter (keepKind s), carve := s.fw.carve, mbx := s.fw.mbx,
            bootpatch := s.fw.bootpatch, coldBoot := false, staged := none, otpRollback := s.fw.otpRollback, otpIndex := s.fw.otpIndex, images := s.fw.images }
    sched := { State.reset.sched with pre := s.sched.pre }
    links := s.links.map (warmLink s.tick)
    ras := { s.ras with ctl := 15, capw := 2100, pw := 0, mhz := 3600, floor := 1800 } }

/-- Every context of a warm reset can be taken down: its engine commands and launches are over (16 R408). -/
def resetReady (s : State) : Bool := (s.fw.ctxs.map (·.id)).all (destroyReady s)

/-- A warm reset that has begun and can go on. -/
def resetDue (s : State) (q : Nat × CmdRec) : Bool := decide (q.1 = 0x1C) && resetReady s

/-- The end of RESET_WARM: contexts go, the staged patch is applied, stages 0x07 to 0x0A; the reply follows the last. -/
def State.resetFinish (s : State) (c : CmdRec) : State :=
  let s1 := s.setFw fun f => { f with long := f.long.filter fun q => !decide (q = (0x1C, c)) }
  let s2 : State := s1.fw.ctxs.foldl (fun s x => s.destroyEnd x) s1
  let s3 := s2.settleRacked.warmed
  let s4 := match s2.fw.staged with
    | some b => s3.applyPatch b
    | none => s3
  let s5 := { s4 with fw := { s4.fw with mbx := s4.fw.mbx.map fun (b : Mbx) => { b with prod := 0 } } }
  let s6 : State := s5.bootEnd
  let s7 : State := s6.blackBox 4 8 1 0 0 (bootsts s6)
  if decide (s7.fw.stage = (0x0A : BitVec 8)) then s7.reply c 0x1C 0 0 0 else s7.setFw fun f => { f with resetCmd := some c }

/-- RESET_WARM (16 R433, 18 R471): commands are aborted, traces stopped, contexts destroyed as by CTX_DESTROY, which waits for their engine
commands and writes their launches' completion records; then the package restarts. -/
def execResetWarm (c : CmdRec) (s : State) : Out :=
  if s.fw.long.contains (0x1C, c) then (if resetReady s then done (s.resetFinish c) else done s)
  else
    done (s.command 0x1C false 0 c fun s =>
      let s1 := (s.cores.filter (·.trcOn)).foldl (fun s k => (s.traceLost k.id).setCore k.id fun k => { k with trcOn := false }) s.abortAll
      let s2 : State := (s1.fw.ctxs.map (·.id)).foldl State.destroyStart s1
      let s3 := s2.setFw fun f => { f with long := f.long ++ [(0x1C, c)] }
      if resetReady s3 then s3.resetFinish c else s3)

/-- What firmware and the driver's rings do next by themselves; a package in which a strand is resident has booted (log 5). -/
def firmwareNext (s : State) : Option Ev :=
  match (List.range 2).find? (drainDue s) with
  | some m => some (.eventRingDrain m)
  | none =>
    match (List.range 2).find? (acceptDue s) with
    | some m => some (.commandAccept m)
    | none =>
      match s.fw.long.find? (destroyDue s) with
      | some q => some (.ctxDestroy q.2)
      | none =>
      match s.fw.long.find? (resetDue s) with
      | some q => some (.resetWarm q.2)
      | none =>
        if ckptDue s then some .checkpointPhaseEnd
        else if !s.fw.migrate.isEmpty then some .frameMigrateCopyDone
        else if s.fw.long.any (carveDue s) then (s.fw.long.find? (carveDue s)).map fun q => .carve q.2
        else if s.fw.settling.any (fun q => settled s q.2.2.2) then
          (s.fw.settling.find? fun q => settled s q.2.2.2).map fun q => if q.1 = 5 then .unmap q.2.1 else .pteRepair q.2.1
        else if sampleDue s then some .samplePulse
        else if s.fw.stage = 1 ∧ s.fw.coldBoot = true ∧ s.strands.all (fun o => decide (o.run = .empty)) then some .coldReset
        else none

end Sys2Proof.Machine
end

