-- ==== Sys2Proof/Machine/Dispatch.lean ====
section
/-! DEFINITION. One arm per instruction: each is one call of its meaning. -/

namespace Sys2Proof.Machine

open Sys2Proof

/-- The meaning of every instruction. -/
def exec (i : Instr) (s : State) : Host.Outcome State Fault Refusal :=
  match i with
  | .add d a b sat => Sys2Proof.Machine.execAdd d a b sat s
  | .sub d a b sat => Sys2Proof.Machine.execSub d a b sat s
  | .mul d a b sat => Sys2Proof.Machine.execMul d a b sat s
  | .mulh d a b => Sys2Proof.Machine.execMulh d a b s
  | .mulhu d a b => Sys2Proof.Machine.execMulhu d a b s
  | .div d a b => Sys2Proof.Machine.execDiv d a b s
  | .divu d a b => Sys2Proof.Machine.execDivu d a b s
  | .rem d a b => Sys2Proof.Machine.execRem d a b s
  | .remu d a b => Sys2Proof.Machine.execRemu d a b s
  | .and d a b => Sys2Proof.Machine.execAnd d a b s
  | .or d a b => Sys2Proof.Machine.execOr d a b s
  | .xor d a b => Sys2Proof.Machine.execXor d a b s
  | .andn d a b => Sys2Proof.Machine.execAndn d a b s
  | .orn d a b => Sys2Proof.Machine.execOrn d a b s
  | .sll d a b => Sys2Proof.Machine.execSll d a b s
  | .srl d a b => Sys2Proof.Machine.execSrl d a b s
  | .sra d a b => Sys2Proof.Machine.execSra d a b s
  | .rol d a b => Sys2Proof.Machine.execRol d a b s
  | .ror d a b => Sys2Proof.Machine.execRor d a b s
  | .min d a b => Sys2Proof.Machine.execMin d a b s
  | .max d a b => Sys2Proof.Machine.execMax d a b s
  | .minu d a b => Sys2Proof.Machine.execMinu d a b s
  | .maxu d a b => Sys2Proof.Machine.execMaxu d a b s
  | .slt d a b => Sys2Proof.Machine.execSlt d a b s
  | .sltu d a b => Sys2Proof.Machine.execSltu d a b s
  | .seq d a b => Sys2Proof.Machine.execSeq d a b s
  | .sne d a b => Sys2Proof.Machine.execSne d a b s
  | .clz d a => Sys2Proof.Machine.execClz d a s
  | .ctz d a => Sys2Proof.Machine.execCtz d a s
  | .popc d a => Sys2Proof.Machine.execPopc d a s
  | .brev d a => Sys2Proof.Machine.execBrev d a s
  | .bswap d a => Sys2Proof.Machine.execBswap d a s
  | .sel d a b => Sys2Proof.Machine.execSel d a b s
  | .adds d a b sh => Sys2Proof.Machine.execAdds d a b sh s
  | .addi d a imm => Sys2Proof.Machine.execAddi d a imm s
  | .andi d a imm => Sys2Proof.Machine.execAndi d a imm s
  | .ori d a imm => Sys2Proof.Machine.execOri d a imm s
  | .xori d a imm => Sys2Proof.Machine.execXori d a imm s
  | .slli d a sh => Sys2Proof.Machine.execSlli d a sh s
  | .srli d a sh => Sys2Proof.Machine.execSrli d a sh s
  | .srai d a sh => Sys2Proof.Machine.execSrai d a sh s
  | .slti d a imm => Sys2Proof.Machine.execSlti d a imm s
  | .sltui d a imm => Sys2Proof.Machine.execSltui d a imm s
  | .lui d imm => Sys2Proof.Machine.execLui d imm s
  | .lit d x => Sys2Proof.Machine.execLit d x s
  | .lith d x => Sys2Proof.Machine.execLith d x s
  | .addpc d imm => Sys2Proof.Machine.execAddpc d imm s
  | .extr d a lenm1 pos => Sys2Proof.Machine.execExtr d a lenm1 pos s
  | .extru d a lenm1 pos => Sys2Proof.Machine.execExtru d a lenm1 pos s
  | .insr d a lenm1 pos => Sys2Proof.Machine.execInsr d a lenm1 pos s
  | .beq a b off => Sys2Proof.Machine.execBeq a b off s
  | .bne a b off => Sys2Proof.Machine.execBne a b off s
  | .blt a b off => Sys2Proof.Machine.execBlt a b off s
  | .bge a b off => Sys2Proof.Machine.execBge a b off s
  | .bltu a b off => Sys2Proof.Machine.execBltu a b off s
  | .bgeu a b off => Sys2Proof.Machine.execBgeu a b off s
  | .j off => Sys2Proof.Machine.execJ off s
  | .wcall off => Sys2Proof.Machine.execWcall off s
  | .ldb d base rq off => Sys2Proof.Machine.execLdb d base rq off s
  | .ldbu d base rq off => Sys2Proof.Machine.execLdbu d base rq off s
  | .ldh d base rq off => Sys2Proof.Machine.execLdh d base rq off s
  | .ldhu d base rq off => Sys2Proof.Machine.execLdhu d base rq off s
  | .ldw d base rq off => Sys2Proof.Machine.execLdw d base rq off s
  | .ldwu d base rq off => Sys2Proof.Machine.execLdwu d base rq off s
  | .ldd d base rq off => Sys2Proof.Machine.execLdd d base rq off s
  | .stb xs base rq off => Sys2Proof.Machine.execStb xs base rq off s
  | .sth xs base rq off => Sys2Proof.Machine.execSth xs base rq off s
  | .stw xs base rq off => Sys2Proof.Machine.execStw xs base rq off s
  | .std xs base rq off => Sys2Proof.Machine.execStd xs base rq off s
  | .vld v base rq off k => Sys2Proof.Machine.execVld v base rq off k s
  | .vst v base rq off k => Sys2Proof.Machine.execVst v base rq off k s
  | .vlds v base rq t k e => Sys2Proof.Machine.execVlds v base rq t k e s
  | .vsts v base rq t k e => Sys2Proof.Machine.execVsts v base rq t k e s
  | .vgath v base rq vi k e => Sys2Proof.Machine.execVgath v base rq vi k e s
  | .vscat v base rq vi k e => Sys2Proof.Machine.execVscat v base rq vi k e s
  | .vldb v base rq ew off => Sys2Proof.Machine.execVldb v base rq ew off s
  | .vldt v base rq e => Sys2Proof.Machine.execVldt v base rq e s
  | .pf base rq off => Sys2Proof.Machine.execPf base rq off s
  | .cflush base rq off => Sys2Proof.Machine.execCflush base rq off s
  | .xswap n base rq => Sys2Proof.Machine.execXswap n base rq s
  | .vmap a b w => Sys2Proof.Machine.execVmap a b w s
  | .vmapRel a b w => Sys2Proof.Machine.execVmapRel a b w s
  | .vunmap w => Sys2Proof.Machine.execVunmap w s
  | .vdraftNew d a cls w => Sys2Proof.Machine.execVdraftNew d a cls w s
  | .vdraftJoin d a w => Sys2Proof.Machine.execVdraftJoin d a w s
  | .vpub a w => Sys2Proof.Machine.execVpub a w s
  | .vdone w => Sys2Proof.Machine.execVdone w s
  | .vlatest d a => Sys2Proof.Machine.execVlatest d a s
  | .vsub a sq => Sys2Proof.Machine.execVsub a sq s
  | .vunsub a sq => Sys2Proof.Machine.execVunsub a sq s
  | .vretain a k => Sys2Proof.Machine.execVretain a k s
  | .vdrop a => Sys2Proof.Machine.execVdrop a s
  | .lrw d a w => Sys2Proof.Machine.execLrw d a w s
  | .sch a b w => Sys2Proof.Machine.execSch a b w s
  | .rls a => Sys2Proof.Machine.execRls a s
  | .amo d a b w op => Sys2Proof.Machine.execAmo d a b w op s
  | .acas d a b w => Sys2Proof.Machine.execAcas d a b w s
  | .ured a b tag => Sys2Proof.Machine.execUred a b tag s
  | .uredv a v k tag => Sys2Proof.Machine.execUredv a v k tag s
  | .odecl d a named lock tag => Sys2Proof.Machine.execOdecl d a named lock tag s
  | .ofree a => Sys2Proof.Machine.execOfree a s
  | .fenceAcq xs => Sys2Proof.Machine.execFenceAcq xs s
  | .fenceLl xs => Sys2Proof.Machine.execFenceLl xs s
  | .fenceRel xs => Sys2Proof.Machine.execFenceRel xs s
  | .fenceFull xs => Sys2Proof.Machine.execFenceFull xs s
  | .sqwait a ann sq => Sys2Proof.Machine.execSqwait a ann sq s
  | .sqinc inc ann sq => Sys2Proof.Machine.execSqinc inc ann sq s
  | .sqrd d sq => Sys2Proof.Machine.execSqrd d sq s
  | .qpush q a => Sys2Proof.Machine.execQpush q a s
  | .qpop d q => Sys2Proof.Machine.execQpop d q s
  | .qstat d q => Sys2Proof.Machine.execQstat d q s
  | .qpushc v h => Sys2Proof.Machine.execQpushc v h s
  | .msg a b => Sys2Proof.Machine.execMsg a b s
  | .spawn a b => Sys2Proof.Machine.execSpawn a b s
  | .join a => Sys2Proof.Machine.execJoin a s
  | .steal d a => Sys2Proof.Machine.execSteal d a s
  | .taskw a => Sys2Proof.Machine.execTaskw a s
  | .texit => Sys2Proof.Machine.execTexit s
  | .launch a => Sys2Proof.Machine.execLaunch a s
  | .vtrig a b => Sys2Proof.Machine.execVtrig a b s
  | .gang dir nc => Sys2Proof.Machine.execGang dir nc s
  | .ungang => Sys2Proof.Machine.execUngang s
  | .bar d a ev => Sys2Proof.Machine.execBar d a ev s
  | .bara => Sys2Proof.Machine.execBara s
  | .barw d => Sys2Proof.Machine.execBarw d s
  | .nret => Sys2Proof.Machine.execNret s
  | .wait => Sys2Proof.Machine.execWait s
  | .yield => Sys2Proof.Machine.execYield s
  | .mfs d sel => Sys2Proof.Machine.execMfs d sel s
  | .mts a sel => Sys2Proof.Machine.execMts a sel s
  | .ecall => Sys2Proof.Machine.execEcall s
  | .brk => Sys2Proof.Machine.execBrk s
  | .trmark a => Sys2Proof.Machine.execTrmark a s
  | .halt => Sys2Proof.Machine.execHalt s
  | .frdReg d cap kreg n => Sys2Proof.Machine.execFrdReg d cap kreg n s
  | .frdState d cap sel => Sys2Proof.Machine.execFrdState d cap sel s
  | .fwrReg cap a kreg n => Sys2Proof.Machine.execFwrReg cap a kreg n s
  | .fwrState cap a sel => Sys2Proof.Machine.execFwrState cap a sel s
  | .frdv v cap n => Sys2Proof.Machine.execFrdv v cap n s
  | .fwrv cap v n => Sys2Proof.Machine.execFwrv cap v n s
  | .frq d cap item => Sys2Proof.Machine.execFrq d cap item s
  | .fresRetry cap => Sys2Proof.Machine.execFresRetry cap s
  | .fresSkip cap => Sys2Proof.Machine.execFresSkip cap s
  | .fresRedirect a cap => Sys2Proof.Machine.execFresRedirect a cap s
  | .fkillAbandon cap => Sys2Proof.Machine.execFkillAbandon cap s
  | .fkillCount cap => Sys2Proof.Machine.execFkillCount cap s
  | .capxfer a cap => Sys2Proof.Machine.execCapxfer a cap s
  | .capdrop cap => Sys2Proof.Machine.execCapdrop cap s
  | .uexit => Sys2Proof.Machine.execUexit s
  | .cxrd a b => Sys2Proof.Machine.execCxrd a b s
  | .cxwr a b => Sys2Proof.Machine.execCxwr a b s
  | .anop => Sys2Proof.Machine.execAnop s
  | .jl d off => Sys2Proof.Machine.execJl d off s
  | .jlr d a off => Sys2Proof.Machine.execJlr d a off s
  | .wret => Sys2Proof.Machine.execWret s
  | .repRegister a lenm1 => Sys2Proof.Machine.execRepRegister a lenm1 s
  | .repImmediate count lenm1 => Sys2Proof.Machine.execRepImmediate count lenm1 s
  | .vnop => Sys2Proof.Machine.execVnop s
  | .kand kd ka kb => Sys2Proof.Machine.execKand kd ka kb s
  | .kor kd ka kb => Sys2Proof.Machine.execKor kd ka kb s
  | .kxor kd ka kb => Sys2Proof.Machine.execKxor kd ka kb s
  | .knot kd ka => Sys2Proof.Machine.execKnot kd ka s
  | .kmov kd ka => Sys2Proof.Machine.execKmov kd ka s
  | .vadd vd va vb k ew => Sys2Proof.Machine.execVadd vd va vb k ew s
  | .vaddSat vd va vb k ew => Sys2Proof.Machine.execVaddSat vd va vb k ew s
  | .vsubVector vd va vb k ew => Sys2Proof.Machine.execVsubVector vd va vb k ew s
  | .vsubSat vd va vb k ew => Sys2Proof.Machine.execVsubSat vd va vb k ew s
  | .vmul vd va vb k ew => Sys2Proof.Machine.execVmul vd va vb k ew s
  | .vmulh vd va vb k ew => Sys2Proof.Machine.execVmulh vd va vb k ew s
  | .vand vd va vb k ew => Sys2Proof.Machine.execVand vd va vb k ew s
  | .vor vd va vb k ew => Sys2Proof.Machine.execVor vd va vb k ew s
  | .vxor vd va vb k ew => Sys2Proof.Machine.execVxor vd va vb k ew s
  | .vandn vd va vb k ew => Sys2Proof.Machine.execVandn vd va vb k ew s
  | .vsll vd va vb k ew => Sys2Proof.Machine.execVsll vd va vb k ew s
  | .vsrl vd va vb k ew => Sys2Proof.Machine.execVsrl vd va vb k ew s
  | .vsra vd va vb k ew => Sys2Proof.Machine.execVsra vd va vb k ew s
  | .vmin vd va vb k ew => Sys2Proof.Machine.execVmin vd va vb k ew s
  | .vmax vd va vb k ew => Sys2Proof.Machine.execVmax vd va vb k ew s
  | .vminu vd va vb k ew => Sys2Proof.Machine.execVminu vd va vb k ew s
  | .vmaxu vd va vb k ew => Sys2Proof.Machine.execVmaxu vd va vb k ew s
  | .vabs vd va k ew => Sys2Proof.Machine.execVabs vd va k ew s
  | .vpopc vd va k ew => Sys2Proof.Machine.execVpopc vd va k ew s
  | .vsel vd va vb k ew => Sys2Proof.Machine.execVsel vd va vb k ew s
  | .vcmpEq kd va vb k ew => Sys2Proof.Machine.execVcmpEq kd va vb k ew s
  | .vcmpNe kd va vb k ew => Sys2Proof.Machine.execVcmpNe kd va vb k ew s
  | .vcmpLt kd va vb k ew => Sys2Proof.Machine.execVcmpLt kd va vb k ew s
  | .vcmpLe kd va vb k ew => Sys2Proof.Machine.execVcmpLe kd va vb k ew s
  | .vcmpLtu kd va vb k ew => Sys2Proof.Machine.execVcmpLtu kd va vb k ew s
  | .vcmpLeu kd va vb k ew => Sys2Proof.Machine.execVcmpLeu kd va vb k ew s
  | .vmadd vd va vb vc k ew => Sys2Proof.Machine.execVmadd vd va vb vc k ew s
  | .vfadd vd va vb k w => Sys2Proof.Machine.execVfadd vd va vb k w s
  | .vfsub vd va vb k w => Sys2Proof.Machine.execVfsub vd va vb k w s
  | .vfmul vd va vb k w => Sys2Proof.Machine.execVfmul vd va vb k w s
  | .vfdiv vd va vb k w => Sys2Proof.Machine.execVfdiv vd va vb k w s
  | .vfmin vd va vb k w => Sys2Proof.Machine.execVfmin vd va vb k w s
  | .vfmax vd va vb k w => Sys2Proof.Machine.execVfmax vd va vb k w s
  | .vfsqrt vd va k w => Sys2Proof.Machine.execVfsqrt vd va k w s
  | .vfrcp vd va k w => Sys2Proof.Machine.execVfrcp vd va k w s
  | .vfrsq vd va k w => Sys2Proof.Machine.execVfrsq vd va k w s
  | .vfexp2 vd va k w => Sys2Proof.Machine.execVfexp2 vd va k w s
  | .vflog2 vd va k w => Sys2Proof.Machine.execVflog2 vd va k w s
  | .vtsum vd va vb k w => Sys2Proof.Machine.execVtsum vd va vb k w s
  | .vfcmpEq kd va vb k w => Sys2Proof.Machine.execVfcmpEq kd va vb k w s
  | .vfcmpLt kd va vb k w => Sys2Proof.Machine.execVfcmpLt kd va vb k w s
  | .vfcmpLe kd va vb k w => Sys2Proof.Machine.execVfcmpLe kd va vb k w s
  | .vfcmpUn kd va vb k w => Sys2Proof.Machine.execVfcmpUn kd va vb k w s
  | .vfsgnCp vd va vb k w => Sys2Proof.Machine.execVfsgnCp vd va vb k w s
  | .vfsgnNeg vd va vb k w => Sys2Proof.Machine.execVfsgnNeg vd va vb k w s
  | .vfsgnXor vd va vb k w => Sys2Proof.Machine.execVfsgnXor vd va vb k w s
  | .vfclass vd va k w => Sys2Proof.Machine.execVfclass vd va k w s
  | .vfma vd va vb vc k w => Sys2Proof.Machine.execVfma vd va vb vc k w s
  | .vfnma vd va vb vc k w => Sys2Proof.Machine.execVfnma vd va vb vc k w s
  | .vcvt vd va src dst rm sat k => Sys2Proof.Machine.execVcvt vd va src dst rm sat k s
  | .venc vd va c4 rm sat k tbl => Sys2Proof.Machine.execVenc vd va c4 rm sat k tbl s
  | .vdec vd va c4 rm sat k tbl => Sys2Proof.Machine.execVdec vd va c4 rm sat k tbl s
  | .vencS vd va c4 rm sat k tbl => Sys2Proof.Machine.execVencS vd va c4 rm sat k tbl s
  | .vdecS vd va c4 rm sat k tbl => Sys2Proof.Machine.execVdecS vd va c4 rm sat k tbl s
  | .vfkey vd va k => Sys2Proof.Machine.execVfkey vd va k s
  | .vperm vd va vb k ew => Sys2Proof.Machine.execVperm vd va vb k ew s
  | .vbcast vd a k ew => Sys2Proof.Machine.execVbcast vd a k ew s
  | .vext d va b ew => Sys2Proof.Machine.execVext d va b ew s
  | .vins vd a b ew => Sys2Proof.Machine.execVins vd a b ew s
  | .vslideUp vd va b k ew => Sys2Proof.Machine.execVslideUp vd va b k ew s
  | .vslideDn vd va b k ew => Sys2Proof.Machine.execVslideDn vd va b k ew s
  | .vred vd va kind k ew => Sys2Proof.Machine.execVred vd va kind k ew s
  | .vscan vd va kind k ew => Sys2Proof.Machine.execVscan vd va kind k ew s
  | .vcmprs vd va k ew => Sys2Proof.Machine.execVcmprs vd va k ew s
  | .vsortA vd va => Sys2Proof.Machine.execVsortA vd va s
  | .vsortD vd va => Sys2Proof.Machine.execVsortD vd va s
  | .vmergeA vd va vb => Sys2Proof.Machine.execVmergeA vd va vb s
  | .vmergeD vd va vb => Sys2Proof.Machine.execVmergeD vd va vb s
  | .mmas qa qb acc t z g f => Sys2Proof.Machine.execMmas qa qb acc t z g f s
  | .mzero acc => Sys2Proof.Machine.execMzero acc s
  | .mtab b a => Sys2Proof.Machine.execMtab b a s
  | .vqpush q va => Sys2Proof.Machine.execVqpush q va s
  | .gangForm leader => Sys2Proof.Machine.execGangForm leader s
  | .gangCommit leader => Sys2Proof.Machine.execGangCommit leader s
  | .noticeEntry key => Sys2Proof.Machine.execNoticeEntry key s
  | .gangNoticeEntry leader => Sys2Proof.Machine.execGangNoticeEntry leader s
  | .windowSpill key => Sys2Proof.Machine.execWindowSpill key s
  | .windowRefill key => Sys2Proof.Machine.execWindowRefill key s
  | .remoteAccessComplete key => Sys2Proof.Machine.execRemoteAccessComplete key s
  | .homeAnswer key => Sys2Proof.Machine.execHomeAnswer key s
  | .meshWordArrival src q => Sys2Proof.Machine.execMeshWordArrival src q s
  | .messageDelivery src => Sys2Proof.Machine.execMessageDelivery src s
  | .dropNotice src q => Sys2Proof.Machine.execDropNotice src q s
  | .arrivalNotice key x => Sys2Proof.Machine.execArrivalNotice key x s
  | .reservationHandoff addr => Sys2Proof.Machine.execReservationHandoff addr s
  | .enqueueResend key => Sys2Proof.Machine.execEnqueueResend key s
  | .countedMessageResend key slice => Sys2Proof.Machine.execCountedMessageResend key slice s
  | .releaseQueryAnswer key => Sys2Proof.Machine.execReleaseQueryAnswer key s
  | .sequenceCounterIncrement file idx inc => Sys2Proof.Machine.execSequenceCounterIncrement file idx inc s
  | .objectRequest cluster pa req => Sys2Proof.Machine.execObjectRequest cluster pa req s
  | .collectRequest pa cluster => Sys2Proof.Machine.execCollectRequest pa cluster s
  | .mergeFold pa => Sys2Proof.Machine.execMergeFold pa s
  | .partialEviction cluster line => Sys2Proof.Machine.execPartialEviction cluster line s
  | .silentEviction cluster line => Sys2Proof.Machine.execSilentEviction cluster line s
  | .invalidationReceive cluster line rcl => Sys2Proof.Machine.execInvalidationReceive cluster line rcl s
  | .versionPublish ver => Sys2Proof.Machine.execVersionPublish ver s
  | .rackStart ver => Sys2Proof.Machine.execRackStart ver s
  | .rackComplete ver => Sys2Proof.Machine.execRackComplete ver s
  | .floatComplete ver => Sys2Proof.Machine.execFloatComplete ver s
  | .taskDispatch uid => Sys2Proof.Machine.execTaskDispatch uid s
  | .dispatchRetry uid => Sys2Proof.Machine.execDispatchRetry uid s
  | .stealRound key => Sys2Proof.Machine.execStealRound key s
  | .matrixOperandStage core => Sys2Proof.Machine.execMatrixOperandStage core s
  | .matrixStepStart core => Sys2Proof.Machine.execMatrixStepStart core s
  | .matrixStepRetire core => Sys2Proof.Machine.execMatrixStepRetire core s
  | .tfetch uid => Sys2Proof.Machine.execTfetch uid s
  | .tcopy uid => Sys2Proof.Machine.execTcopy uid s
  | .tfill uid => Sys2Proof.Machine.execTfill uid s
  | .treduce uid => Sys2Proof.Machine.execTreduce uid s
  | .tpost uid => Sys2Proof.Machine.execTpost uid s
  | .tnote uid => Sys2Proof.Machine.execTnote uid s
  | .tfloat uid => Sys2Proof.Machine.execTfloat uid s
  | .track uid => Sys2Proof.Machine.execTrack uid s
  | .commandStart uid => Sys2Proof.Machine.execCommandStart uid s
  | .commandComplete uid => Sys2Proof.Machine.execCommandComplete uid s
  | .combiningHoldExpiry uid => Sys2Proof.Machine.execCombiningHoldExpiry uid s
  | .collectiveChunkFold uid chunk => Sys2Proof.Machine.execCollectiveChunkFold uid chunk s
  | .umpireSpawn key => Sys2Proof.Machine.execUmpireSpawn key s
  | .umpirePoolTimeout key => Sys2Proof.Machine.execUmpirePoolTimeout key s
  | .strokeSlotReclaim core => Sys2Proof.Machine.execStrokeSlotReclaim core s
  | .strokeSlotLend core => Sys2Proof.Machine.execStrokeSlotLend core s
  | .launchRecordSeal ctx queue => Sys2Proof.Machine.execLaunchRecordSeal ctx queue s
  | .dispatcherStep => Sys2Proof.Machine.execDispatcherStep s
  | .launchWaitHolds uid => Sys2Proof.Machine.execLaunchWaitHolds uid s
  | .classAgeing uid => Sys2Proof.Machine.execClassAgeing uid s
  | .rectangleReserve uid => Sys2Proof.Machine.execRectangleReserve uid s
  | .localMemoryZeroed core => Sys2Proof.Machine.execLocalMemoryZeroed core s
  | .swapOut key => Sys2Proof.Machine.execSwapOut key s
  | .strandRestore key => Sys2Proof.Machine.execStrandRestore key s
  | .launchEnd uid => Sys2Proof.Machine.execLaunchEnd uid s
  | .commandAccept mbx => Sys2Proof.Machine.execCommandAccept mbx s
  | .eventRingDrain mbx => Sys2Proof.Machine.execEventRingDrain mbx s
  | .ctxCreate c => Sys2Proof.Machine.execCtxCreate c s
  | .ctxDestroy c => Sys2Proof.Machine.execCtxDestroy c s
  | .namespaceCreate c => Sys2Proof.Machine.execNamespaceCreate c s
  | .map c => Sys2Proof.Machine.execMap c s
  | .unmap c => Sys2Proof.Machine.execUnmap c s
  | .pteRepair c => Sys2Proof.Machine.execPteRepair c s
  | .frameKindSet c => Sys2Proof.Machine.execFrameKindSet c s
  | .frameMigrate c => Sys2Proof.Machine.execFrameMigrate c s
  | .carve c => Sys2Proof.Machine.execCarve c s
  | .tierConfig c => Sys2Proof.Machine.execTierConfig c s
  | .launchWindowConfig c => Sys2Proof.Machine.execLaunchWindowConfig c s
  | .queueCreate c => Sys2Proof.Machine.execQueueCreate c s
  | .queuePriority c => Sys2Proof.Machine.execQueuePriority c s
  | .umpireTableSet c => Sys2Proof.Machine.execUmpireTableSet c s
  | .preempt c => Sys2Proof.Machine.execPreempt c s
  | .checkpoint c => Sys2Proof.Machine.execCheckpoint c s
  | .checkpointPhaseEnd => Sys2Proof.Machine.execCheckpointPhaseEnd s
  | .restore c => Sys2Proof.Machine.execRestore c s
  | .traceStart c => Sys2Proof.Machine.execTraceStart c s
  | .traceStop c => Sys2Proof.Machine.execTraceStop c s
  | .sampleConfig c => Sys2Proof.Machine.execSampleConfig c s
  | .blackboxRead c => Sys2Proof.Machine.execBlackboxRead c s
  | .rasQuery c => Sys2Proof.Machine.execRasQuery c s
  | .linkService c => Sys2Proof.Machine.execLinkService c s
  | .pairingSet c => Sys2Proof.Machine.execPairingSet c s
  | .partitionReplay c => Sys2Proof.Machine.execPartitionReplay c s
  | .fwPatchLoad c => Sys2Proof.Machine.execFwPatchLoad c s
  | .attest c => Sys2Proof.Machine.execAttest c s
  | .resetWarm c => Sys2Proof.Machine.execResetWarm c s
  | .powerSet c => Sys2Proof.Machine.execPowerSet c s
  | .capResolve c => Sys2Proof.Machine.execCapResolve c s
  | .powerOn => Sys2Proof.Machine.execPowerOn s
  | .coldReset => Sys2Proof.Machine.execColdReset s
  | .mailboxEnable mbx => Sys2Proof.Machine.execMailboxEnable mbx s
  | .configSpaceWrite off x => Sys2Proof.Machine.execConfigSpaceWrite off x s
  | .companionAccess wr addr bytes => Sys2Proof.Machine.execCompanionAccess wr addr bytes s
  | .igvosPortDown p => Sys2Proof.Machine.execIgvosPortDown p s
  | .powerSample watts => Sys2Proof.Machine.execPowerSample watts s
  | .thermalLimit mhz => Sys2Proof.Machine.execThermalLimit mhz s
  | .linkHold l => Sys2Proof.Machine.execLinkHold l s
  | .linkRetrain l => Sys2Proof.Machine.execLinkRetrain l s
  | .linkResume l => Sys2Proof.Machine.execLinkResume l s
  | .linkTakeDown l => Sys2Proof.Machine.execLinkTakeDown l s
  | .linkTrain l => Sys2Proof.Machine.execLinkTrain l s
  | .holdDrained l => Sys2Proof.Machine.execHoldDrained l s
  | .holdTimeout l => Sys2Proof.Machine.execHoldTimeout l s
  | .laneTestDone l bad badSpare => Sys2Proof.Machine.execLaneTestDone l bad badSpare s
  | .flitCrcRetry l => Sys2Proof.Machine.execFlitCrcRetry l s
  | .errorWindowClose => Sys2Proof.Machine.execErrorWindowClose s
  | .linkServiceRoutine l => Sys2Proof.Machine.execLinkServiceRoutine l s
  | .flezilForward rank dst x => Sys2Proof.Machine.execFlezilForward rank dst x s
  | .flezilPortDown p => Sys2Proof.Machine.execFlezilPortDown p s
  | .patrolScrub key unit uncorrectable => Sys2Proof.Machine.execPatrolScrub key unit uncorrectable s
  | .samplePulse => Sys2Proof.Machine.execSamplePulse s
  | .debugStop core => Sys2Proof.Machine.execDebugStop core s
  | .debugStep key => Sys2Proof.Machine.execDebugStep key s
  | .debugResume core => Sys2Proof.Machine.execDebugResume core s
  | .debugAccess key wr what x => Sys2Proof.Machine.execDebugAccess key wr what x s
  | .illegalOpcode cause bsyl => Sys2Proof.Machine.execIllegalOpcode cause bsyl s
  | .fetchLineRefill core => Sys2Proof.Machine.execFetchLineRefill core s
  | .ownedLineWriteBack cluster line => Sys2Proof.Machine.execOwnedLineWriteBack cluster line s
  | .frameMigrateCopyDone => Sys2Proof.Machine.execFrameMigrateCopyDone s
  | .areaWriteBackComplete core => Sys2Proof.Machine.execAreaWriteBackComplete core s
  | .powerLoss => Sys2Proof.Machine.execPowerLoss s
  | .igvosPortUp p => Sys2Proof.Machine.execIgvosPortUp p s
  | .debugArm core on => Sys2Proof.Machine.execDebugArm core on s

end Sys2Proof.Machine
end

