-- ==== Sys2Proof/Machine/Turns.lean ====
section
/-! DEFINITION. Whose turn it is: which strand issues, which event follows by itself, and how the clock advances between them
(01 R13-R19, 12 R350; log 3, 6). -/

namespace Sys2Proof.Machine

open Sys2Proof

/-- What an event in flight does: the meaning of the constructor of `Instr` that has its name. -/
def Ev.run (e : Ev) (s : State) : Out :=
  match e with
  | .gangForm leader => execGangForm leader s
  | .gangCommit leader => execGangCommit leader s
  | .noticeEntry key => execNoticeEntry key s
  | .gangNoticeEntry leader => execGangNoticeEntry leader s
  | .windowSpill key => execWindowSpill key s
  | .windowRefill key => execWindowRefill key s
  | .remoteAccessComplete key => execRemoteAccessComplete key s
  | .homeAnswer key => execHomeAnswer key s
  | .meshWordArrival src q => execMeshWordArrival src q s
  | .messageDelivery src => execMessageDelivery src s
  | .dropNotice src q => execDropNotice src q s
  | .arrivalNotice key x => execArrivalNotice key x s
  | .reservationHandoff addr => execReservationHandoff addr s
  | .enqueueResend key => execEnqueueResend key s
  | .countedMessageResend key slice => execCountedMessageResend key slice s
  | .releaseQueryAnswer key => execReleaseQueryAnswer key s
  | .sequenceCounterIncrement file idx inc => execSequenceCounterIncrement file idx inc s
  | .objectRequest cluster pa req => execObjectRequest cluster pa req s
  | .collectRequest pa cluster => execCollectRequest pa cluster s
  | .mergeFold pa => execMergeFold pa s
  | .partialEviction cluster line => execPartialEviction cluster line s
  | .silentEviction cluster line => execSilentEviction cluster line s
  | .invalidationReceive cluster line rcl => execInvalidationReceive cluster line rcl s
  | .versionPublish ver => execVersionPublish ver s
  | .rackStart ver => execRackStart ver s
  | .rackComplete ver => execRackComplete ver s
  | .floatComplete ver => execFloatComplete ver s
  | .taskDispatch uid => execTaskDispatch uid s
  | .dispatchRetry uid => execDispatchRetry uid s
  | .stealRound key => execStealRound key s
  | .matrixOperandStage core => execMatrixOperandStage core s
  | .matrixStepStart core => execMatrixStepStart core s
  | .matrixStepRetire core => execMatrixStepRetire core s
  | .tfetch uid => execTfetch uid s
  | .tcopy uid => execTcopy uid s
  | .tfill uid => execTfill uid s
  | .treduce uid => execTreduce uid s
  | .tpost uid => execTpost uid s
  | .tnote uid => execTnote uid s
  | .tfloat uid => execTfloat uid s
  | .track uid => execTrack uid s
  | .commandStart uid => execCommandStart uid s
  | .commandComplete uid => execCommandComplete uid s
  | .combiningHoldExpiry uid => execCombiningHoldExpiry uid s
  | .collectiveChunkFold uid chunk => execCollectiveChunkFold uid chunk s
  | .umpireSpawn key => execUmpireSpawn key s
  | .umpirePoolTimeout key => execUmpirePoolTimeout key s
  | .strokeSlotReclaim core => execStrokeSlotReclaim core s
  | .strokeSlotLend core => execStrokeSlotLend core s
  | .launchRecordSeal ctx queue => execLaunchRecordSeal ctx queue s
  | .dispatcherStep => execDispatcherStep s
  | .launchWaitHolds uid => execLaunchWaitHolds uid s
  | .classAgeing uid => execClassAgeing uid s
  | .rectangleReserve uid => execRectangleReserve uid s
  | .localMemoryZeroed core => execLocalMemoryZeroed core s
  | .swapOut key => execSwapOut key s
  | .strandRestore key => execStrandRestore key s
  | .launchEnd uid => execLaunchEnd uid s
  | .commandAccept mbx => execCommandAccept mbx s
  | .eventRingDrain mbx => execEventRingDrain mbx s
  | .ctxCreate c => execCtxCreate c s
  | .ctxDestroy c => execCtxDestroy c s
  | .namespaceCreate c => execNamespaceCreate c s
  | .map c => execMap c s
  | .unmap c => execUnmap c s
  | .pteRepair c => execPteRepair c s
  | .frameKindSet c => execFrameKindSet c s
  | .frameMigrate c => execFrameMigrate c s
  | .carve c => execCarve c s
  | .tierConfig c => execTierConfig c s
  | .launchWindowConfig c => execLaunchWindowConfig c s
  | .queueCreate c => execQueueCreate c s
  | .queuePriority c => execQueuePriority c s
  | .umpireTableSet c => execUmpireTableSet c s
  | .preempt c => execPreempt c s
  | .checkpoint c => execCheckpoint c s
  | .checkpointPhaseEnd => execCheckpointPhaseEnd s
  | .restore c => execRestore c s
  | .traceStart c => execTraceStart c s
  | .traceStop c => execTraceStop c s
  | .sampleConfig c => execSampleConfig c s
  | .blackboxRead c => execBlackboxRead c s
  | .rasQuery c => execRasQuery c s
  | .linkService c => execLinkService c s
  | .pairingSet c => execPairingSet c s
  | .partitionReplay c => execPartitionReplay c s
  | .fwPatchLoad c => execFwPatchLoad c s
  | .attest c => execAttest c s
  | .resetWarm c => execResetWarm c s
  | .powerSet c => execPowerSet c s
  | .capResolve c => execCapResolve c s
  | .powerOn => execPowerOn s
  | .coldReset => execColdReset s
  | .mailboxEnable mbx => execMailboxEnable mbx s
  | .configSpaceWrite off x => execConfigSpaceWrite off x s
  | .companionAccess wr addr bytes => execCompanionAccess wr addr bytes s
  | .igvosPortDown p => execIgvosPortDown p s
  | .powerSample watts => execPowerSample watts s
  | .thermalLimit mhz => execThermalLimit mhz s
  | .linkHold l => execLinkHold l s
  | .linkRetrain l => execLinkRetrain l s
  | .linkResume l => execLinkResume l s
  | .linkTakeDown l => execLinkTakeDown l s
  | .linkTrain l => execLinkTrain l s
  | .holdDrained l => execHoldDrained l s
  | .holdTimeout l => execHoldTimeout l s
  | .laneTestDone l bad badSpare => execLaneTestDone l bad badSpare s
  | .flitCrcRetry l => execFlitCrcRetry l s
  | .errorWindowClose => execErrorWindowClose s
  | .linkServiceRoutine l => execLinkServiceRoutine l s
  | .flezilForward rank dst x => execFlezilForward rank dst x s
  | .flezilPortDown p => execFlezilPortDown p s
  | .patrolScrub key unit uncorrectable => execPatrolScrub key unit uncorrectable s
  | .samplePulse => execSamplePulse s
  | .debugStop core => execDebugStop core s
  | .debugStep key => execDebugStep key s
  | .debugResume core => execDebugResume core s
  | .debugAccess key wr what x => execDebugAccess key wr what x s
  | .illegalOpcode cause bsyl => execIllegalOpcode cause bsyl s
  | .fetchLineRefill core => execFetchLineRefill core s
  | .ownedLineWriteBack cluster line => execOwnedLineWriteBack cluster line s
  | .frameMigrateCopyDone => execFrameMigrateCopyDone s
  | .areaWriteBackComplete core => execAreaWriteBackComplete core s
  | .powerLoss => execPowerLoss s
  | .igvosPortUp p => execIgvosPortUp p s
  | .debugArm core on => execDebugArm core on s

/-- The next state of an outcome; a stop leaves the machine as it stands. -/
def orStay (s : State) : Out → State
  | .next t => t
  | _ => s

/-! ## Strands (01 R13-R19) -/

/-- A strand that has turns in a cycle: ready, parked for a turn or in the steal loop, or stopped and stepped; followers and trailers go
with another, and a strand parked on a condition holds no turn until it wakes (01 R16). -/
def hasTurns (t : Nat) (o : Strand) : Bool :=
  !o.out && decide (o.moveEnd ≤ t) && !o.trailer && (decide (o.run = .ready) || (decide (o.run = .parked) && o.park.inTurns) ||
    (decide (o.run = .stopped) && o.stepping))

/-- Privileged work of a stroke slot (01 R18). -/
def strokeWork (core : Nat) (o : Strand) : Bool :=
  decide (o.level ≠ .user) && decide (o.sid = core * 8 + 7) && !o.out && decide (o.run = .ready)

/-- The activity a stroke slot runs: the one that has begun and not parked, else umpires first, in order of arrival (01 R18). -/
def strokeHolder (s : State) (core : Nat) : Option Strand :=
  let l := s.strands.filter (strokeWork core)
  (l.find? fun o => o.started) <|> (l.find? fun o => o.ump.isSome) <|> l.head?

/-- The stroke slot's rule: one activity at a time, in the order umpires, inbox service, firmware services; a borrower beside none
of them (01 R18, R19). A cox core's slot 7 is its stroke slot (11 R317). -/
def mayTurn (s : State) (o : Strand) : Bool :=
  if o.sid % 8 = 7 ∧ o.core < 2560 then
    match strokeHolder s o.core with
    | some h => decide (h.key = o.key) && (h.started || h.ump.isSome || !inboxWork s o.core)
    | none => decide (o.level ≠ .user) || !inboxWork s o.core
  else true

/-- No turn of the strand lies before this cycle, nor one of its slot that another activity has used. -/
def notBefore (s : State) (o : Strand) : Nat :=
  if o.sid % 8 = 7 ∧ o.core < 2560 then Nat.max o.turn (s.core o.core).turn7 else o.turn

/-- A strand whose turn has come: its slot holds the turn in this cycle (01 R14). -/
def due (s : State) (o : Strand) : Bool :=
  hasTurns s.tick o && decide (notBefore s o ≤ s.tick) && decide (alignTurn o.sid s.tick = s.tick) && mayTurn s o

/-- The earlier of two turns; the lower handle where they are equal (log 3). -/
def sooner (a b : Strand) : Bool := decide (a.turn < b.turn) || (decide (a.turn = b.turn) && decide (a.key < b.key))

/-- The strand that issues next. -/
def nextStrand (s : State) : Option Strand :=
  (s.strands.filter (due s)).foldl (fun b o => match b with
    | none => some o
    | some x => if sooner o x then some o else b) none

/-- A strand waits on. -/
def isParked (s : State) (key : Nat) : Bool := (s.strand key).any fun x => decide (x.run = .parked)

/-- The stroke slot's turn was the strand's, unless it was parked and still is; an activity that parks yields the slot (01 R18).
Privileged activity puts off lending (12 R370). -/
def State.strokeDone (s : State) (o : Strand) : State :=
  if o.sid % 8 = 7 ∧ o.core < 2560 ∧ !(decide (o.run = .parked) && isParked s o.key) then
    (s.setCore o.core fun c => { c with turn7 := s.tick + 8, lastPriv := if o.level = .user then c.lastPriv else s.tick }).upd o.key
      fun x => { x with started := decide (x.level ≠ .user) && !decide (x.run = .parked) }
  else s

/-- A strand takes a notice, tries a steal, or issues its bundle, its gang with it. -/
def bundleTurn (o : Strand) (s : State) : Out :=
  if gangNoticeDue s o then execGangNoticeEntry o.key s
  else if noticeDue o then execNoticeEntry o.key s
  else if o.park = .steal then execStealRound o.key s
  else if o.ganged ∧ o.gangReq = none then execGangCommit o.key s
  else done ((issue (s.focus o.key)).strokeDone o)

/-- The turn of a strand: on a stopped core it stops there, or runs the one bundle it is stepped through (18 R469). -/
def turnOf (o : Strand) (s : State) : Out :=
  if o.run = .stopped then done (s.stepOne o fun x s1 => orStay s1 (bundleTurn x s1))
  else if (s.core o.core).stopped = true ∧ o.run = .ready then done (s.enterStopped o)
  else bundleTurn o s

/-! ## Events that follow by themselves -/

/-- The core is in a bubble that its background work has not used: the slot that holds this cycle's turn issues nothing in it (01 R14,
R15). -/
def inBubble (s : State) (core : Nat) : Bool :=
  decide ((s.core core).bubble ≤ s.tick) &&
    !(s.strands.any fun o => decide (o.core = core) && decide (alignTurn o.sid s.tick = s.tick) && decide (o.turn = s.tick + 8))

/-- A window group that moves in a bubble (01 R15, R23). -/
def windowNext (s : State) : Option Ev :=
  match s.strands.find? fun o => !o.trailer && canSpill o && inBubble s o.core with
  | some o => some (.windowSpill o.key)
  | none => (s.strands.find? fun o => !o.trailer && canRefill o && inBubble s o.core).map fun o => .windowRefill o.key

/-- The oldest outbound word of a mesh channel can go (10 R290). -/
def meshDue (s : State) (o : Strand) (q : Nat) : Bool :=
  match o.qout.getD q [] with
  | [] => false
  | w :: _ =>
    match (facing o.core q).bind fun c => s.slotStrand (c * 8 + slotOf o.sid) o.ctx with
    | some f => s.meshOpen o.core f.core && (s.deliver f.key (oppositeQ q) w o.key).1
    | none => true

/-- Words and messages that can move (10 R290, R294). -/
def wordNext (s : State) : Option Ev :=
  s.strands.findSome? fun o =>
    match (List.range 4).find? (meshDue s o) with
    | some q => some (.meshWordArrival o.key (BitVec.ofNat 4 q))
    | none => if messageDue s o then some (.messageDelivery o.key) else none

/-- Answers and resends at the homes (03 R108, R109; 02 R85, R86). -/
def homeNext (s : State) : Option Ev :=
  match s.strands.find? fun o => o.query.any fun q => !q.answered && queryHolds s o q.dieOnly with
  | some o => some (.releaseQueryAnswer o.key)
  | none =>
    match s.homes.resend.find? fun r => (s.arrive r.2.1 r.1 r.2.2).isSome with
    | some r => some (.countedMessageResend r.1 r.2.1)
    | none =>
      match s.homes.resv.find? fun r => (handDue s r).isSome with
      | some r => some (.reservationHandoff r.loc)
      | none =>
      match s.homes.notices.find? fun p => noticeOpen s p.1 p.2 && (s.deliver p.1 8 p.2 0).1 with
      | some p => some (.arrivalNotice p.1 p.2)
      | none =>
      match s.homes.vers.find? (publishDue s) with
      | some v => some (.versionPublish v.uid)
      | none =>
      match s.homes.vers.find? fun v => decide (v.st = .floating) && (s.takeTile (s.nameSlice v.space v.name) v.cls).isSome with
      | some v => some (.floatComplete v.uid)
      | none => (s.homes.vers.find? fun v => rackDue s v && (s.takeRack (s.verDie v) v.cls).isSome).map fun v => .rackStart v.uid

/-- Task frames whose conditions hold (10 R303). -/
def frameNext (s : State) : Option Ev :=
  (s.homes.wframes.find? (dispatchable s)).map fun w => if w.retry = 0 then .taskDispatch w.uid else .dispatchRetry w.uid

/-- What a core's matrix pipe does next (09 R265-R268). -/
def pipeNext (s : State) (c : Nat) : Option Ev :=
  match (s.core c).pipe.head? with
  | none => if (stageAny s c).isSome then some (.matrixOperandStage c) else none
  | some m =>
    if m.started then
      (if retirable s m then some (.matrixStepRetire c) else if (stageAny s c).isSome then some (.matrixOperandStage c) else none)
    else if (startable s c).isSome then some (.matrixStepStart c)
    else if (stageAny s c).isSome then some (.matrixOperandStage c)
    else none

/-- The matrix pipes. -/
def matrixNext (s : State) : Option Ev := s.cores.findSome? fun c => pipeNext s c.id

/-- A strand that has waited in the FIFO of a pool for 1 ms, since it froze (11 R319). -/
def poolNext (s : State) : Option Ev :=
  (s.pools.findSome? fun p => p.pend.find? fun k => (s.strand k).any fun o =>
    decide (o.run = .frozenPending) && decide (o.since + 3600000 ≤ s.tick)).map .umpirePoolTimeout

/-- A borrower in a stroke slot whose core has privileged work: the inbox handler's or an umpire's (01 R19). -/
def reclaimNext (s : State) : Option Ev :=
  (s.strands.find? fun o => o.borrower && !o.out && !decide (o.run = .empty) && decide (o.sid % 8 = 7) &&
    (inboxWork s o.core || (strokeHolder s o.core).isSome)).map fun o => .strokeSlotReclaim o.core

/-- The events that can follow by themselves, one of each part; those nearest the strands come first (log 3). -/
def nextEvents (s : State) : List Ev :=
  [reclaimNext s, windowNext s, wordNext s, homeNext s, frameNext s, matrixNext s, engineEvent s, schedEvent s, linkNext s, poolNext s,
    firmwareNext s].filterMap id

/-- An event would leave the state as it is. -/
def idles (s : State) (e : Ev) : Bool := decide (orStay s (e.run s) = s)

/-- The event that follows by itself: the first that does something. -/
def nextEvent (s : State) : Option Ev := (nextEvents s).find? fun e => !idles s e

/-! ## The clock -/

/-- The turn of the stroke slot that its inbox handler takes next, where it has work (01 R18). -/
def serviceTurn (s : State) (core : Nat) : Nat := alignTurn (core * 8 + 7) (Nat.max (s.tick + 1) (s.core core).turn7)

/-- No later than this does the clock stand still: the next turn, the next dispatcher step, the next sample, the next cycle while a window
group waits for a bubble, or 8 cycles on (01 R14, R23, 12 R350, 18 R467). -/
def nextTick (s : State) : Nat :=
  let p := s.fw.sample.period
  let sample := if p = 0 then s.tick + 8 else Nat.min (s.tick + 8) ((s.tick / p + 1) * p)
  let moves := s.strands.any fun o => !o.trailer && (canSpill o || canRefill o)
  let limit := if moves then s.tick + 1 else if s.tick < s.sched.nextStep then Nat.min sample s.sched.nextStep else sample
  s.strands.foldl (fun t o =>
    let t1 := if hasTurns s.tick o then Nat.min t (alignTurn o.sid (Nat.max (s.tick + 1) (notBefore s o))) else t
    if inboxWork s o.core then Nat.min t1 (serviceTurn s o.core) else t1) limit

/-- The stroke slot of a core is in a bubble of its own: its turn, which nobody has used. -/
def strokeBubble (s : State) (core : Nat) : Bool :=
  decide (core < 2560) && decide ((s.core core).turn7 ≤ s.tick) && decide (alignTurn (core * 8 + 7) s.tick = s.tick)

/-- In a bubble of the stroke slot its handler services one entry of the core's inbox (01 R18, 11 R333). -/
def State.serviceInbox (s : State) (o : Strand) : State :=
  if strokeBubble s o.core && defersInbox o && !decide (o.run = .empty) && (o.inbox.any fun i => !i.served) then
    (s.upd o.key fun x => { x with inbox := serveFirst x.inbox }).setCore o.core fun c => { c with turn7 := s.tick + 8, lastPriv := s.tick }
  else s

/-- Nothing else happens in this cycle. -/
def State.idle (s : State) : State :=
  { (s.strands.foldl State.serviceInbox s).routeAll with tick := nextTick s }

/-- Whatever came to hold in a step is noted with it (01 R47), and an FRES retry that had to wait is tried again (16 R423). -/
def noted (x : Out) : Out :=
  match x with
  | .next t => .next t.noteConds.retryAgain
  | x => x

/-- One thing that happens: an event in flight, the wake of a parked strand, a strand's turn, a waiting command, an event that follows, or
the next cycle. -/
def State.happen (s : State) : Out :=
  match s.agenda with
  | e :: t => e.run { s with agenda := t }
  | [] =>
    match nextWake s with
    | some t => done t
    | none =>
    match nextStrand s with
    | some o => turnOf o s
    | none =>
      match firstStartable s [] s.waiting with
      | some e => e.run { s with waiting := s.waiting.erase e }
      | none =>
        match nextEvent s with
        | some e => e.run s
        | none => done s.idle

/-- One step of the package with power. -/
def State.advance (s : State) : Out := noted s.happen

/-- A package without power: POWER_ON starts it; whatever else is offered to it has no effect. -/
def State.powerless (s : State) : Out :=
  match s.agenda with
  | .powerOn :: t => execPowerOn { s with agenda := t }
  | _ :: t => done { s with agenda := t }
  | [] => .fault .noPower

/-! ## Placing one instruction -/

/-- The bytes of a bundle that holds one instruction beside an idle syllable, and the core that executes it: a syllable of
coprocessor access goes to the first such core, every other to compute core 0 (05 R142, R146). -/
def placedBundle (nbits w : Nat) : Nat × Nat :=
  match decodeTableWord nbits w with
  | some i =>
    let core := match i with
      | .cxrd _ _ => 2304
      | .cxwr _ _ => 2304
      | _ => 0
    match decodeB true w with
    | .ins _ => (core, anopWord + w % 2 ^ 32 * 2 ^ 32)
    | _ => (core, w % 2 ^ 32)
  | none => (0, w % 2 ^ 32)

/-- Where a placed strand fetches: the bottom of its own local memory (06 R188). -/
def placedPc : Word := 0x00FD000000000000#64

/-- A strand in slot 0 of a core, whose turn is now: the cycle is one in which slot 0 holds the turn (01 R14). -/
def placedStrand (s : State) (core : Nat) : Strand :=
  { Strand.blank with key := s.uid, sid := core * 8, run := .ready, turn := s.tick, pc := placedPc }

/-- Place the bundle in the core's local memory and a strand before it, with no event in flight and no line fetched (log 5). -/
def State.placeBundle (s : State) (core w : Nat) : State :=
  let t := { s with power := true, tick := alignTurn (core * 8) s.tick }
  let s1 := { t with uid := s.uid + 1, me := placedStrand t core, others := [], agenda := [] }
  (s1.setCore core fun c => { c with line := none, stopped := false }).put (.mem (lkey core 0)) (natLE 8 w)

end Sys2Proof.Machine
end

