-- ==== Sys2Proof/Machine/Step.lean ====
section
/-! DEFINITION. One step of the package, and the placing of one instruction where it fetches next. -/

namespace Sys2Proof.Machine

open Sys2Proof

/-- One step. A package without power does nothing until POWER_ON (16 R430). -/
def step (s : State) : Host.Outcome State Fault Refusal :=
  if s.power then s.advance else s.powerless

/-- The machine with one instruction, of bits numbered as the opcode table numbers them, where the next step fetches (log 5). -/
def State.withFetchWord (s : State) (nbits w : Nat) : State :=
  s.placeBundle (placedBundle nbits w).1 (placedBundle nbits w).2

end Sys2Proof.Machine
end

