-- ==== Sys2Proof/Safety.lean ====
section
/-! DEFINITION. What the claims call a sound state, and what an instruction leaves as it found it. -/

namespace Sys2Proof.Machine

open Sys2Proof

/-- Memory is in its canonical form: addresses strictly rising and no byte 0 listed, so that equal memories are equal data (log 2). -/
def State.memWf (s : State) : Prop := Memory.wf s.mem = true

/-- No two resident strands share a handle. -/
def State.distinct (s : State) : Prop := ((s.strands.filter fun o => !decide (o.run = .empty)).map (·.key)).Nodup

/-- Every byte of memory reads as before. -/
def sameMem (s t : State) : Prop := ∀ a, mget t.mem a = mget s.mem a

/-- Every byte of memory outside n bytes from a place reads as before. -/
def sameMemOutside (s t : State) (k n : Nat) : Prop := ∀ a, (a < k ∨ k + n ≤ a) → mget t.mem a = mget s.mem a

/-! ## What a completed bundle leaves -/

/-- The issuing strand executes its bundle: no failed background spill freezes it first (01 R24). -/
def canIssue (s : State) : Prop := s.me.winFault = false

/-- The bundle of the issuing strand completes, with nothing done but `f` to the strand: the PC moves on, an iteration ends where
one ends, and the next turn is 8 cycles later (01 R14, R36, 05 R142). -/
def ends (s : State) (f : Strand → Strand) : State := (s.begin.setMe f).complete s.begin.me .next

/-- The bundle completes with one g register written. -/
def gives (s : State) (d : R5) (x : Word) : State := ends s fun o => o.setG d x

/-- The bundle completes with one vector register written and events counted. -/
def givesV (s : State) (d : R5) (x : Vec) (e : Evs) : State := ends s fun o => (o.setV d x).tally e

/-- The bundle completes with one mask register written and events counted. -/
def givesK (s : State) (d : K3) (x : Word) (e : Evs) : State := ends s fun o => (o.setK d x).tally e

/-- The issuing strand is not running an iteration of a repeat clause (01 R37). -/
def outsideClause (s : State) : Prop := (s.me.armed && !s.me.susp) = false

/-- n bytes from an offset of the strand's own local memory: no granule of them poisoned, and no store of the strand to their lines still
on its way (03 R101). -/
def cleanLocal (s : State) (off n : Nat) : Prop :=
  off + n ≤ 2 ^ 17 ∧ ∀ i, i < n →
    s.poisonedAt (.mem (lkey s.me.core (off + i))) = false ∧ s.linePosted (.mem (lkey s.me.core (off + i))) = false

/-- n bytes from an offset of the strand's own local memory that a store reaches at once: no other strand's reservation stands on them,
and no store to their lines is still on its way (03 R101, 07 R217). -/
def openLocal (s : State) (off n : Nat) : Prop :=
  off + n ≤ 2 ^ 17 ∧ s.reservedFrom s.me.key (.mem (lkey s.me.core off)) n = false ∧
    ∀ i, i < n → ∀ q ∈ s.homes.posted, lineOf q.loc ≠ lineOf (.mem (lkey s.me.core (off + i)))

/-- The address of an offset in the strand's own local memory (02 R48, R51). -/
def ownLocal (off : Nat) : Word := 0x00FD000000000000#64 + BitVec.ofNat 64 off

/-- The issuing strand has no counted store, remote store or deferred store outstanding, no store or update of it is on its way, no push
has still to leave and no query is under way: a release of it completes at once (03 R106, R108, R115). -/
def noneOutstanding (s : State) : Prop :=
  s.me.counts = [] ∧ s.me.acks = 0 ∧ s.me.query = none ∧ s.me.replay = [] ∧ pushesOut s.me = true ∧
    ∀ p ∈ s.homes.posted, p.key ≠ s.me.key

/-- The state with no wait noted as held: what a store has let strands, pooled frames and launch records note is left out
(10 R301, R302, 12 R349). -/
def State.unnoted (s : State) : State :=
  ((s.updAll fun o => { o with woken := false }).setHomes fun h =>
      { h with wframes := h.wframes.map fun w => { w with fired := false } }).setSched fun d =>
        { d with launches := d.launches.map fun l => { l with met := false } }

/-- From s to t the bundle completed, and nothing but bytes of memory, their poison marks and the decode RAMs' marks differs from a
completed bundle, beside the waits that the bytes let others note. -/
def storesOnly (s t : State) : Prop :=
  t.unnoted = { (ends s id).unnoted with mem := t.mem, poison := t.poison, cores := t.cores }

/-- An update of an operator to a place in plain memory is combined at once: in its cluster, or on a way to its home that nothing holds
(02 R60, 07 R222, 17 R443). -/
def updatesAtOnce (s : State) (tag : BitVec 4) (va : Word) (pa : Nat) : Prop :=
  let e : El := { lane := 0, va := va, loc := .mem pa, rg := .plain, pa := some pa }
  if uHere s tag (cacheOf s.me.core) pa then s.linePosted (.mem pa) = false
  else s.stageFull e = false ∧ s.postedWaits { s.postOf .own e [] with slice := none, upd := some (tag, []) } = false

/-- The bundle that leads from s to t completed: the PC and the clause are those of a completed bundle, no other register of the
strand's g, v, k and h files changed, and the strand is not parked or frozen. -/
def completedAs (s t : State) : Prop :=
  t.me.pc = (ends s id).me.pc ∧ t.me.lcount = (ends s id).me.lcount ∧ t.me.armed = (ends s id).me.armed ∧
  (∀ r, t.me.g r = s.me.g r) ∧ (∀ r, t.me.vr r = s.me.vr r) ∧ (∀ r, t.me.kr r = s.me.kr r) ∧ t.me.h = s.me.h ∧
  t.me.run = (ends s id).me.run ∧ t.me.park = .none

/-- The same where the bundle writes one g register. -/
def completedWith (s t : State) (d : R5) (x : Word) : Prop :=
  t.me.pc = (ends s id).me.pc ∧ t.me.lcount = (ends s id).me.lcount ∧ t.me.armed = (ends s id).me.armed ∧
  (∀ r, t.me.g r = (s.me.setG d x).g r) ∧ (∀ r, t.me.vr r = s.me.vr r) ∧ (∀ r, t.me.kr r = s.me.kr r) ∧ t.me.h = s.me.h ∧
  t.me.run = (ends s id).me.run ∧ t.me.park = .none

/-- The bundle parked: the PC stands, the registers are as they were, and the strand waits (01 R16, R17). -/
def parkedAs (s t : State) : Prop :=
  t.me.pc = s.me.pc ∧ (t.me.run = .parked ∨ (s.me.run = .follower ∧ t.me.run = .follower)) ∧ t.me.park ≠ .none ∧
  (∀ r, t.me.g r = s.me.g r) ∧ (∀ r, t.me.vr r = s.me.vr r) ∧ (∀ r, t.me.kr r = s.me.kr r) ∧ t.mem = s.mem

/-! ## Vector results -/

/-- A first vector source, what it holds, and the machine once it is taken: a register, or 8 words of a queue that the strand may pop,
that holds them, and none of which is poisoned (08 R232). -/
def takes (s : State) (va : VSrc) (a : Vec) (s1 : State) : Prop :=
  match va with
  | .reg r => a = s.me.vr r ∧ s1 = s.begin
  | .que q => queueCause s.begin.me false q = none ∧ poisonedPop s.begin.me q 8 = none ∧
      ∃ ws, s.begin.popQ s.begin.me q 8 = some (ws, s1) ∧ a = packLanes 64 (ws.map (·.toNat))

/-- The queue a first vector source names. -/
def queueOfSrc : VSrc → Option Q4
  | .reg _ => none
  | .que q => some q

/-- A vector result: the bundle completes with `vd` written and `e` counted; each of the `n` lanes of `w` bits that the mask makes active
holds `f` of it modulo 2^w, and each other one what it held (08 R231). -/
def writesV (s s1 : State) (i : Instr) (vd : R5) (k : K3) (w n : Nat) (e : Evs) (f : Nat → Nat) : Prop :=
  ∃ x : Vec, exec i s = .next (((s1.wv vd x).tally e).complete s.begin.me .next) ∧
    ∀ j < n, laneOf w x j = if s.me.active k j then f j % 2 ^ w else laneOf w (s.me.vr vd) j

/-- A vector result that counts nothing. -/
def writesQuiet (s s1 : State) (i : Instr) (vd : R5) (k : K3) (w n : Nat) (f : Nat → Nat) : Prop :=
  ∃ x : Vec, exec i s = .next ((s1.wv vd x).complete s.begin.me .next) ∧
    ∀ j < n, laneOf w x j = if s.me.active k j then f j % 2 ^ w else laneOf w (s.me.vr vd) j

/-- A mask result: bit j is `f j` below n and 0 above (08 R236). -/
def writesK (s s1 : State) (i : Instr) (kd : K3) (n : Nat) (e : Evs) (f : Nat → Bool) : Prop :=
  ∃ x : Word, exec i s = .next (((s1.wk kd x).tally e).complete s.begin.me .next) ∧ ∀ j < 64, x.getLsbD j = (decide (j < n) && f j)

/-- The events of the active lanes (08 R231). -/
def activeEvs (o : Strand) (k : K3) (n : Nat) (f : Nat → Evs) : Evs :=
  sumEvs ((List.range n).map fun j => if o.active k j then f j else Evs.zero)

/-- Lane `l` is the first active one with a subnormal source in trap mode (04 R133, 08 R233). -/
def trapLane (o : Strand) (k : K3) (n : Nat) (sub : Nat → Bool) (l : Nat) : Prop :=
  o.flush = false ∧ l < n ∧ o.active k l = true ∧ sub l = true ∧ ∀ j < l, o.active k j = false ∨ sub j = false

/-- No active lane traps. -/
def noTrap (o : Strand) (k : K3) (n : Nat) (sub : Nat → Bool) : Prop :=
  o.flush = true ∨ ∀ j < n, o.active k j = false ∨ sub j = false

/-- The instruction freezes the strand with SUBNORMAL_OPERAND at a lane, its queue kept for the umpire. -/
def trapsAt (s : State) (i : Instr) (va : VSrc) (l : Nat) : Prop :=
  exec i s = .next (s.begin.freezeMe { Raise.of Cause.subnormalOperand with lane := l } true (queueOfSrc va))

/-! ## Frozen strands and capabilities -/

/-- A valid capability of the issuer that names the strand `x`, of its serial where it is frozen (11 R322). -/
def namesStrand (s : State) (cap : BitVec 2) (x : Strand) : Prop :=
  let c := s.me.caps.getD cap.toNat 0
  s.me.level ≠ .user ∧ capValid c = true ∧ s.begin.capStrand c = some x ∧ (x.isFrozen = true → x.serial.toNat = capSerial c)

/-- The same with a right, of a frozen strand. -/
def namesFrozen (s : State) (cap : BitVec 2) (right : Nat) (x : Strand) : Prop :=
  namesStrand s cap x ∧ capRight (s.me.caps.getD cap.toNat 0) right = true ∧ x.isFrozen = true

/-- No two records of strands share a handle. -/
def State.uniqueKeys (s : State) : Prop := (s.strands.map (·.key)).Nodup

/-- No strand of a pair waits at GANG, which freezes it (01 R41, 18 R463). -/
def State.gangsUnpaired (s : State) : Prop := ∀ x ∈ s.strands, x.gangReq.isSome = true → x.pair = none

/-! ## Driver commands -/

/-- The command passes the checks that come before any effect (16 R404). -/
def allowed (s : State) (c : CmdRec) (code : Nat) (named : Bool) (used : Nat) : Prop := refuseCmd s code named used c = none

/-- The command is answered once, from the state it leaves (16 R400, R401). -/
def answers (s t : State) (i : Instr) (c : CmdRec) (code status : Nat) (res : Word) : Prop := exec i s = .next (t.reply c code status res 0)

/-- The command is answered with a status and has no effect (16 R404). -/
def refuses (s : State) (i : Instr) (c : CmdRec) (code status : Nat) : Prop := answers s s i c code status 0

/-! ## Registers alone -/

/-- The register that an instruction of the scalar slot writes, where it writes one g register from registers and constants and does nothing
else; with saturation it may count in EVSAT (06 R177-R182). -/
def scalarDest : Instr → Option R5
  | .add d _ _ _ | .sub d _ _ _ | .mul d _ _ _ | .mulh d _ _ | .mulhu d _ _ | .and d _ _ | .or d _ _ | .xor d _ _ | .andn d _ _ | .orn d _ _
  | .sll d _ _ | .srl d _ _ | .sra d _ _ | .rol d _ _ | .ror d _ _ | .min d _ _ | .max d _ _ | .minu d _ _ | .maxu d _ _ | .slt d _ _
  | .sltu d _ _ | .seq d _ _ | .sne d _ _ | .clz d _ | .ctz d _ | .popc d _ | .brev d _ | .bswap d _ | .sel d _ _ | .adds d _ _ _
  | .addi d _ _ | .andi d _ _ | .ori d _ _ | .xori d _ _ | .slli d _ _ | .srli d _ _ | .srai d _ _ | .slti d _ _ | .sltui d _ _ | .lui d _
  | .addpc d _ | .div d _ _ | .divu d _ _
  | .rem d _ _ | .remu d _ _ | .lit d _ | .lith d _ | .extr d _ _ _ | .extru d _ _ _ | .insr d _ _ _ => some d
  | _ => none

/-- What both syllables of a bundle are: instructions of a slot, not steps of the part. -/
def isSyllable (i : Instr) : Prop := (sylOf i).isSome = true

end Sys2Proof.Machine
end

