-- ==== Sys2Proof/Certificates/Slice0/Obligations.lean ====
section
/-! DEFINITION. What is claimed of the machine, for the provers: one Prop per statement. `exec i s` is the bundle that holds i beside
an idle syllable (05 R142); `ends`, `gives`, `canIssue` and the like are of Sys2Proof/Safety.lean. -/

open Sys2Proof Sys2Proof.Machine

/-! ## Registers and bytes -/

/-- 01 R21: what a g register reads after a write: g0 reads 0 and keeps nothing, each other register keeps its own 64 bits. 01 R21: masks and vector registers: k0 reads all ones and keeps nothing. 00 R6, 02 R98: the bytes of memory after a store of n bytes: those stored, lowest address first, and every other as before. -/
def Obligations.RegistersAndBytesReadBack : Prop :=
  (∀ (o : Strand) (r q : R5) (x : Word),
      (o.setG r x).g q = if q = 0 then 0 else if q = r then x else o.g q) ∧
  ((∀ (o : Strand) (r q : K3) (x : Word), (o.setK r x).kr q = if q = 0 then BitVec.allOnes 64 else if q = r then x else o.kr q) ∧
    (∀ (o : Strand) (r q : R5) (x : Vec), (o.setV r x).vr q = if q = r then x else o.vr q)) ∧
  (∀ (m : List Host.Cell) (k a : Nat) (bs : List Byte), Memory.wf m = true →
      mget (msetN m k bs) a = if k ≤ a ∧ a < k + bs.length then bs.getD (a - k) 0 else mget m a)

/-- 00 R8: an immediate is the sign extension of its field, and a literal of its 32 bits. 06 R177: the results of register arithmetic and logic, of any registers, g0 among them. 06 R178: the .sat forms clamp to int64, and EVSAT (counter 6) counts each clamp. 06 R184: bit counts, reversals, select and scaled add. 06 R180-R183, R185: immediates, constants and bit fields. -/
def Obligations.ScalarResults : Prop :=
  (∀ (n : Nat), 0 < n → n ≤ 64 → ∀ (x : BitVec n) (y : BitVec 32),
      immVal (Imm.fld x) = x.signExtend 64 ∧ immVal (Imm.lit y : Imm n) = y.signExtend 64) ∧
  (∀ (s : State) (d a b : R5), canIssue s →
      let x := s.me.g a
      let y := s.me.g b
      let n := y.toNat % 64
      exec (.add d a b false) s = .next (gives s d (x + y)) ∧
      exec (.sub d a b false) s = .next (gives s d (x - y)) ∧
      exec (.mul d a b false) s = .next (gives s d (x * y)) ∧
      exec (.mulh d a b) s = .next (gives s d (BitVec.ofInt 64 (x.toInt * y.toInt / 2 ^ 64))) ∧
      exec (.mulhu d a b) s = .next (gives s d (BitVec.ofNat 64 (x.toNat * y.toNat / 2 ^ 64))) ∧
      exec (.and d a b) s = .next (gives s d (x &&& y)) ∧
      exec (.or d a b) s = .next (gives s d (x ||| y)) ∧
      exec (.xor d a b) s = .next (gives s d (x ^^^ y)) ∧
      exec (.andn d a b) s = .next (gives s d (x &&& ~~~y)) ∧
      exec (.orn d a b) s = .next (gives s d (x ||| ~~~y)) ∧
      exec (.sll d a b) s = .next (gives s d (x <<< n)) ∧
      exec (.srl d a b) s = .next (gives s d (x >>> n)) ∧
      exec (.sra d a b) s = .next (gives s d (x.sshiftRight n)) ∧
      exec (.rol d a b) s = .next (gives s d (x.rotateLeft n)) ∧
      exec (.ror d a b) s = .next (gives s d (x.rotateRight n)) ∧
      exec (.min d a b) s = .next (gives s d (if x.toInt < y.toInt then x else y)) ∧
      exec (.max d a b) s = .next (gives s d (if x.toInt < y.toInt then y else x)) ∧
      exec (.minu d a b) s = .next (gives s d (if x.toNat < y.toNat then x else y)) ∧
      exec (.maxu d a b) s = .next (gives s d (if x.toNat < y.toNat then y else x)) ∧
      exec (.slt d a b) s = .next (gives s d (if x.toInt < y.toInt then 1 else 0)) ∧
      exec (.sltu d a b) s = .next (gives s d (if x.toNat < y.toNat then 1 else 0)) ∧
      exec (.seq d a b) s = .next (gives s d (if x = y then 1 else 0)) ∧
      exec (.sne d a b) s = .next (gives s d (if x = y then 0 else 1))) ∧
  (∀ (s : State) (d a b : R5), canIssue s →
      let put := fun (r : Int) =>
        if (2 ^ 63 - 1 : Int) < r then ends s fun o => (o.setG d 0x7FFFFFFFFFFFFFFF#64).count 6 1
        else if r < -2 ^ 63 then ends s fun o => (o.setG d 0x8000000000000000#64).count 6 1
        else gives s d (BitVec.ofInt 64 r)
      exec (.add d a b true) s = .next (put ((s.me.g a).toInt + (s.me.g b).toInt)) ∧
      exec (.sub d a b true) s = .next (put ((s.me.g a).toInt - (s.me.g b).toInt)) ∧
      exec (.mul d a b true) s = .next (put ((s.me.g a).toInt * (s.me.g b).toInt))) ∧
  (∀ (s : State) (d a b : R5) (sh : BitVec 2), canIssue s →
      let x := s.me.g a
      (∃ n ≤ 64, exec (.clz d a) s = .next (gives s d (BitVec.ofNat 64 n)) ∧
        (∀ i < n, x.getLsbD (63 - i) = false) ∧ (n < 64 → x.getLsbD (63 - n) = true)) ∧
      (∃ n ≤ 64, exec (.ctz d a) s = .next (gives s d (BitVec.ofNat 64 n)) ∧
        (∀ i < n, x.getLsbD i = false) ∧ (n < 64 → x.getLsbD n = true)) ∧
      exec (.popc d a) s = .next (gives s d (BitVec.ofNat 64 ((List.range 64).countP fun i => x.getLsbD i))) ∧
      (∃ r : Word, exec (.brev d a) s = .next (gives s d r) ∧ ∀ i < 64, r.getLsbD i = x.getLsbD (63 - i)) ∧
      (∃ r : Word, exec (.bswap d a) s = .next (gives s d r) ∧
        ∀ i < 8, r.extractLsb' (8 * i) 8 = x.extractLsb' (8 * (7 - i)) 8) ∧
      exec (.sel d a b) s = .next (gives s d (if s.me.g d = 0 then s.me.g b else x)) ∧
      exec (.adds d a b sh) s = .next (gives s d (x + (s.me.g b <<< sh.toNat)))) ∧
  (∀ (s : State) (d a : R5) (imm : Imm 15) (sh : BitVec 6) (x32 : BitVec 32) (x15 : BitVec 15) (lenm1 pos : BitVec 6), canIssue s →
      let x := s.me.g a
      let i := immVal imm
      let len := lenm1.toNat + 1
      exec (.addi d a imm) s = .next (gives s d (x + i)) ∧
      exec (.andi d a imm) s = .next (gives s d (x &&& i)) ∧
      exec (.ori d a imm) s = .next (gives s d (x ||| i)) ∧
      exec (.xori d a imm) s = .next (gives s d (x ^^^ i)) ∧
      exec (.slti d a imm) s = .next (gives s d (if x.toInt < i.toInt then 1 else 0)) ∧
      exec (.sltui d a imm) s = .next (gives s d (if x.toNat < i.toNat then 1 else 0)) ∧
      exec (.slli d a sh) s = .next (gives s d (x <<< sh.toNat)) ∧
      exec (.srli d a sh) s = .next (gives s d (x >>> sh.toNat)) ∧
      exec (.srai d a sh) s = .next (gives s d (x.sshiftRight sh.toNat)) ∧
      exec (.lui d x15) s = .next (gives s d (x15.signExtend 64 <<< 15)) ∧
      exec (.lit d x32) s = .next (gives s d (x32.signExtend 64)) ∧
      exec (.lith d x32) s = .next (gives s d (x32 ++ (s.me.g d).truncate 32)) ∧
      exec (.addpc d imm) s = .next (gives s d (s.me.pc + i)) ∧
      exec (.anop) s = .next (ends s id) ∧
      (pos.toNat + len ≤ 64 →
        exec (.extr d a lenm1 pos) s = .next (gives s d ((x.extractLsb' pos.toNat len).signExtend 64)) ∧
        exec (.extru d a lenm1 pos) s = .next (gives s d ((x.extractLsb' pos.toNat len).zeroExtend 64)) ∧
        ∃ r : Word, exec (.insr d a lenm1 pos) s = .next (gives s d r) ∧
          ∀ j < 64, r.getLsbD j =
            if pos.toNat ≤ j ∧ j < pos.toNat + len then x.getLsbD (j - pos.toNat) else (s.me.g d).getLsbD j))

/-- 06 R179: division truncates toward zero and the remainder takes the sign of the dividend; the borderline cases give the results of the
table, a zero divisor counting one in EVDZ (counter 1); a division completes within its bundle and never freezes. -/
def Obligations.DivisionResults : Prop :=
  ∀ (s : State) (d a b : R5), canIssue s →
    let x := s.me.g a
    let y := s.me.g b
    (y = 0 →
      exec (.div d a b) s = .next (ends s fun o => (o.setG d (BitVec.allOnes 64)).count 1 1) ∧
      exec (.divu d a b) s = .next (ends s fun o => (o.setG d (BitVec.allOnes 64)).count 1 1) ∧
      exec (.rem d a b) s = .next (ends s fun o => (o.setG d x).count 1 1) ∧
      exec (.remu d a b) s = .next (ends s fun o => (o.setG d x).count 1 1)) ∧
    (y ≠ 0 →
      exec (.div d a b) s = .next (gives s d (x.sdiv y)) ∧
      exec (.divu d a b) s = .next (gives s d (x / y)) ∧
      exec (.rem d a b) s = .next (gives s d (x.srem y)) ∧
      exec (.remu d a b) s = .next (gives s d (x % y))) ∧
    (x = 0x8000000000000000#64 → y = BitVec.allOnes 64 →
      exec (.div d a b) s = .next (gives s d 0x8000000000000000#64) ∧ exec (.rem d a b) s = .next (gives s d 0))

/-! ## The scalar slot -/

/-- 01 R36, 05 R142: where a completed bundle that ends no iteration leaves the PC: at the next bundle. 06 R186, R187: a branch not taken goes on;
a taken branch or a jump outside a clause goes to its target, inside one freezes the strand with CLAUSE_CONTROL before anything else. 06 R187,
R188: a jump leaves the PC at its target and no fetch line that holds it; registers stay. -/
def Obligations.PcBranchesAndJumps : Prop :=
  (∀ (s : State) (f : Strand → Strand),
      let o := s.me
      let t := ends s f
      (¬(o.armed = true ∧ o.susp = false ∧ o.pc = o.lend) → t.me.pc = o.pc + 8) ∧
      t.me.turn = s.tick + 8 ∧ t.me.park = .none ∧ t.mem = s.mem ∧ t.others = s.others ∧ t.homes = s.homes ∧ t.fw = s.fw) ∧
  (∀ (s : State) (d a b : R5) (off : Imm 15) (off25 : Imm 25) (off12 : Imm 12), canIssue s →
      let x := s.me.g a
      let y := s.me.g b
      let go := fun (t : Word) => s.begin.complete s.begin.me (.jump t)
      let stop := s.begin.freezeMe (Raise.of Cause.clauseControl) false none
      let br := fun (taken : Bool) =>
        if taken then (if s.me.armed && !s.me.susp then stop else go (s.me.pc + 8 * immVal off)) else ends s id
      exec (.beq a b off) s = .next (br (x == y)) ∧
      exec (.bne a b off) s = .next (br (x != y)) ∧
      exec (.blt a b off) s = .next (br (decide (x.toInt < y.toInt))) ∧
      exec (.bge a b off) s = .next (br (decide (y.toInt ≤ x.toInt))) ∧
      exec (.bltu a b off) s = .next (br (decide (x.toNat < y.toNat))) ∧
      exec (.bgeu a b off) s = .next (br (decide (y.toNat ≤ x.toNat))) ∧
      exec (.j off25) s = .next (if s.me.armed && !s.me.susp then stop else go (s.me.pc + 8 * immVal off25)) ∧
      exec (.jl d off12) s =
        .next (if s.me.armed && !s.me.susp then stop
          else (s.begin.wg d (s.me.pc + 8)).complete s.begin.me (.jump (s.me.pc + 8 * immVal off12))) ∧
      exec (.jlr d a off12) s =
        .next (if s.me.armed && !s.me.susp then stop
          else if (x + 8 * immVal off12).toNat % 8 ≠ 0 then s.begin.freezeMe (Raise.of Cause.pcMisaligned) false none
          else (s.begin.wg d (s.me.pc + 8)).complete s.begin.me (.jump (x + 8 * immVal off12)))) ∧
  (∀ (s : State) (t : Word),
      let u := s.begin.complete s.begin.me (.jump t)
      u.me.pc = t ∧ u.me.turn = s.tick + 8 ∧ (∀ r, u.me.g r = s.me.g r) ∧ (∀ r, u.me.vr r = s.me.vr r) ∧ u.others = s.others ∧
      ∀ k, fetchPlace s.begin s.begin.me t = .inl k → ∀ a bs, (u.core s.me.core).line = some (a, bs) → a ≠ k / 64)

/-- 06 R189, R190: windowed calls where nothing stops them. The caller's g24-g31 become the callee's g16-g23 with g23 the return address; WRET
gives the caller's groups back. -/
def Obligations.WindowedCalls : Prop :=
  ∀ (s : State) (off : Imm 25), canIssue s →
    let o := s.me
    let t := if immVal off = 0 then o.g 31 else o.pc + 8 * immVal off
    (outsideClause s → t.toNat % 8 = 0 → o.res < 6 →
      ∃ u, exec (.wcall off) s = .next u ∧ u.me.pc = t ∧ u.me.g 23 = o.pc + 8 ∧ u.me.res = o.res + 1 ∧
        ∀ i : Fin 7, u.me.g (BitVec.ofNat 5 (16 + i.val)) = o.g (BitVec.ofNat 5 (24 + i.val))) ∧
    (outsideClause s → (o.g 23).toNat % 8 = 0 → 2 < o.res →
      ∃ u, exec .wret s = .next u ∧ u.me.pc = o.g 23 ∧ u.me.res = o.res - 1 ∧
        (∀ i : Fin 8, u.me.g (BitVec.ofNat 5 (24 + i.val)) = o.g (BitVec.ofNat 5 (16 + i.val))) ∧
        (∀ i : Fin 8, u.me.g (BitVec.ofNat 5 (16 + i.val)) = (o.older.headD (Vector.replicate 8 0)).getD i.val 0))

/-- 01 R36: REP with a count of 0 passes its body, with any other count arms the clause and goes on with its body; while a clause is armed and not
suspended, the bundle at LEND goes back to LSTART until LCOUNT has run out, and then goes on after LEND; every other bundle goes on. ANOP stands here
for any bundle that completes. -/
def Obligations.RepeatClauses : Prop :=
  ∀ (s : State) (a : R5) (count : Imm 10) (lenm1 : BitVec 6), canIssue s →
    let o := s.me
    let len := 8 * (lenm1.toNat + 1)
    (o.armed = false →
      ∀ (n : Word) (i : Instr), (i = .repRegister a lenm1 ∧ n = o.g a) ∨ (i = .repImmediate count lenm1 ∧ n = immZext count) →
        ∃ u, exec i s = .next u ∧
          (n = 0 → u.me.pc = o.pc + 8 + BitVec.ofNat 64 len ∧ u.me.armed = false) ∧
          (n ≠ 0 → u.me.pc = o.pc + 8 ∧ u.me.lstart = o.pc + 8 ∧ u.me.lend = o.pc + BitVec.ofNat 64 len ∧
            u.me.lcount = n ∧ u.me.armed = true)) ∧
    ∀ f : Strand → Strand,
      let t := ends s f
      let atEnd := o.armed = true ∧ o.susp = false ∧ o.pc = o.lend
      exec .anop s = .next (ends s id) ∧
      (¬atEnd → t.me.pc = o.pc + 8) ∧
      (atEnd → 1 < o.lcount.toNat → t.me.pc = o.lstart ∧ t.me.lcount = o.lcount - 1) ∧
      (atEnd → o.lcount.toNat ≤ 1 → t.me.pc = o.lend + 8 ∧ t.me.lcount = 0 ∧ t.me.armed = false)

/-! ## The memory slot -/

/-- 07 R201, 02 R51: scalar loads of the strand's own local memory, little-endian, sign- or zero-extended. 07 R201, 02 R51: scalar stores to the strand's own local memory: the low bytes of the register, lowest address first; every other
byte reads as before, and nothing but memory, its poison marks and the decode RAMs' marks differs from a completed bundle, beside waits of
others that the store lets note that they hold. -/
def Obligations.LocalScalarAccesses : Prop :=
  (∀ (s : State) (d base : R5) (rq : Rq) (off : Imm 13) (p : Nat), canIssue s →
      let at' := fun (z : Nat) => memAddr s.me base z off = ownLocal p ∧ p % z = 0 ∧ cleanLocal s p z
      let x := fun (z : Nat) => leNat (s.bytes (.mem (lkey s.me.core p)) z)
      (at' 1 → exec (.ldb d base rq off) s = .next (gives s d ((BitVec.ofNat 8 (x 1)).signExtend 64)) ∧
        exec (.ldbu d base rq off) s = .next (gives s d (BitVec.ofNat 64 (x 1)))) ∧
      (at' 2 → exec (.ldh d base rq off) s = .next (gives s d ((BitVec.ofNat 16 (x 2)).signExtend 64)) ∧
        exec (.ldhu d base rq off) s = .next (gives s d (BitVec.ofNat 64 (x 2)))) ∧
      (at' 4 → exec (.ldw d base rq off) s = .next (gives s d ((BitVec.ofNat 32 (x 4)).signExtend 64)) ∧
        exec (.ldwu d base rq off) s = .next (gives s d (BitVec.ofNat 64 (x 4)))) ∧
      (at' 8 → exec (.ldd d base rq off) s = .next (gives s d (BitVec.ofNat 64 (x 8))))) ∧
  (∀ (s : State) (r base : R5) (rq : Rq) (off : Imm 13) (p : Nat), canIssue s → s.memWf →
      ∀ (z : Nat) (i : Instr),
        (z = 1 ∧ i = .stb r base rq off) ∨ (z = 2 ∧ i = .sth r base rq off) ∨ (z = 4 ∧ i = .stw r base rq off) ∨
          (z = 8 ∧ i = .std r base rq off) →
        memAddr s.me base z off = ownLocal p → p % z = 0 → openLocal s p z →
        ∃ t, exec i s = .next t ∧
          (∀ a, mget t.mem a = if lkey s.me.core p ≤ a ∧ a < lkey s.me.core p + z
            then BitVec.ofNat 8 ((s.me.g r).toNat / 256 ^ (a - lkey s.me.core p)) else mget s.mem a) ∧
          storesOnly s t)

/-- 07 R202, R205: vector loads of own local memory: byte lanes under the mask, an inactive lane kept, an empty mask with no access;
one element to every lane. 07 R203, R204: strided and indexed loads of own local memory, lane by lane under the mask. 07 R206: a transposed load of own local memory: lane r of register v + c is element c of row r; other registers stay. -/
def Obligations.LocalVectorReads : Prop :=
  (∀ (s : State) (v base : R5) (rq : Rq) (off : Imm 6) (offb : Imm 7) (k : K3) (ew : Ew) (p : Nat), canIssue s →
      (memAddr s.me base 64 off = ownLocal p → p % 64 = 0 → cleanLocal s p 64 → s.me.kr k ≠ 0 →
        ∃ x : Vec, exec (.vld v base rq off k) s = .next (ends s fun o => o.setV v x) ∧
          ∀ i < 64, x.extractLsb' (8 * i) 8 =
            if s.me.active k i then mget s.mem (lkey s.me.core (p + i)) else (s.me.vr v).extractLsb' (8 * i) 8) ∧
      (memAddr s.me base 64 off = ownLocal p → p % 64 = 0 → p < 2 ^ 17 → s.me.kr k = 0 →
        exec (.vld v base rq off k) s = .next (ends s id)) ∧
      (memAddr s.me base ew.bytes offb = ownLocal p → p % ew.bytes = 0 → cleanLocal s p ew.bytes →
        ∃ x : Vec, exec (.vldb v base rq ew offb) s = .next (ends s fun o => o.setV v x) ∧
          ∀ i < ew.lanes, x.extractLsb' (ew.bits * i) ew.bits = BitVec.ofNat ew.bits (leNat (s.bytes (.mem (lkey s.me.core p)) ew.bytes)))) ∧
  (∀ (s : State) (v base t vi : R5) (rq : Rq) (k : K3) (e : Bool) (p : Nat → Nat) (i : Instr) (addr : Nat → Word), canIssue s →
      (i = .vlds v base rq t k e ∧ addr = strideAddr s.me base t) ∨ (i = .vgath v base rq vi k e ∧ addr = indexAddr s.me base vi e) →
      (∀ j < 64 / elBytes e, s.me.active k j → addr j = ownLocal (p j) ∧ p j % elBytes e = 0 ∧ cleanLocal s (p j) (elBytes e)) →
      ∃ x : Vec, exec i s = .next (ends s fun o => o.setV v x) ∧
        ∀ j < 64 / elBytes e, x.extractLsb' (8 * elBytes e * j) (8 * elBytes e) =
          if s.me.active k j then BitVec.ofNat _ (leNat (s.bytes (.mem (lkey s.me.core (p j))) (elBytes e)))
          else (s.me.vr v).extractLsb' (8 * elBytes e * j) (8 * elBytes e)) ∧
  (∀ (s : State) (v base : R5) (rq : Rq) (e : Bool) (p : Nat), canIssue s → (Instr.vldt v base rq e).wf = true →
      let n := if e then 8 else 16
      let z := 64 / n
      s.me.g base = ownLocal p → p % (64 * n) = 0 → cleanLocal s p (64 * n) →
      ∃ t, exec (.vldt v base rq e) s = .next t ∧
        (∀ c < n, ∀ r < n, (t.me.vr (v + BitVec.ofNat 5 c)).extractLsb' (8 * z * r) (8 * z) =
          BitVec.ofNat _ (leNat (s.bytes (.mem (lkey s.me.core (p + 64 * r + z * c))) z))) ∧
        (∀ q : R5, q.toNat < v.toNat ∨ v.toNat + n ≤ q.toNat → t.me.vr q = s.me.vr q) ∧
        (∀ q, t.me.g q = s.me.g q) ∧ t.mem = s.mem)

/-- 07 R202: a vector store to own local memory writes the active byte lanes and nothing else. 07 R203, R204: strided and indexed stores to own local memory: the active lanes in ascending order, so that of two lanes at one
address the higher one stays; a byte in no active lane's element reads as before. -/
def Obligations.LocalVectorWrites : Prop :=
  (∀ (s : State) (v base : R5) (rq : Rq) (off : Imm 6) (k : K3) (p : Nat), canIssue s → s.memWf →
      memAddr s.me base 64 off = ownLocal p → p % 64 = 0 → openLocal s p 64 →
      ∃ t, exec (.vst v base rq off k) s = .next t ∧
        (∀ i < 64, mget t.mem (lkey s.me.core (p + i)) =
          if s.me.active k i then (s.me.vr v).extractLsb' (8 * i) 8 else mget s.mem (lkey s.me.core (p + i))) ∧
        sameMemOutside s t (lkey s.me.core p) 64 ∧
        storesOnly s t) ∧
  (∀ (s : State) (v base t vi : R5) (rq : Rq) (k : K3) (e : Bool) (p : Nat → Nat) (i : Instr) (addr : Nat → Word), canIssue s →
      s.memWf →
      (i = .vsts v base rq t k e ∧ addr = strideAddr s.me base t) ∨ (i = .vscat v base rq vi k e ∧ addr = indexAddr s.me base vi e) →
      (∀ j < 64 / elBytes e, s.me.active k j → addr j = ownLocal (p j) ∧ p j % elBytes e = 0 ∧ openLocal s (p j) (elBytes e)) →
      ∃ u, exec i s = .next u ∧
        u.mem = ((List.range (64 / elBytes e)).filter (s.me.active k)).foldl
          (fun m j => msetN m (lkey s.me.core (p j)) (natLE (elBytes e) (laneOf (8 * elBytes e) (s.me.vr v) j))) s.mem ∧
        (∀ a, (∀ j < 64 / elBytes e, s.me.active k j → a < lkey s.me.core (p j) ∨ lkey s.me.core (p j) + elBytes e ≤ a) →
          mget u.mem a = mget s.mem a) ∧
        storesOnly s u)

/-- 07 R207-R209: a prefetch of own local memory and of an .nc request does nothing more; CFLUSH drops the cluster's copy of the line
and leaves memory; XSWAP of a diagonal member does nothing, and of a member whose partner waits exchanges their bytes (here where both
areas are in their cores' banks). -/
def Obligations.PrefetchFlushAndExchange : Prop :=
  ∀ (s : State) (n base : R5) (rq : Rq) (off : Imm 6), canIssue s →
    (∀ p, p < 2 ^ 17 → memAddr s.me base 64 off = ownLocal p ∨ rq = .nc → exec (.pf base rq off) s = .next (ends s id)) ∧
    (∀ l rg pa, check s.begin s.begin.me Acc.load 64 0 (memAddr s.me base 64 off) = .ok l rg (some pa) →
      s.begin.away { lane := 0, va := memAddr s.me base 64 off, loc := l, rg := rg, pa := some pa } = false → s.begin.linePosted l = false →
      ∃ t, exec (.cflush base rq off) s = .next t ∧ t.mem = s.mem ∧ (∀ r, t.me.g r = s.me.g r) ∧
        ∀ x ∈ t.homes.lines, ¬(x.cluster = cacheOf s.me.core ∧ x.line = pa / 64)) ∧
    (∀ p, s.me.g base = ownLocal p → p % 64 = 0 → 0 < (s.me.g n).toNat → (s.me.g n).toNat ≤ 16384 → (s.me.g n).toNat % 64 = 0 →
      p + (s.me.g n).toNat ≤ 2 ^ 17 → crewRow s.me < crewW s.me → crewCol s.me < crewH s.me →
      (crewCol s.me = crewRow s.me → exec (.xswap n base rq) s = .next (ends s id)) ∧
      (∀ q y, crewCol s.me ≠ crewRow s.me → s.me.xs = none → s.me.gang = none → cleanLocal s p (s.me.g n).toNat →
        (∀ c, s.me.crew.bind s.begin.crew = some c → c.gone = []) → s.begin.memberAt s.begin.me (crewRow s.me) (crewCol s.me) = some q →
        q.xs = some y → y.fin = false → q.xsCount = s.me.xsCount → y.bytes = (s.me.g n).toNat → q.key ≠ s.me.key →
        (y.base + y.bytes ≤ lkey s.me.core p ∨ lkey s.me.core p + y.bytes ≤ y.base) → s.memWf →
        s.reservedFrom s.me.key (.mem (lkey s.me.core p)) y.bytes = false → s.reservedFrom q.key (.mem y.base) y.bytes = false →
        s.begin.areaAway s.me.key (lkey s.me.core p) = none → s.begin.areaAway q.key y.base = none →
        ∃ t, exec (.xswap n base rq) s = .next t ∧ t.me.xsCount = s.me.xsCount + 1 ∧
          ∀ i < y.bytes, mget t.mem (lkey s.me.core p + i) = mget s.mem (y.base + i) ∧
            mget t.mem (y.base + i) = mget s.mem (lkey s.me.core p + i)))

/-- 07 R228, R229: a cox burst moves 2 KiB between HBM4 and the local side, whole, once its page and its local side pass their
checks, nothing holds its way and no other strand's reservation stands on what it writes. `m` is the state after the burst's requests at
the homes. The local side is local memory or a window. -/
def Obligations.CoxBursts : Prop :=
  ∀ (s : State) (a b : R5) (h d : El) (kl pa : Nat), canIssue s →
    h.loc = .mem kl → h.pa = some pa → s.begin.away h = false → s.begin.away d = false →
    s.begin.linesPosted h.loc 32 = false → s.begin.linesPosted d.loc 32 = false →
    (coxPage s.begin s.begin.me Acc.load (s.me.g a) = .inl h → coxSide s.begin s.begin.me true (s.me.g b) = .inl d →
      s.begin.burstHeld h .loadSi = false → s.begin.reservedFrom s.me.key d.loc 2048 = false →
      let m := (s.begin.noteUse h).ncLines (cacheOf s.me.core) pa false
      m.poisonIn h.loc 2048 = none →
      let t := (m.put d.loc (m.bytes h.loc 2048)).complete s.begin.me .next
      exec (.cxrd a b) s = .next t ∧
      ∀ kd, d.loc = .mem kd → Memory.wf m.mem = true →
        (∀ i < 2048, mget t.mem (kd + i) = mget m.mem (kl + i)) ∧ ∀ x, x < kd ∨ kd + 2048 ≤ x → mget t.mem x = mget m.mem x) ∧
    (coxPage s.begin s.begin.me { Acc.store with replay := true } (s.me.g a) = .inl h →
      coxSide s.begin s.begin.me false (s.me.g b) = .inl d → s.poisonIn d.loc 2048 = none →
      s.begin.burstHeld h .storeNc = false → s.begin.reservedFrom s.me.key h.loc 2048 = false →
      (∀ x ∈ s.me.counts, x.1 = s.begin.sliceOf pa → x.2 + 1 < 4096) →
      let m := ((s.begin.noteUse h).ncLines (cacheOf s.me.core) pa true).counted s.me.key (s.begin.sliceOf pa) (pa / 4096)
      let t := ((m.useTile d.loc).put h.loc (s.begin.bytes d.loc 2048)).complete s.begin.me .next
      exec (.cxwr a b) s = .next t ∧
      (Memory.wf m.mem = true →
        (∀ kd, d.loc = .mem kd → ∀ i < 2048, mget t.mem (kl + i) = mget s.mem (kd + i)) ∧
        ∀ x, x < kl ∨ kl + 2048 ≤ x → mget t.mem x = mget m.mem x))

/-! ## Versions of names -/

/-- 02 R78, R79, R85, R86: VMAP and VMAP.rel of a published version map it read-only with one more reference, and start floating a
racked one; VMAP of one not yet published parks with a pending window; VLATEST reads the name's latest. 02 R74, R79: VUNMAP of an unmapped or released window does nothing, of a waiting one ends the wait, of a mapped one releases its
reference; VUNMAP of an open draft freezes with VERSION_DRAFT_UNMAP. -/
def Obligations.MappingAndUnmapping : Prop :=
  (∀ (s : State) (d a b : R5) (w : W4) (r : Ver), canIssue s →
      let name := nameOf s.me a
      let space := s.spaceOf s.me.ctx name
      let n := s.nameRec space name
      let up := fun (v : Ver) => if r.st = .racked then { addRef v with st := .floating } else addRef v
      s.homeOpen (dieOf s.me.core) space name = true →
      exec (.vlatest d a) s = .next (gives s d (BitVec.ofNat 64 n.latest)) ∧
      (s.me.answer = none → winBusy (s.me.winAt w) = false → groupComplete s space = true → n.dropped = false → s.ver r.uid = some r →
        (∀ i : Instr, (i = .vmap a b w ∧ (s.me.g b).toNat % 2 ^ 32 ≠ 0 ∧ s.pubVer space name ((s.me.g b).toNat % 2 ^ 32) = some r) ∨
            (i = .vmapRel a b w ∧ (s.me.g b).toNat < n.latest ∧ n.latest < 2 ^ 32 ∧
              s.pubVer space name (n.latest - (s.me.g b).toNat) = some r) →
          ∃ t, exec i s = .next t ∧ completedAs s t ∧ t.me.winAt w = .ro r.uid r.cls ∧ t.ver r.uid = some (up r) ∧ t.mem = s.mem) ∧
        (n.latest < (s.me.g b).toNat % 2 ^ 32 → s.pubVer space name ((s.me.g b).toNat % 2 ^ 32) = none →
          ∃ t, exec (.vmap a b w) s = .next t ∧ parkedAs s t ∧ t.me.winAt w = .pending name ((s.me.g b).toNat % 2 ^ 32)))) ∧
  (∀ (s : State) (w : W4), canIssue s →
      (s.me.winAt w = .unmapped ∨ s.me.winAt w = .released → exec (.vunmap w) s = .next (ends s id)) ∧
      (∀ m v, s.me.winAt w = .pending m v → v < 2 ^ 33 →
        exec (.vunmap w) s = .next (ends s fun o => { o with win := o.win.setIfInBounds w.toNat .unmapped })) ∧
      (∀ m v, s.me.winAt w = .pending m v → ∃ t, exec (.vunmap w) s = .next t ∧ completedAs s t ∧ t.me.winAt w = .unmapped) ∧
      (∀ u c v, s.me.winAt w = .ro u c → s.ver u = some v → 1 < v.refs →
        ∃ t, exec (.vunmap w) s = .next t ∧ completedAs s t ∧ t.me.winAt w = .unmapped ∧ t.ver u = some (dropRef v)) ∧
      (∀ u c, s.me.winAt w = .draft u c →
        exec (.vunmap w) s = .next (s.begin.freezeMe (Raise.of Cause.versionDraftUnmap) false none)))

/-- 02 R71, R73: VDRAFT.new opens a draft of the lowest free number above latest in fresh frames and maps it for writing;
VDRAFT.join maps the newest open draft. Both answer the number. 02 R74, R75: VPUB sets the number of contributions a draft needs, VDONE makes one and releases the window; the draft is completed
once both agree, and the completed version whose turn it is (number latest + 1, `nextPub`) then is offered for publication. -/
def Obligations.DraftingAndPublishing : Prop :=
  (∀ (s : State) (d a : R5) (cls : TileClass) (w : W4), canIssue s → winBusy (s.me.winAt w) = false →
      let name := nameOf s.me a
      let space := s.spaceOf s.me.ctx name
      let n := s.nameRec space name
      groupComplete s space = true → s.homeOpen (dieOf s.me.core) space name = true →
      (∀ frames s1, (n.dropped = true ∨ n.cls = none ∨ n.cls = some cls) → s.begin.nextNum n < 2 ^ 32 →
        s.begin.tableCount (s.begin.nameSlice space name) < 65536 →
        s.begin.takeTile (s.begin.nameSlice space name) cls = some (frames, s1) →
        ∃ t, exec (.vdraftNew d a cls w) s = .next t ∧ completedWith s t d (BitVec.ofNat 64 (s.begin.nextNum n)) ∧
          t.me.winAt w = .draft s1.uid cls ∧ (∃ v ∈ t.homes.vers, v.uid = s1.uid ∧ v.st = .drafted ∧ v.num = s.begin.nextNum n ∧
            v.space = space ∧ v.name = name ∧ v.cls = cls ∧ v.frames = frames ∧ v.contrib = 0 ∧ v.count = none) ∧ t.mem = s.mem) ∧
      (∀ v, s.openDraft space name = some v →
        ∃ t, exec (.vdraftJoin d a w) s = .next t ∧ completedWith s t d (BitVec.ofNat 64 v.num) ∧ t.me.winAt w = .draft v.uid v.cls ∧
          t.mem = s.mem ∧ t.homes = s.homes) ∧
      (s.openDraft space name = none →
        exec (.vdraftJoin d a w) s = .next (s.begin.freezeMe (Raise.of Cause.versionNoDraft) false none))) ∧
  (∀ (s : State) (a : R5) (w : W4) (u : Nat) (c : TileClass) (v : Ver), canIssue s → noneOutstanding s →
      s.me.winAt w = .draft u c → s.ver u = some v → v.uid = u → s.homeOpen (dieOf s.me.core) v.space v.name = true →
      (let n := (s.me.g a).toNat
       1 ≤ n → n ≤ 65535 → v.count = none → v.contrib ≤ n →
        ∃ t, exec (.vpub a w) s = .next t ∧ completedAs s t ∧ t.me.winAt w = .draft u c ∧
          t.ver u = some { v with count := some n, st := if v.contrib = n then .completed else v.st } ∧
          ∀ x, t.nextPub v.space v.name = some x → .versionPublish x.uid ∈ t.agenda) ∧
      ((∀ k, v.count = some k → v.contrib < k) →
        ∃ t, exec (.vdone w) s = .next t ∧ completedAs s t ∧ t.me.winAt w = .released ∧
          t.ver u = some { v with contrib := v.contrib + 1, st := if v.count = some (v.contrib + 1) then .completed else v.st } ∧
          ∀ x, t.nextPub v.space v.name = some x → .versionPublish x.uid ∈ t.agenda))

/-- 02 R81, R82, R84: subscriptions enter and leave the name's list, retention is set; VDROP leaves the name with no latest and no
subscription, its versions doomed, and every window that maps a draft or completed version of it cancelled with VERSION_DROPPED, the issuing
strand's and every other's. -/
def Obligations.SubscribingRetainingAndDropping : Prop :=
  ∀ (s : State) (a : R5) (sq : BitVec 8) (k : BitVec 4) (f : SqFile), canIssue s →
    let name := nameOf s.me a
    let space := s.spaceOf s.me.ctx name
    let n := s.nameRec space name
    s.homeOpen (dieOf s.me.core) space name = true →
    (s.begin.fileOf s.begin.me = some f → groupComplete s space = true →
      (∀ x ∈ n.subs, ¬(x.1 = s.me.key ∧ x.2.1 = sq)) → s.me.subs.length < 16 →
      (s.homes.names.filter fun m => decide (s.nameSlice m.space m.name = s.nameSlice space name)).foldl
        (fun k m => k + m.subs.length) 0 < 8192 →
      ∃ t, exec (.vsub a sq) s = .next t ∧ completedAs s t ∧ (t.nameRec space name).subs = n.subs ++ [(s.me.key, sq, f)] ∧
        t.me.subs = s.me.subs ++ [(space, name, sq, f)]) ∧
    (s.begin.fileOf s.begin.me = some f →
      ∃ t, exec (.vunsub a sq) s = .next t ∧ completedAs s t ∧
        (t.nameRec space name).subs = n.subs.filter (fun x => !(decide (x.1 = s.me.key) && decide (x.2.1 = sq)))) ∧
    (1 ≤ k.toNat → k.toNat ≤ 8 →
      ∃ t, exec (.vretain a k) s = .next t ∧ completedAs s t ∧ (t.nameRec space name).retain = k.toNat ∧
        (t.nameRec space name).latest = n.latest) ∧
    (∃ t, exec (.vdrop a) s = .next t ∧ completedAs s t ∧ (t.nameRec space name).dropped = true ∧
      (t.nameRec space name).latest = 0 ∧ (t.nameRec space name).subs = [] ∧
      (∀ v ∈ t.homes.vers, v.space = space → v.name = name → v.doomed = true) ∧
      ∀ v ∈ s.homes.vers, v.space = space → v.name = name → v.doomed = false → v.st = .drafted ∨ v.st = .completed →
        (∀ i c, s.me.winAt i = .draft v.uid c → t.me.winAt i = .cancelled Cause.versionDropped c) ∧
        ∀ o ∈ s.others, ∃ x ∈ t.others, x.key = o.key ∧
          ∀ i c, o.winAt i = .draft v.uid c → x.winAt i = .cancelled Cause.versionDropped c)

/-! ## Reservations, atomics and updates -/

/-- 07 R216, R217: LRW at an address nobody holds reads the word and holds its reservation; SCH of the holder writes the word and passes
the place on; RLS passes it on without a write. -/
def Obligations.QueuedReservations : Prop :=
  ∀ (s : State) (d a b : R5) (w : Bool) (p : Nat), canIssue s → noneOutstanding s → s.memWf →
    let z := wBytes w
    let k := lkey s.me.core p
    s.me.g a = ownLocal p → p % z = 0 → cleanLocal s p z →
    ((s.rqueue k).q = [] → (s.rqueue k).killed = false → s.heldBy s.me.key < 4 →
      ∃ t, exec (.lrw d a w) s = .next t ∧ completedWith s t d (BitVec.ofNat 64 (leNat (s.bytes (.mem k) z))) ∧
        t.holds s.me.key k (some w) = true ∧ t.mem = s.mem) ∧
    (∀ x q, (s.rqueue k).q = x :: q → x.key = s.me.key → x.held = true →
      (x.w32 = w → ∃ t, exec (.sch a b w) s = .next t ∧ completedAs s t ∧ (t.rqueue k).q = q ∧
        leNat (t.bytes (.mem k) z) = (s.me.g b).toNat % 256 ^ z ∧ sameMemOutside s t k z) ∧
      (p % 4 = 0 → ∃ t, exec (.rls a) s = .next t ∧ completedAs s t ∧ (t.rqueue k).q = q ∧ t.mem = s.mem))

/-- 07 R218: AMO and ACAS at a word of own local memory that nobody holds or waits for complete, whatever the operation and its operands:
the destination gets the old word; the word gets the result of the operation, or, for ACAS, the new value where the old one is the
expected one; no other byte of memory changes, and no reservation stays. 02 R61, R65, 07 R222: URED and UREDV of plain memory complete
where the address passes its checks, the object is not locked to another operator and nothing holds the way; of an object in state I
memory stays, and the partial of each updated element is its value combined with the identity; with no active lane nothing changes. -/
def Obligations.AtomicsAndUpdates : Prop :=
  (∀ (s : State) (d a b : R5) (w : Bool) (op : AmoOp) (p : Nat), canIssue s → noneOutstanding s → s.memWf →
      let z := wBytes w
      let k := lkey s.me.core p
      let x := leNat (s.bytes (.mem k) z)
      s.me.g a = ownLocal p → p % z = 0 → cleanLocal s p z →
      (s.rqueue k).q = [] → s.heldBy s.me.key < 4 →
      (∃ t, exec (.amo d a b w op) s = .next t ∧ completedWith s t d (BitVec.ofNat 64 x) ∧ (t.rqueue k).q = [] ∧
        leNat (t.bytes (.mem k) z) = amoResult op (8 * z) x ((s.me.g b).toNat % 256 ^ z) % 256 ^ z ∧ sameMemOutside s t k z) ∧
      (∃ t, exec (.acas d a b w) s = .next t ∧ completedWith s t d (BitVec.ofNat 64 x) ∧ (t.rqueue k).q = [] ∧
        leNat (t.bytes (.mem k) z) = (if x = (s.me.g d).toNat % 256 ^ z then (s.me.g b).toNat % 256 ^ z else x) ∧
        sameMemOutside s t k z)) ∧
  (∀ (s : State) (a b v : R5) (k : K3) (tag : BitVec 4) (l : Loc) (rg : Region) (pa : Nat), canIssue s → tag ≠ 15 →
      let o := s.begin.me
      let z := uBytes tag
      let cl := cacheOf s.me.core
      let e : El := { lane := 0, va := s.me.g a, loc := .mem pa, rg := .plain, pa := some pa }
      let u := s.begin.noteUse e
      let first := fun (x : Nat) => BitVec.ofNat 64 (uCombine tag true (BitVec.ofNat 64 (uIdentity tag)).toNat (uWiden tag x))
      let fresh := s.coh (s.keyAt pa) = .i ∧ (∀ y ∈ s.homes.parts, y.key ≠ s.keyAt pa) ∧ pa % z = 0
      uLocked s.begin tag pa = false → updatesAtOnce s.begin tag (s.me.g a) pa →
      (check s.begin o Acc.update z 0 (s.me.g a) = .ok l rg (some pa) →
        let x := (s.me.g b).toNat % 2 ^ (8 * z)
        ∃ t, exec (.ured a b tag) s = .next t ∧ t = (u.updateLine tag cl pa [(pa, x)]).complete o .next ∧
          (fresh → t.mem = s.mem ∧ t.coh (s.keyAt pa) = .u tag [cl] ∧
            ∃ y ∈ t.homes.parts, y.key = s.keyAt pa ∧ y.cluster = cl ∧ y.pa = pa ∧ y.val = first x)) ∧
      (check s.begin o Acc.update 64 0 (s.me.g a) = .ok l rg (some pa) →
        let act := (List.range (64 / z)).filter (s.me.active k)
        let x := fun (i : Nat) => laneOf (8 * z) (s.me.vr v) i
        ∃ t, exec (.uredv a v k tag) s = .next t ∧ t = (u.updateLine tag cl pa (act.map fun i => (pa + i * z, x i))).complete o .next ∧
          (act = [] → t.mem = s.mem ∧ t.homes = u.homes) ∧
          (act ≠ [] → fresh → pa % 64 = 0 → t.mem = s.mem ∧ t.coh (s.keyAt pa) = .u tag [cl] ∧
            ∀ i ∈ act, ∃ y ∈ t.homes.parts, y.key = s.keyAt pa ∧ y.cluster = cl ∧ y.pa = pa + i * z ∧ y.val = first (x i))))

/-- 02 R58, R59, 07 R223, R224: ODECL of a record in own local memory completes whatever the record says: with status 3 where its rank or
its granules are no good, else with what the home answers, which is status 1 where its table is full, 2 where a granule has an object, and
else the new object's id with status 0. A new object gets an id of its home's slice that no object of it has, and holds its granules. OFREE
of a declared object completes and forgets it; any other value freezes with OBJECT_INVALID. That status 3 comes first is the model's
choice (log 36). -/
def Obligations.DeclaringObjects : Prop :=
  ∀ (s : State) (d a : R5) (named lock : Bool) (tag : BitVec 4), canIssue s →
    let op := if named then some tag else none
    (∀ p, s.me.g a = ownLocal p → p % 16 = 0 → (named = true → tag ≠ 15) → cleanLocal s p 16 →
      let h := leNat (s.bytes (.mem (lkey s.me.core p)) 16)
      let sh := shapeOf h ((List.range (headRank h)).map fun i => leNat (s.bytes (.mem (lkey s.me.core (p + 16 + 16 * i))) 16))
      (headRank h = 0 ∨ 4 < headRank h → exec (.odecl d a named lock tag) s = .next (gives s d 3)) ∧
      (1 ≤ headRank h → headRank h ≤ 4 → cleanLocal s p (16 + 16 * headRank h) →
        (shapeGranules s.begin s.me.ctx sh = none → exec (.odecl d a named lock tag) s = .next (gives s d 3)) ∧
        ∀ gs, shapeGranules s.begin s.me.ctx sh = some gs → s.begin.objectOpen s.me.core gs = true →
          ∃ t, exec (.odecl d a named lock tag) s = .next t ∧
            t = ((declare s.begin s.me.ctx op lock gs).2.wg d (declare s.begin s.me.ctx op lock gs).1).complete s.begin.me .next)) ∧
    (∀ gs, let ids := s.objIds (homeSlice (gs.headD 0 * 256))
      (4096 ≤ ids.length → declare s s.me.ctx op lock gs = (1, s)) ∧
      (ids.length < 4096 → (∃ g ∈ gs, ∃ b ∈ s.homes.objs, g ∈ b.granules) → declare s s.me.ctx op lock gs = (2, s)) ∧
      (ids.length < 4096 → (∀ g ∈ gs, ∀ b ∈ s.homes.objs, g ∉ b.granules) →
        ∃ id, id / 4096 = homeSlice (gs.headD 0 * 256) ∧ id ∉ ids ∧
          (declare s s.me.ctx op lock gs).1 = BitVec.ofNat 64 (id * 256) ∧
          ∃ b ∈ (declare s s.me.ctx op lock gs).2.homes.objs,
            b.id = id ∧ b.ctx = s.me.ctx ∧ b.granules = gs ∧ b.lock = lock ∧ b.op = op)) ∧
    (∀ b, s.homes.objs.find? (fun x => decide (x.id = (s.me.g a).toNat / 256) && decide (x.ctx = s.me.ctx)) = some b →
      (s.me.g a).toNat % 256 = 0 → s.begin.objectOpen s.me.core b.granules = true →
      ∃ t, exec (.ofree a) s = .next t ∧ completedAs s t ∧ ∀ x ∈ t.homes.objs, x.id ≠ b.id) ∧
    ((∀ b ∈ s.homes.objs, ¬(b.id = (s.me.g a).toNat / 256 ∧ b.ctx = s.me.ctx)) →
      exec (.ofree a) s = .next (s.begin.freezeMe (Raise.of Cause.objectInvalid) false none))

/-! ## Fences and sequence counters -/

/-- 03 R103, R106, R108: an acquire of die scope or wider drops the cluster's .si copies; a release with nothing outstanding completes
and starts a new round; one with a counted store outstanding at die scope or wider asks for its arrivals and parks; one with a push that
has still to leave parks, and at every scope one with an update that is not combined yet. -/
def Obligations.FencesCompleteOrWait : Prop :=
  ∀ (s : State) (x : Scope), canIssue s →
    let wide := !(decide (x = .core) || decide (x = .clu))
    let acq := if wide then
        s.begin.setHomes fun h => { h with lines := h.lines.filter fun l => !(decide (l.cluster = cacheOf s.me.core) && l.si) }
      else s.begin
    exec (.fenceAcq x) s = .next (acq.complete s.begin.me .next) ∧
    exec (.fenceLl x) s = .next (acq.complete s.begin.me .next) ∧
    (noneOutstanding s →
      exec (.fenceRel x) s = .next (if wide then ends s nextRound else ends s id) ∧
      exec (.fenceFull x) s =
        .next ((if wide then (acq.setMe nextRound) else acq).complete s.begin.me .next)) ∧
    (s.me.replay = [] → wide = false → s.begin.updateOut s.me.key = false → exec (.fenceRel x) s = .next (ends s id)) ∧
    (s.me.replay = [] → wide = false → s.begin.updateOut s.me.key = true → ∃ t, exec (.fenceRel x) s = .next t ∧ parkedAs s t) ∧
    (s.me.replay = [] → s.me.query = none → pushesOut s.me = true → s.me.counts ≠ [] → wide = true →
      ∃ t, exec (.fenceRel x) s = .next t ∧ parkedAs s t ∧ t.me.query = some { dieOnly := decide (x = .die), answered := false }) ∧
    (s.me.replay = [] → pushesOut s.me = false → wide = true → ∃ t, exec (.fenceRel x) s = .next t ∧ parkedAs s t)

/-- 02 R91, R92, 07 R226: SQINC adds to its counter, SQRD reads it, SQWAIT goes on where the counter has reached the value within half the
32-bit circle, or had since the strand waits, and else parks (all while nothing holds the way to the file); without a counter file all three freeze with SQ_NO_FILE. -/
def Obligations.SequenceCounters : Prop :=
  ∀ (s : State) (d a : R5) (inc sq : BitVec 8), canIssue s →
    (∀ f ann, s.begin.fileOf s.begin.me = some f →
      let c := s.begin.seqGet f sq
      (s.begin.fileOpen s.me.core f = true → exec (.sqrd d sq) s = .next (gives s d c)) ∧
      (s.begin.fileOpen s.me.core f = true →
        (c.toNat % 2 ^ 32 + 2 ^ 32 - (s.me.g a).toNat % 2 ^ 32) % 2 ^ 32 < 2 ^ 31 ∨ s.me.woken = true →
        ∃ t, exec (.sqwait a ann sq) s = .next t ∧ completedAs s t ∧ t.mem = s.mem) ∧
      (¬(c.toNat % 2 ^ 32 + 2 ^ 32 - (s.me.g a).toNat % 2 ^ 32) % 2 ^ 32 < 2 ^ 31 → s.me.woken = false →
        ∃ t, exec (.sqwait a ann sq) s = .next t ∧ parkedAs s t) ∧
      (∀ u, f = .crew u → (∃ x, s.crew u = some x) → s.begin.fileOpen s.me.core f = true → ann = none ∨ noneOutstanding s →
        ∃ t, exec (.sqinc inc ann sq) s = .next t ∧ completedAs s t ∧ t.seqGet f sq = c + inc.zeroExtend 64 ∧
          ∀ i, i ≠ sq → t.seqGet f i = s.begin.seqGet f i)) ∧
    (s.begin.fileOf s.begin.me = none →
      ∀ i : Instr, (∃ ann, i = .sqwait a ann sq ∨ i = .sqinc inc ann sq) ∨ i = .sqrd d sq →
        exec i s = .next (s.begin.freezeMe (Raise.of Cause.sqNoFile) false none))

/-! ## Queues, messages and commands -/

/-- 01 R25, R26, 10 R289, R290: a push enters its queue where there is room and parks where there is none; a pop takes the oldest word and
parks on an empty queue; a queue that the strand may not use so freezes it. A push to a mesh channel of this core appends the word. 10 R292: QSTAT answers the lost count, the overflow flag, the capacity and the entries of a queue and clears what was lost; queues
11 to 15 freeze with QUEUE_RESERVED. -/
def Obligations.QueueWordsAndStatus : Prop :=
  (∀ (s : State) (q : Q4) (a d : R5), canIssue s →
      let o := s.begin.me
      (∀ c, queueCause o true q = some c → exec (.qpush q a) s = .next (s.begin.freezeMe (Raise.of c) false none)) ∧
      (∀ c, queueCause o false q = some c → exec (.qpop d q) s = .next (s.begin.freezeMe (Raise.of c) false none)) ∧
      (∀ s1, queueCause o true q = none → s.begin.pushQ o q [s.me.g a] = some s1 → exec (.qpush q a) s = .next (s1.complete o .next)) ∧
      (queueCause o true q = none → s.begin.pushQ o q [s.me.g a] = none → ∃ t, exec (.qpush q a) s = .next t ∧ parkedAs s t) ∧
      (q.toNat < 4 → queueCause o true q = none → (s.me.qout.getD q.toNat []).length < 16 →
        ∃ t, exec (.qpush q a) s = .next t ∧ completedAs s t ∧
          t.me.qout.getD q.toNat [] = s.me.qout.getD q.toNat [] ++ [s.me.g a] ∧ t.mem = s.mem) ∧
      (∀ ws s1, queueCause o false q = none → s.begin.popQ o q 1 = some (ws, s1) → poisonedPop o q 1 = none →
        exec (.qpop d q) s = .next ((s1.wg d (ws.headD 0)).complete o .next)) ∧
      (∀ x l, q = 5 → s.me.q5 = x :: l → poisonedPop o q 1 = none →
        ∃ t, exec (.qpop d q) s = .next t ∧ completedWith s t d x ∧ t.me.q5 = l ∧ t.mem = s.mem) ∧
      (queueCause o false q = none → s.begin.popQ o q 1 = none → ∃ t, exec (.qpop d q) s = .next t ∧ parkedAs s t)) ∧
  (∀ (s : State) (q : Q4) (d : R5), canIssue s →
      (q.toNat < 11 → exec (.qstat d q) s = .next (ends s fun o => (clearStatus q.toNat o).setG d (queueStatus s.me q.toNat))) ∧
      (11 ≤ q.toNat → exec (.qstat d q) s = .next (s.begin.freezeMe (Raise.of Cause.queueReserved) false none)) ∧
      (q.toNat = 5 → queueStatus s.me 5 = BitVec.ofNat 64 (16 * 2 ^ 16 + s.me.q5.length)) ∧
      (q.toNat = 8 → queueStatus s.me 8 = BitVec.ofNat 64 ((s.me.lost.getD 8 0).toNat * 2 ^ 32 + (if s.me.ovf then 2 ^ 24 else 0) +
        16 * 2 ^ 16 + s.me.q8.length)))

/-- 09 R274, 10 R293, R294: QPUSHC puts a command whose fields are allowed into q4 and sends on what the engines take; one that is not
allowed freezes with COMMAND_INVALID, one that counts in a file the strand has none of with SQ_NO_FILE. MSG puts its destination and word into q6 and offers the delivery. Full queues park. -/
def Obligations.CommandsAndMessages : Prop :=
  ∀ (s : State) (v a b : R5) (h : Bool), canIssue s →
    let o := s.begin.me
    let c := commandHalf (s.me.vr v) h
    let d := (s.me.g a).toNat
    (commandOk s.begin o c.toNat = false → exec (.qpushc v h) s = .next (s.begin.freezeMe (Raise.of Cause.commandInvalid) false none)) ∧
    (let files := ((cWv c.toNat || cSv c.toNat) && (s.begin.fileOf o).isNone)
     commandOk s.begin o c.toNat = true →
      (files = true → exec (.qpushc v h) s = .next (s.begin.freezeMe (Raise.of Cause.sqNoFile) false none)) ∧
      (files = false → s.me.q4.length < 8 →
        exec (.qpushc v h) s =
          .next (((s.begin.setMe fun x => { x with q4 := x.q4 ++ [(c, s.begin.fileOf o)] }).routeCmds s.me.key 8).complete o .next)) ∧
      (files = false → 8 ≤ s.me.q4.length → ∃ t, exec (.qpushc v h) s = .next t ∧ parkedAs s t)) ∧
    (d < 2 ^ 15 → d ≤ 20479 → s.me.q6.length < 16 →
      ∃ t, exec (.msg a b) s = .next t ∧ completedAs s t ∧ t.me.q6 = s.me.q6 ++ [(s.me.g a, s.me.g b)] ∧
        t.agenda = s.agenda ++ [.messageDelivery s.me.key] ∧ t.mem = s.mem) ∧
    (d < 2 ^ 15 → d ≤ 20479 → 16 ≤ s.me.q6.length → ∃ t, exec (.msg a b) s = .next t ∧ parkedAs s t) ∧
    (2 ^ 32 ≤ d → exec (.msg a b) s = .next (s.begin.freezeMe (Raise.of Cause.msgDest) false none))

/-! ## Gangs, barriers, notices -/

/-- 01 R40, R41, R44, 10 R307, R308: GANG at the first member, when every member waits with the same request, forms the gang; a member of
the formed gang completes as a follower; the last member's UNGANG dissolves it. 10 R309, R310: an arrival of BARA is recorded with the strand's phase and counters; BAR and BARW take the oldest arrival once its phase is
complete, with its phase as the result, BAR.ev with the sums of the phase as a record of eight words; without an arrival BARW freezes. -/
def Obligations.GangsAndBarriers : Prop :=
  (∀ (s : State) (dir : Bool) (nc : BitVec 2), canIssue s →
      let o := s.begin.me
      let ms := gangStrands (s.begin.setMe fun x => { x with gangReq := some (nc, dir) }) o (gangSids o nc dir)
      (s.me.crew.isSome = true → slotOf s.me.sid ≠ 7 → nc ≠ 0 → gangInside s.me nc dir = true → s.me.gang = none → s.me.pair = none → outsideClause s →
        s.me.run ≠ .empty → s.me.run ≠ .follower →
        (∀ c, s.me.crew.bind s.begin.crew = some c → c.gone = []) →
        (∀ m ∈ ms, ∃ x, m = some x ∧ x.gangReq = some (nc, dir) ∧ x.out = false ∧ x.isFrozen = false) →
        ((ms.filterMap id).map (·.key)).head? = some s.me.key → ((ms.filterMap id).map (·.key)).Nodup →
        ∃ t, exec (.gang dir nc) s = .next t ∧ t.me.pc = s.me.pc + 8 ∧ t.me.gidx = 0 ∧ t.me.gang = some s.uid ∧
          ∃ g ∈ t.sched.gangs, g.uid = s.uid ∧ g.members = (ms.filterMap id).map (·.key) ∧ g.nc = nc ∧ g.south = dir) ∧
      (s.me.gang.isSome = true → s.me.gangReq.isSome = true →
        ∃ t, exec (.gang dir nc) s = .next t ∧ t.me.pc = (ends s id).me.pc ∧ t.me.run = .follower ∧ t.me.gangReq = none) ∧
      (s.begin.gangOf o = none → exec .ungang s = .next (ends s id)) ∧
      (∀ g, s.begin.gangOf o = some g → s.me.run ≠ .follower →
        (g.members.getLast? ≠ some s.me.key → exec .ungang s = .next (ends s id)) ∧
        (g.members.getLast? = some s.me.key →
          ∃ t, exec .ungang s = .next t ∧ t.me.pc = (ends s id).me.pc ∧ t.me.gang = none ∧ ∀ x ∈ t.strands, x.gang ≠ some g.uid))) ∧
  (∀ (s : State) (d a : R5) (w : Nat), canIssue s → s.me.crew = some w → (∀ c, s.begin.crew w = some c → c.poisoned = false) →
      (∀ x l sums, s.me.arrivals = x :: l → x.done = some sums →
        (∃ t, exec (.barw d) s = .next t ∧ completedWith s t d (if x.tag then 1 else 0) ∧ t.me.arrivals = l ∧ t.mem = s.mem) ∧
        (s.me.barArrived = true →
          (∃ t, exec (.bar d a false) s = .next t ∧ completedWith s t d (if x.tag then 1 else 0) ∧ t.me.arrivals = l ∧ t.mem = s.mem) ∧
          (∀ p, s.memWf → s.me.g a = ownLocal p → p % 32 = 0 → openLocal s p 32 →
            ∃ t, exec (.bar d a true) s = .next t ∧ completedWith s t d (if x.tag then 1 else 0) ∧
              (∀ i < 8, leNat (t.bytes (.mem (lkey s.me.core (p + 4 * i))) 4) = (sums.getD i 0).toNat) ∧
              sameMemOutside s t (lkey s.me.core p) 32))) ∧
      (s.me.arrivals = [] → exec (.barw d) s = .next (s.begin.freezeMe (Raise.of Cause.barrierNoArrival) false none)) ∧
      ((openArrivals s.me).length < 2 → s.me.arrivals.length < 3 → noneOutstanding s → s.me.run ≠ .empty →
        ∃ t, exec .bara s = .next t ∧ completedAs s t ∧ t.me.barPhase = !s.me.barPhase ∧ t.me.arrivals.length = s.me.arrivals.length + 1 ∧
          ∃ x, t.me.arrivals.getLast? = some x ∧ x.tag = s.me.barPhase ∧ x.sums = s.me.ev))

/-- 01 R30-R32, 10 R312-R314: NRET leaves the handler: the interrupted PC, g8-g15 exchanged with h0-h7, notices and the clause live again. WAIT
goes on where an enabled source is pending and parks where none is; YIELD goes on, and offers its slot to the scheduler unless the
strand is in a gang. -/
def Obligations.NoticesWaitingAndYielding : Prop :=
  ∀ (s : State), canIssue s →
    (s.me.nhbusy = true →
      ∃ t, exec .nret s = .next t ∧ t.me.pc = s.me.nepc ∧ t.me.nhbusy = false ∧ t.me.susp = false ∧
        (∀ i : Fin 8, t.me.g (BitVec.ofNat 5 (8 + i.val)) = s.me.h.getD i.val 0 ∧
          t.me.h.getD i.val 0 = s.me.g (BitVec.ofNat 5 (8 + i.val))) ∧
        (∀ r : R5, r.toNat < 8 ∨ 16 ≤ r.toNat → t.me.g r = s.me.g r) ∧ t.mem = s.mem) ∧
    (s.me.nhbusy = false → exec .nret s = .next (s.begin.freezeMe (Raise.of Cause.noticeNotActive) false none)) ∧
    (s.me.gang = none → s.me.nhmask.toNat % 32 ≠ 0 → noticesOn s.me = true ∨ s.me.nhbusy = true →
      (enabledSources s.me ≠ 0 → exec .wait s = .next (ends s id)) ∧
      (enabledSources s.me = 0 → ∃ t, exec .wait s = .next t ∧ parkedAs s t)) ∧
    (s.me.gang.isSome = true → exec .yield s = .next (ends s id)) ∧
    (s.me.gang = none →
      exec .yield s = .next (((s.begin.setMe fun o => { o with yields := true }).later (.swapOut s.me.key)).complete s.begin.me .next))

/-! ## Tasks and launches -/

/-- 10 R295-R299: SPAWN pushes the frame of the calling task at the bottom of its deque and goes to its target, with g14 the new join counter;
TEXIT with no join counter takes the newest frame back; with none and no stealing the strand ends. 10 R300, R301: JOIN goes on where its counter is 0, and where it is not and nothing may be stolen it parks; STEAL of a core with no frame of
the launch answers 0, of one with a frame takes the oldest one into the deque's own slot and answers its address. -/
def Obligations.SpawningJoiningAndStealing : Prop :=
  (∀ (s : State) (a b : R5) (k m : Nat), canIssue s → s.me.gang = none → noneOutstanding s → s.memWf → dequeOf s.me = some (k, m) →
      ((s.me.g a).toNat % 8 = 0 → s.me.g b = 0 → dqCount s k < m + 1 → s.begin.bankHolds s.begin.me = true →
        ∃ t, exec (.spawn a b) s = .next t ∧ t.me.pc = s.me.g a ∧ t.me.g 14 = 0 ∧
          frameAt t (dqSlot k m (dqBottom s k)) = frameOf s.me (s.me.pc + 8) 0 ∧ dqBottom t k = dqBottom s k + 1 ∧ dqTop t k = dqTop s k ∧
          (∀ x, x < k ∨ k + 128 + 64 * (m + 1) ≤ x → mget t.mem x = mget s.mem x)) ∧
      (s.me.lo.getD 14 0 = 0 →
        (s.begin.popPoison k m = none → let f := frameAt s (dqSlot k m (dqBottom s k - 1))
         ((dqTop s k).toNat < (dqBottom s k - 1).toNat ∧ dqCount s k ≠ 0) ∨ dqBottom s k - 1 = dqTop s k →
          ∃ t, exec .texit s = .next t ∧ t.me.pc = f.getD 0 0 ∧ t.me.g 11 = f.getD 4 0 ∧ t.me.g 12 = f.getD 5 0 ∧
            t.me.g 13 = f.getD 6 0 ∧ t.me.g 14 = f.getD 3 0 ∧ t.me.g 15 = f.getD 2 0 ∧ dqCount t k = dqCount s k - 1 ∧
            (∀ x, x < k ∨ k + 128 ≤ x → mget t.mem x = mget s.mem x)) ∧
        (dqTop s k = dqBottom s k → stealOn s.me = false → s.me.run ≠ .empty → s.me.ump = none →
          ∃ t, exec .texit s = .next t ∧ t.strand s.me.key = none) ∧
        (dqTop s k = dqBottom s k → stealOn s.me = true →
          ∃ t, exec .texit s = .next t ∧ t.me.park = .steal ∧ t.me.run = .parked))) ∧
  (∀ (s : State) (a d : R5) (k m p : Nat), canIssue s → s.me.gang = none → s.memWf → dequeOf s.me = some (k, m) →
      (s.me.g a = ownLocal p → p % 8 = 0 → cleanLocal s p 8 →
        (s.word (lkey s.me.core p) = 0 → ∃ t, exec (.join a) s = .next t ∧ completedAs s t ∧ t.mem = s.mem) ∧
        (s.word (lkey s.me.core p) ≠ 0 → stealOn s.me = false → s.me.woken = false →
          ∃ t, exec (.join a) s = .next t ∧ parkedAs s t)) ∧
      ((s.me.g a).toNat ≤ 2559 → s.me.g a ≠ 0 →
        stealWaits s.begin s.me.core (s.me.launch.getD 0) (victimsOf s.begin (s.me.g a).toNat) = false →
        (stealFrom s.begin (s.me.launch.getD 0) (victimsOf s.begin (s.me.g a).toNat) = none →
          ∃ t, exec (.steal d a) s = .next t ∧ completedWith s t d 0 ∧ t.mem = s.mem) ∧
        (∀ f s1, stealFrom s.begin (s.me.launch.getD 0) (victimsOf s.begin (s.me.g a).toNat) = some (f, s1) →
          stealPoison s.begin (s.me.launch.getD 0) (victimsOf s.begin (s.me.g a).toNat) = none →
          ∃ t, exec (.steal d a) s = .next t ∧ completedWith s t d (s.me.dqbase + 64) ∧ frameAt t (k + 64) = f ∧
            (∀ x, x < k + 64 ∨ k + 128 ≤ x → mget t.mem x = mget s1.mem x))))

/-- 10 R302, R304: TASKW puts its frame and conditions into a wait pool, VTRIG binds its frame to a name; each reads its record from memory. 10 R305, 12 R343, R347: LAUNCH of a record with no reason to refuse it accepts it while its queue holds fewer than 64, parks at 64, and freezes
with LAUNCH_INVALID where there is a reason. -/
def Obligations.WaitingTasksAndLaunches : Prop :=
  (∀ (s : State) (a b : R5) (p : Nat), canIssue s → s.me.gang = none → noneOutstanding s →
      (s.me.g b = ownLocal p → p % 128 = 0 → cleanLocal s p 128 →
        ∀ ws, ws = ((List.range 16).map fun i => s.word (lkey s.me.core (p + 8 * i))) →
        ∀ cs at0, readConds s.begin.me s.begin ((List.range 4).map fun i => (ws.getD (8 + 2 * i) 0, ws.getD (9 + 2 * i) 0)) = .ok cs at0 →
          frameKind (frameOfWords ws) < 2 → s.poolCount (at0.getD (homeUnit s.me.core)) < 4096 →
          ∃ t, exec (.taskw b) s = .next t ∧ completedAs s t ∧ t.mem = s.mem ∧
            ∃ w, t.homes.wframes = s.homes.wframes ++ [w] ∧ w.frame = frameOfWords ws ∧ w.conds = cs ∧ w.key = s.me.key ∧ w.fired = false) ∧
      (s.me.g b = ownLocal p → p % 64 = 0 → cleanLocal s p 64 →
        ∀ ws, ws = ((List.range 8).map fun i => s.word (lkey s.me.core (p + 8 * i))) →
          let space := s.spaceOf s.me.ctx (nameOf s.me a)
          let v := fld (s.me.g a).toNat 32 32
          s.homeOpen (dieOf s.me.core) space (nameOf s.me a) = true →
          frameKind (frameOfWords ws) = 1 → (v = 0 ∨ (s.nameRec space (nameOf s.me a)).latest < v) →
          s.trigCount (s.nameSlice space (nameOf s.me a)) < 4096 →
          ∃ t, exec (.vtrig a b) s = .next t ∧ completedAs s t ∧ t.mem = s.mem ∧
            ∃ x ∈ (t.nameRec space (nameOf s.me a)).trigs, x.key = s.me.key ∧ x.v = v ∧ x.frame = frameOfWords ws)) ∧
  (∀ (s : State) (a : R5) (p : Nat), canIssue s → s.me.gang = none → noneOutstanding s →
      s.me.g a = ownLocal p → p % 128 = 0 → cleanLocal s p 128 →
      ∀ r : Vector Word 16, (∀ i : Fin 16, r[i] = s.word (lkey s.me.core (p + 8 * i.val))) →
        let s1 := s.begin.setMe fun o => nextRound { o with query := some { dieOnly := false, answered := true } }
        let m := maskSeal 0 r
        (refuseReason s1 s.me.ctx none m = none → s1.acceptedCount s.me.ctx (rQueue m) < 64 →
          ∃ t, exec (.launch a) s = .next t ∧ completedAs s t ∧ t.mem = s.mem ∧
            ∃ l, t.sched.launches = s.begin.sched.launches ++ [l] ∧ l.rcd = m ∧ l.ctx = s.me.ctx ∧ l.queue = rQueue m ∧ l.st = .accepted ∧
              l.effClass = rClass m ∧ l.accepted = s.tick) ∧
        (refuseReason s1 s.me.ctx none m = none → 64 ≤ s1.acceptedCount s.me.ctx (rQueue m) →
          ∃ t, exec (.launch a) s = .next t ∧ parkedAs s t) ∧
        (∀ n, refuseReason s1 s.me.ctx none m = some n →
          exec (.launch a) s = .next ((s1.noteWalks s.me.ctx m).freezeMe (Raise.of Cause.launchInvalid) false none)))

/-! ## State words and system instructions -/

/-- 01 R34, 06 R194-R196: MFS answers the word where its selector exists at the strand's level, MTS writes it after the bundle; a selector that does
not exist, lies above the level, is read-only or takes no such value freezes with the cause of the first failing check. 01 R34, R35: what the words of a strand read, by selector. 06 R196, 00 R7: a word of the strand that MTS wrote reads back with its reserved bits 0, the event counters with their low 32 bits; a write
to one word leaves the other words of the strand. -/
def Obligations.StateWords : Prop :=
  (∀ (s : State) (d a : R5) (sel : BitVec 12), canIssue s →
      let n := sel.toNat
      exec (.mfs d sel) s = .next (
        if selDefined n = false then s.begin.freezeMe (Raise.of Cause.stateUndefined) false none
        else if s.me.level.rank < n / 256 then s.begin.freezeMe (Raise.of Cause.statePrivilege) false none
        else gives s d (readWord s.begin s.begin.me n)) ∧
      exec (.mts a sel) s = .next (
        if selDefined n = false then s.begin.freezeMe (Raise.of Cause.stateUndefined) false none
        else if s.me.level.rank < n / 256 then s.begin.freezeMe (Raise.of Cause.statePrivilege) false none
        else if selReadonly s.me.level n then s.begin.freezeMe (Raise.of Cause.stateReadonly) false none
        else if (n = 0x40 ∨ n = 0x43 ∨ n = 0x48 ∨ n = 0x49) ∧ (s.me.g a).toNat % 8 ≠ 0 then
          s.begin.freezeMe (Raise.of Cause.pcMisaligned) false none
        else (ends s id).writeWordOf s.me.key n (s.me.g a))) ∧
  (∀ (s : State) (o : Strand),
      readWord s o 0x00 = BitVec.ofNat 64 (o.sid % 8) ∧ readWord s o 0x01 = BitVec.ofNat 64 (o.sid / 8) ∧
      readWord s o 0x04 = o.gidx.zeroExtend 64 ∧ readWord s o 0x05 = BitVec.ofNat 64 o.ctx ∧
      readWord s o 0x06 = BitVec.ofNat 64 s.tick ∧ readWord s o 0x07 = o.crewpos ∧
      readWord s o 0x10 = o.fpmode ∧ readWord s o 0x11 = o.rngs ∧
      (∀ i < 8, readWord s o (0x18 + i) = (o.ev.getD i 0).zeroExtend 64) ∧
      readWord s o 0x20 = o.fmta ∧ readWord s o 0x21 = o.fmtb ∧ readWord s o 0x22 = o.scla ∧ readWord s o 0x23 = o.sclb ∧
      readWord s o 0x24 = o.mxacc ∧ readWord s o 0x25 = o.mxcfg ∧ readWord s o 0x30 = o.wsp ∧ readWord s o 0x31 = o.wlim ∧
      readWord s o 0x32 = BitVec.ofNat 64 (o.spilled.toNat * 8 + (2 + o.older.length)) ∧
      readWord s o 0x38 = o.dqbase ∧ readWord s o 0x39 = o.dqmask ∧
      readWord s o 0x40 = o.nhvec ∧ readWord s o 0x41 = o.nhmask ∧ readWord s o 0x43 = o.nepc ∧
      readWord s o 0x48 = o.lstart ∧ readWord s o 0x49 = o.lend ∧ readWord s o 0x4A = o.lcount ∧
      readWord s o 0x4B = BitVec.ofNat 64 ((if o.susp then 2 else 0) + (if o.armed then 1 else 0)) ∧
      readWord s o 0x50 = o.gangcfg ∧ (∀ i < 8, readWord s o (0x60 + i) = o.h.getD i 0)) ∧
  (∀ (s : State) (sel : Nat) (x : Word), s.me.run ≠ .empty →
      (∃ n ∈ [0x10, 0x11, 0x20, 0x21, 0x22, 0x23, 0x24, 0x25, 0x30, 0x31, 0x38, 0x39, 0x40, 0x41, 0x43, 0x48, 0x49, 0x4A, 0x4B], sel = n) ∨
        (0x18 ≤ sel ∧ sel < 0x20) ∨ (0x60 ≤ sel ∧ sel < 0x68) →
      let t := s.writeWordOf s.me.key sel x
      readWord t t.me sel =
        (if sel = 0x10 then (if x &&& 7#64 = 6#64 ∨ x &&& 7#64 = 7#64 then x &&& 0x30#64 else x &&& 0x37#64)
         else if sel = 0x25 then x &&& 0xFFFFFFFF00000103#64
         else if sel = 0x39 then x &&& 0x80FF#64
         else if sel = 0x41 then x &&& 0x801F#64
         else if sel = 0x4B then x &&& 3#64
         else if 0x18 ≤ sel ∧ sel < 0x20 then x &&& 0xFFFFFFFF#64
         else x) ∧
      (∀ n < 0x68, selDefined n = true → n ≠ sel → n ≠ 0x42 → readWord t t.me n = readWord s s.me n) ∧
      (∀ r, t.me.g r = s.me.g r) ∧ t.me.pc = s.me.pc ∧ t.mem = s.mem)

/-- 11 R336: ECALL freezes with SERVICE_CALL, BRK with BREAKPOINT unless an armed debug module stops the strand before it, TRMARK leaves a trace
record and completes, HALT ends a firmware strand and freezes any other with PRIVILEGED_OP. -/
def Obligations.SystemInstructions : Prop :=
  ∀ (s : State) (a : R5), canIssue s →
    exec .ecall s = .next (s.begin.freezeMe (Raise.of Cause.serviceCall) false none) ∧
    (((s.core s.me.core).armed && !s.me.ganged) = false →
      exec .brk s = .next (s.begin.freezeMe (Raise.of Cause.breakpoint) false none)) ∧
    (((s.core s.me.core).armed && !s.me.ganged) = true → ∃ t, exec .brk s = .next t ∧ t.me.run = .stopped ∧ t.me.pc = s.me.pc) ∧
    exec (.trmark a) s = .next ((s.begin.traceOf s.begin.me 7 (s.me.g a)).complete s.begin.me .next) ∧
    (s.me.level ≠ .firmware → exec .halt s = .next (s.begin.freezeMe (Raise.of Cause.privilegedOp) false none)) ∧
    (s.me.level = .firmware → s.me.run ≠ .empty → ∃ t, exec .halt s = .next t ∧ t.strand s.me.key = none)

/-! ## The vector slot -/

/-- 08 R234, R236: the mask operations and the comparisons into a mask: bit j of the result is the operation on bit j, or the comparison of the
two lanes where lane j is active; the bits above the lanes are 0. VNOP does nothing. -/
def Obligations.MasksAndComparisons : Prop :=
  ∀ (s : State) (kd ka kb : K3), canIssue s →
    exec .vnop s = .next (ends s id) ∧
    exec (.kand kd ka kb) s = .next (ends s fun o => o.setK kd (s.me.kr ka &&& s.me.kr kb)) ∧
    exec (.kor kd ka kb) s = .next (ends s fun o => o.setK kd (s.me.kr ka ||| s.me.kr kb)) ∧
    exec (.kxor kd ka kb) s = .next (ends s fun o => o.setK kd (s.me.kr ka ^^^ s.me.kr kb)) ∧
    exec (.knot kd ka) s = .next (ends s fun o => o.setK kd (~~~s.me.kr ka)) ∧
    exec (.kmov kd ka) s = .next (ends s fun o => o.setK kd (s.me.kr ka)) ∧
    ∀ (va : VSrc) (vb : R5) (k : K3) (ew : Ew) (a : Vec) (s1 : State), takes s va a s1 →
      let x := laneOf ew.bits a
      let y := laneOf ew.bits (s.me.vr vb)
      let act := s.me.active k
      writesK s s1 (.vcmpEq kd va vb k ew) kd ew.lanes Evs.zero (fun j => act j && decide (x j = y j)) ∧
      writesK s s1 (.vcmpNe kd va vb k ew) kd ew.lanes Evs.zero (fun j => act j && decide (x j ≠ y j)) ∧
      writesK s s1 (.vcmpLt kd va vb k ew) kd ew.lanes Evs.zero (fun j => act j && decide (sintW ew.bits (x j) < sintW ew.bits (y j))) ∧
      writesK s s1 (.vcmpLe kd va vb k ew) kd ew.lanes Evs.zero (fun j => act j && decide (sintW ew.bits (x j) ≤ sintW ew.bits (y j))) ∧
      writesK s s1 (.vcmpLtu kd va vb k ew) kd ew.lanes Evs.zero (fun j => act j && decide (x j < y j)) ∧
      writesK s s1 (.vcmpLeu kd va vb k ew) kd ew.lanes Evs.zero (fun j => act j && decide (x j ≤ y j))

/-- 08 R231, R235-R237, R249: the lane-by-lane integer operations: each active lane becomes the operation on its sources modulo 2^w, an inactive
one keeps its value; VSEL writes every lane; the saturating forms clamp and count the lanes they clamped in EVSAT. -/
def Obligations.VectorIntegerLanes : Prop :=
  ∀ (s : State) (vd : R5) (va : VSrc) (ra vb vc : R5) (k : K3) (ew : Ew) (a : Vec) (s1 : State), canIssue s → takes s va a s1 →
    let w := ew.bits
    let n := ew.lanes
    let x := laneOf w a
    let y := laneOf w (s.me.vr vb)
    let z := laneOf w (s.me.vr vc)
    let si := fun v => sintW w v
    let top : Int := 2 ^ (w - 1)
    writesQuiet s s1 (.vadd vd va vb k ew) vd k w n (fun j => x j + y j) ∧
    writesQuiet s s1 (.vsubVector vd va vb k ew) vd k w n (fun j => x j + (2 ^ w - y j)) ∧
    writesQuiet s s1 (.vmul vd va vb k ew) vd k w n (fun j => x j * y j) ∧
    writesQuiet s s1 (.vmulh vd va vb k ew) vd k w n (fun j => wrapInt w (si (x j) * si (y j) / 2 ^ w)) ∧
    writesQuiet s s1 (.vand vd va vb k ew) vd k w n (fun j => x j &&& y j) ∧
    writesQuiet s s1 (.vor vd va vb k ew) vd k w n (fun j => x j ||| y j) ∧
    writesQuiet s s1 (.vxor vd va vb k ew) vd k w n (fun j => x j ^^^ y j) ∧
    writesQuiet s s1 (.vandn vd va vb k ew) vd k w n (fun j => x j &&& (2 ^ w - 1 - y j)) ∧
    writesQuiet s s1 (.vsll vd va vb k ew) vd k w n (fun j => if w ≤ y j then 0 else x j * 2 ^ y j) ∧
    writesQuiet s s1 (.vsrl vd va vb k ew) vd k w n (fun j => x j / 2 ^ y j) ∧
    writesQuiet s s1 (.vsra vd va vb k ew) vd k w n (fun j => wrapInt w (si (x j) / 2 ^ y j)) ∧
    writesQuiet s s1 (.vmin vd va vb k ew) vd k w n (fun j => if si (x j) < si (y j) then x j else y j) ∧
    writesQuiet s s1 (.vmax vd va vb k ew) vd k w n (fun j => if si (x j) < si (y j) then y j else x j) ∧
    writesQuiet s s1 (.vminu vd va vb k ew) vd k w n (fun j => if x j < y j then x j else y j) ∧
    writesQuiet s s1 (.vmaxu vd va vb k ew) vd k w n (fun j => if x j < y j then y j else x j) ∧
    writesQuiet s s1 (.vabs vd va k ew) vd k w n (fun j => (si (x j)).natAbs) ∧
    writesQuiet s s1 (.vpopc vd va k ew) vd k w n (fun j => ((List.range w).filter fun i => (x j).testBit i).length) ∧
    writesQuiet s s.begin (.vmadd vd ra vb vc k ew) vd k w n (fun j => laneOf w (s.me.vr ra) j * y j + z j) ∧
    (∃ v : Vec, exec (.vsel vd va vb k ew) s = .next ((s1.wv vd v).complete s.begin.me .next) ∧
      ∀ j < n, laneOf w v j = if s.me.active k j then x j else y j) ∧
    (let u := laneOf 32 a
     writesQuiet s s1 (.vfkey vd va k) vd k 32 16 (fun j => if u j < 2 ^ 31 then u j + 2 ^ 31 else 2 ^ 32 - 1 - u j)) ∧
    (let clamped := fun (r : Int) => if r < -top ∨ top ≤ r then { Evs.zero with sat := 1 } else Evs.zero
     writesV s s1 (.vaddSat vd va vb k ew) vd k w n (activeEvs s.me k n fun j => clamped (si (x j) + si (y j)))
       (fun j => wrapInt w (clampInt (-top) (top - 1) (si (x j) + si (y j)))) ∧
     writesV s s1 (.vsubSat vd va vb k ew) vd k w n (activeEvs s.me k n fun j => clamped (si (x j) - si (y j)))
       (fun j => wrapInt w (clampInt (-top) (top - 1) (si (x j) - si (y j)))))

/-- 08 R250-R254, R256: lanes moved, reduced, scanned, compressed, sorted and pushed: an integer VRED leaves the operation over the active lanes
in lane 0, VSCAN the running results, VSORT and VMERGE an ordered arrangement of the same lanes. -/
def Obligations.LanesMovedReducedAndSorted : Prop :=
  ∀ (s : State) (vd d : R5) (va : VSrc) (vb b : R5) (k : K3) (ew : Ew) (kind : RedKind) (a : Vec) (s1 : State), canIssue s → takes s va a s1 →
    let w := ew.bits
    let n := ew.lanes
    let x := laneOf w a
    let act := s.me.active k
    let ok := fun (i : Instr) (v : Vec) => exec i s = .next ((s1.wv vd v).complete s.begin.me .next)
    writesQuiet s s1 (.vperm vd va vb k ew) vd k w n (fun j => x (laneOf w (s.me.vr vb) j % n)) ∧
    writesQuiet s s.begin (.vbcast vd b k ew) vd k w n (fun _ => (s.me.g b).toNat) ∧
    exec (.vext d va b ew) s = .next ((s1.wg d (BitVec.ofNat 64 (x ((s.me.g b).toNat % n)))).complete s.begin.me .next) ∧
    (∃ v : Vec, exec (.vins vd d b ew) s = .next ((s.begin.wv vd v).complete s.begin.me .next) ∧
      ∀ j < n, laneOf w v j = if j = (s.me.g b).toNat % n then (s.me.g d).toNat % 2 ^ w else laneOf w (s.me.vr vd) j) ∧
    writesQuiet s s1 (.vslideUp vd va b k ew) vd k w n (fun j => if (s.me.g b).toNat ≤ j then x (j - (s.me.g b).toNat) else 0) ∧
    writesQuiet s s1 (.vslideDn vd va b k ew) vd k w n (fun j => if j + (s.me.g b).toNat < n then x (j + (s.me.g b).toNat) else 0) ∧
    (kind.isFp = false →
      let total := fun l => (((List.filter act l).map x).foldl (fun p q => (redOp kind ew s.me.mode s.me.flush p q).1) (redIdentity kind ew))
      (∃ v, ok (.vred vd va kind k ew) v ∧ laneOf w v 0 = total (List.range n) ∧
        ∀ j, 0 < j → j < n → laneOf w v j = laneOf w (s.me.vr vd) j) ∧
      ∃ v, ok (.vscan vd va kind k ew) v ∧
        ∀ j < n, laneOf w v j = if act j then total (List.range (j + 1)) else laneOf w (s.me.vr vd) j) ∧
    (∃ v, ok (.vcmprs vd va k ew) v ∧ ∀ j < n, laneOf w v j = (((List.range n).filter act).map x).getD j 0) ∧
    (∃ v, ok (.vsortA vd va) v ∧ (lanesOf 64 8 v).Perm (lanesOf 64 8 a) ∧ (lanesOf 64 8 v).Pairwise (· ≤ ·)) ∧
    (∃ v, ok (.vsortD vd va) v ∧ (lanesOf 64 8 v).Perm (lanesOf 64 8 a) ∧ (lanesOf 64 8 v).Pairwise (· ≥ ·)) ∧
    (∃ lo hi : Vec, exec (.vmergeA vd va vb) s = .next (((s1.wv (vd + 1) hi).wv vd lo).complete s.begin.me .next) ∧
      (lanesOf 64 8 lo ++ lanesOf 64 8 hi).Perm (lanesOf 64 8 a ++ lanesOf 64 8 (s.me.vr vb)) ∧
      (lanesOf 64 8 lo ++ lanesOf 64 8 hi).Pairwise (· ≤ ·)) ∧
    (∃ lo hi : Vec, exec (.vmergeD vd va vb) s = .next (((s1.wv (vd + 1) hi).wv vd lo).complete s.begin.me .next) ∧
      (lanesOf 64 8 lo ++ lanesOf 64 8 hi).Perm (lanesOf 64 8 a ++ lanesOf 64 8 (s.me.vr vb)) ∧
      (lanesOf 64 8 lo ++ lanesOf 64 8 hi).Pairwise (· ≥ ·)) ∧
    ∀ (q : Q4), let ws := (lanesOf 64 8 (s.me.vr vb)).map (BitVec.ofNat 64)
      (∀ c, queueCause s.begin.me true q = some c → exec (.vqpush q vb) s = .next (s.begin.freezeMe (Raise.of c) true none)) ∧
      (∀ s2, queueCause s.begin.me true q = none → s.begin.pushQ s.begin.me q ws = some s2 →
        exec (.vqpush q vb) s = .next (s2.complete s.begin.me .next)) ∧
      (queueCause s.begin.me true q = none → s.begin.pushQ s.begin.me q ws = none →
        exec (.vqpush q vb) s = .next (s.begin.parkMe .poll))

/-- 04 R132-R134, 08 R233, R238-R243, R251, R252: floating point by lanes: an active lane holds the operation rounded by FPMODE, its events counted;
in trap mode the first active lane with a subnormal source freezes the strand with SUBNORMAL_OPERAND and nothing is written. -/
def Obligations.FloatingPointLanes : Prop :=
  ∀ (s : State) (vd : R5) (kd : K3) (va : VSrc) (ra vb vc : R5) (k : K3) (fw : Fw) (a : Vec) (s1 : State), canIssue s → takes s va a s1 →
    let g := Fw.ff fw
    let w := g.width
    let n := Fw.lanes fw
    let x := laneOf w a
    let y := laneOf w (s.me.vr vb)
    let z := laneOf w (s.me.vr vc)
    let md := s.me.mode
    let fl := s.me.flush
    let sub2 := fun j => g.isSub (x j) || g.isSub (y j)
    let sub1 := fun j => g.isSub (x j)
    let by2 := fun (i : Instr) (f : Nat → Nat → Nat × Evs) =>
      (noTrap s.me k n sub2 → writesV s s1 i vd k w n (activeEvs s.me k n fun j => (f (x j) (y j)).2) fun j => (f (x j) (y j)).1) ∧
      ∀ l, trapLane s.me k n sub2 l → trapsAt s i va l
    let by1 := fun (i : Instr) (op : FOp) =>
      (noTrap s.me k n sub1 → writesV s s1 i vd k w n (activeEvs s.me k n fun j => (g.lane op md fl (x j) 0).2)
        fun j => (g.lane op md fl (x j) 0).1) ∧
      ∀ l, trapLane s.me k n sub1 l → trapsAt s i va l
    let cmp := fun (i : Instr) (c : FCond) =>
      (noTrap s.me k n sub2 → writesK s s1 i kd n (activeEvs s.me k n fun j => (flushed2 g fl (x j) (y j) (g.cmp c)).2)
        fun j => s.me.active k j && (flushed2 g fl (x j) (y j) (g.cmp c)).1) ∧
      ∀ l, trapLane s.me k n sub2 l → trapsAt s i va l
    by2 (.vfadd vd va vb k fw) (g.lane .add md fl) ∧ by2 (.vfsub vd va vb k fw) (g.lane .sub md fl) ∧
    by2 (.vfmul vd va vb k fw) (g.lane .mul md fl) ∧ by2 (.vfdiv vd va vb k fw) (g.lane .div md fl) ∧
    by2 (.vfmin vd va vb k fw) (fun p q => flushed2 g fl p q (g.minmax false)) ∧
    by2 (.vfmax vd va vb k fw) (fun p q => flushed2 g fl p q (g.minmax true)) ∧
    by1 (.vfsqrt vd va k fw) .sqrt ∧ by1 (.vfrcp vd va k fw) .rcp ∧ by1 (.vfrsq vd va k fw) .rsq ∧
    by1 (.vfexp2 vd va k fw) .exp2 ∧ by1 (.vflog2 vd va k fw) .log2 ∧
    cmp (.vfcmpEq kd va vb k fw) .eq ∧ cmp (.vfcmpLt kd va vb k fw) .lt ∧ cmp (.vfcmpLe kd va vb k fw) .le ∧ cmp (.vfcmpUn kd va vb k fw) .un ∧
    writesQuiet s s1 (.vfsgnCp vd va vb k fw) vd k w n (fun j => x j % 2 ^ (w - 1) + 2 ^ (w - 1) * (if g.neg (y j) then 1 else 0)) ∧
    writesQuiet s s1 (.vfsgnNeg vd va vb k fw) vd k w n (fun j => x j % 2 ^ (w - 1) + 2 ^ (w - 1) * (if g.neg (y j) then 0 else 1)) ∧
    writesQuiet s s1 (.vfsgnXor vd va vb k fw) vd k w n
      (fun j => x j % 2 ^ (w - 1) + 2 ^ (w - 1) * (if g.neg (x j) = g.neg (y j) then 0 else 1)) ∧
    writesQuiet s s1 (.vfclass vd va k fw) vd k w n (fun j => g.classOf (x j)) ∧
    (∀ (negate : Bool) (i : Instr), i = (if negate then .vfnma vd ra vb vc k fw else .vfma vd ra vb vc k fw) →
      let u := laneOf w (s.me.vr ra)
      let sub3 := fun j => g.isSub (u j) || g.isSub (y j) || g.isSub (z j)
      (noTrap s.me k n sub3 → writesV s s.begin i vd k w n
        (activeEvs s.me k n fun j => (g.laneFma negate md fl (u j) (y j) (z j)).2) fun j => (g.laneFma negate md fl (u j) (y j) (z j)).1) ∧
      ∀ l, trapLane s.me k n sub3 l → trapsAt s i (.reg ra) l) ∧
    (noTrap s.me k n sub2 → ∃ p r : Vec,
      exec (.vtsum vd va vb k fw) s = .next ((((s1.wv (vd + 1) r).wv vd p).tally
        (activeEvs s.me k n fun j => (g.laneTsum fl (x j) (y j)).2.2)).complete s.begin.me .next) ∧
      ∀ j < n, laneOf w p j = (if s.me.active k j then (g.laneTsum fl (x j) (y j)).1 % 2 ^ w else laneOf w (s.me.vr vd) j) ∧
        laneOf w r j = if s.me.active k j then (g.laneTsum fl (x j) (y j)).2.1 % 2 ^ w else laneOf w (s.me.vr (vd + 1)) j) ∧
    (∀ l, trapLane s.me k n sub2 l → trapsAt s (.vtsum vd va vb k fw) va l) ∧
    ∀ (kind : RedKind) (ew : Ew), kind.isFp = true → ew = (match fw with | .f32 => Ew.e32 | .f64 => Ew.e64) →
      let act := s.me.active k
      let leaves := (List.range n).map fun j => if act j then x j else redIdentity kind ew
      let tree := redTree (redOp kind ew md fl) (Nat.log2 n) leaves
      let run := scanFrom (redOp kind ew md fl) act x (laneOf w (s.me.vr vd)) (List.range n) (redIdentity kind ew)
      (noTrap s.me k n sub1 →
        (∃ v : Vec, exec (.vred vd va kind k ew) s = .next (((s1.wv vd v).tally tree.2).complete s.begin.me .next) ∧
          laneOf w v 0 = tree.1 % 2 ^ w ∧ ∀ j, 0 < j → j < n → laneOf w v j = laneOf w (s.me.vr vd) j) ∧
        ∃ v : Vec, exec (.vscan vd va kind k ew) s = .next (((s1.wv vd v).tally run.2).complete s.begin.me .next) ∧
          ∀ j < n, laneOf w v j = run.1.getD j 0 % 2 ^ w) ∧
      ∀ l, trapLane s.me k n sub1 l → trapsAt s (.vred vd va kind k ew) va l ∧ trapsAt s (.vscan vd va kind k ew) va l

/-- 04 R118, R124: rounding a value that the format represents gives it back and counts nothing, in every mode, for every binary format. -/
def Obligations.RoundingKeepsRepresentableValues : Prop :=
  ∀ f ∈ [ff64, ff32, ff16, ffb, ffx], ∀ (x : Nat) (md : RMode) (sat flush neg : Bool) (m : Nat) (e : Int),
    x < 2 ^ f.width → f.unpack x = .num neg m e → (flush = true → f.isSub x = false) → f.round md sat flush neg m e = (x, Evs.zero)

/-- 04 R126, R128-R131, 08 R244-R248: VCVT, VENC and VDEC convert the active lanes, drawing one random step for each active lane where they round
stochastically; the bits above the result lanes are kept. A table that is not in own local memory, not aligned or (VENC) not ordered freezes. The order of a table is
checked once, and the check counts its NaN codes (04 R121; log 51). -/
def Obligations.ConversionsAndCoding : Prop :=
  ∀ (s : State) (vd va : R5) (src dst : Fmt) (c4 : Bool) (rm : Rm) (sat : Bool) (k : K3) (tbl : Bool), canIssue s →
    let o := s.begin.me
    let act := s.me.active k
    let md := fun d => modeOf (rmCode s.me.fpmode rm) d
    let put := fun (u : State) (i : Instr) (w n : Nat) (dr : Bool) (p : List Nat × Evs × Word) => ∃ v : Vec,
      exec i s = .next ((((u.wv vd v).setMe fun o => if dr then { o with rngs := p.2.2 } else o).tally p.2.1).complete s.begin.me .next) ∧
      (∀ j < n, laneOf w v j = p.1.getD j 0 % 2 ^ w) ∧ v.toNat / 2 ^ (w * n) = (s.me.vr vd).toNat / 2 ^ (w * n)
    (let n := 512 / Nat.max (Fmt.width src) (Fmt.width dst)
     let x := laneOf (Fmt.width src) (s.me.vr va)
     let p := drawLanes (draws s.me rm dst) act (fun d j => convert src dst (md d) sat s.me.flush (x j)) (laneOf (Fmt.width dst) (s.me.vr vd))
       (List.range n) s.me.rngs
     let sub := fun j => (match Fmt.ff src with | some f => f.isSub (fld (x j) 0 f.width) | none => false)
     (noTrap s.me k n sub → put s.begin (.vcvt vd va src dst rm sat k) (Fmt.width dst) n (draws s.me rm dst) p) ∧
     ∀ l, trapLane s.me k n sub l → trapsAt s (.vcvt vd va src dst rm sat k) (.reg va) l) ∧
    (imageOf s.begin o tbl = none → ∀ i ∈ [Instr.venc vd va c4 rm sat k tbl, .vencS vd va c4 rm sat k tbl, .vdec vd va c4 rm sat k tbl,
      .vdecS vd va c4 rm sat k tbl], exec i s = .next (s.begin.freezeMe (Raise.of Cause.tableAddress) true none)) ∧
    ∀ b t, imageOf s.begin o tbl = some (b, t) → s.begin.poisonIn (.mem b) 1024 = none →
      let w := if c4 then 4 else 8
      (tableOrdered t c4 = false → exec (.venc vd va c4 rm sat k tbl) s = .next (s.begin.freezeMe (Raise.of Cause.tableUnordered) true none) ∧
        exec (.vencS vd va c4 rm sat k tbl) s = .next (s.begin.freezeMe (Raise.of Cause.tableUnordered) true none)) ∧
      ∀ (scaled : Bool),
        let enc := if scaled then Instr.vencS vd va c4 rm sat k tbl else .venc vd va c4 rm sat k tbl
        let dec := if scaled then Instr.vdecS vd va c4 rm sat k tbl else .vdec vd va c4 rm sat k tbl
        let x := laneOf 32 (s.me.vr va)
        (tableOrdered t c4 = true →
          let sc := scaleOf scaled (s.me.vr vd)
          let dr := draws s.me rm (if c4 then .c4 else .c8)
          (noTrap s.me k 16 (fun j => encSub sc (x j)) → put (s.begin.checkOrder b t c4) enc w 16 dr
            (drawLanes dr act (fun d j => encLane t c4 (md d) sat s.me.flush sc (x j)) (laneOf w (s.me.vr vd)) (List.range 16) s.me.rngs)) ∧
          ∀ l, trapLane s.me k 16 (fun j => encSub sc (x j)) l → trapsAt s enc (.reg va) l) ∧
        (let d := fun j => decLane t (md none) sat s.me.flush (scaleOf scaled (s.me.vr va)) (laneOf w (s.me.vr va) j)
         writesV s s.begin dec vd k 32 16 (activeEvs s.me k 16 fun j => (d j).2) fun j => (d j).1)

/-- 08 R232, R233: an instruction whose first source is a queue freezes where the strand may not pop it, waits where it holds fewer than 8 words, and
consumes no poisoned word. -/
def Obligations.QueueSourcesFreezeOrWait : Prop :=
  ∀ (s : State) (q : Q4) (vd d vb : R5) (kd k : K3) (ew : Ew) (fw : Fw) (kind : RedKind), canIssue s →
    let o := s.begin.me
    ∀ i ∈ ([.vadd vd (.que q) vb k ew, .vaddSat vd (.que q) vb k ew, .vmul vd (.que q) vb k ew, .vand vd (.que q) vb k ew,
        .vsll vd (.que q) vb k ew, .vmin vd (.que q) vb k ew, .vabs vd (.que q) k ew, .vsel vd (.que q) vb k ew, .vcmpEq kd (.que q) vb k ew,
        .vfadd vd (.que q) vb k fw, .vfmul vd (.que q) vb k fw, .vfsqrt vd (.que q) k fw, .vfcmpLt kd (.que q) vb k fw, .vfclass vd (.que q) k fw,
        .vtsum vd (.que q) vb k fw, .vfkey vd (.que q) k, .vperm vd (.que q) vb k ew, .vext d (.que q) vb ew, .vslideUp vd (.que q) vb k ew,
        .vred vd (.que q) kind k ew, .vscan vd (.que q) kind k ew, .vcmprs vd (.que q) k ew, .vsortA vd (.que q),
        .vmergeA vd (.que q) vb] : List Instr),
      (∀ c, queueCause o false q = some c → exec i s = .next (s.begin.freezeMe (Raise.of c) true none)) ∧
      (queueCause o false q = none → s.begin.popQ o q 8 = none → exec i s = .next (s.begin.parkMe .poll)) ∧
      (∀ p r, queueCause o false q = none → s.begin.popQ o q 8 = some p → poisonedPop o q 8 = some r →
        exec i s = .next (s.begin.freezeMe r true (some q)))

/-! ## Freezes, umpires -/

/-- 11 R315, R317, R329: taking a freeze: the strand stops at its PC with its registers as they were, the cause, syllable, lane, address and bundle
recorded and its serial advanced, and an umpire is called; only the black box takes a record. A strand whose umpire still waits for a frame
is Frozen, pending. In a gang, every member freezes at the same boundary, the others with GANG_DISBANDED, or with GANG_TASK as the
one that ran a task bundle, and the gang is over. 01 R41: whoever waits at GANG for the strand freezes with GANG_FORM_FAILED. Which queue
words the record keeps for a QA source is `heldQa` (08 R232). -/
def Obligations.TakingAFreeze : Prop :=
  ∀ (s : State) (r : Raise) (bsyl : Bool) (qa : Option Q4), s.me.run ≠ .empty → s.me.pair = none → s.gangsUnpaired →
    let t := s.freezeMe r bsyl qa
    let waits := s.me.attached = true ∧ ∃ p ∈ s.pools, p.pend.contains s.me.key = true
    (waits → s.gangOf s.me = none → t.me.run = .frozenPending ∧ t.me.frz.cause = r.cause ∧ t.me.pc = s.me.pc ∧ t.me.since = s.tick) ∧
    (¬waits → s.gangOf s.me = none → gangWaiters s s.me = [] →
      t.me = { s.me with
        run := .frozen, park := .none, await := none, woken := false, gangReq := none, query := none,
        serial := (if s.me.attached then s.me.serial else s.me.serial + 1),
        frz := { cause := r.cause, bsyl := bsyl, lane := BitVec.ofNat 6 r.lane, addr := r.addr, datum := r.datum,
                 bundle := bundleAt s s.me, qa := qa.orElse fun _ => heldQa s s.me, qaNext := 0 } } ∧
      t.others = s.others.map (fun o => if o.key = s.me.key then freezeRec s s.me r bsyl qa o else o) ∧
      (s.me.attached = false → .umpireSpawn s.me.key ∈ t.agenda) ∧
      ((s.core s.me.core).trcOn = false →
        let box := sram (if dieOf s.me.core < 4 then dieOf s.me.core else 0) (2 ^ 30 - 65536)
        (s.memWf → sameMemOutside s t box 65536) ∧ (quietCause r.cause = true → r.ueLine = none → t.mem = s.mem))) ∧
    (s.gangOf s.me = none → s.uniqueKeys → ∀ k ∈ gangWaiters s s.me,
      ∃ y, t.strand k = some y ∧ y.isFrozen = true ∧ y.frz.cause = Cause.gangFormFailed) ∧
    ∀ g, ¬waits → s.gangOf s.me = some g → (∀ p ∈ s.undo, p.key ≠ s.me.key) →
      t.me.run = .frozen ∧ t.me.frz.cause = r.cause ∧ t.me.pc = s.me.pc ∧ (∀ x, t.me.g x = s.me.g x) ∧
      (∀ o ∈ t.others, g.members.contains o.key = true → o.key ≠ s.me.key → o.run ≠ .empty →
        (o.run = .frozen ∨ o.run = .frozenPending) ∧
          o.frz.cause = (if r.cause = Cause.gangTask then Cause.gangTask else Cause.gangDisbanded)) ∧
      ∀ o ∈ t.strands, o.gang ≠ some g.uid

/-- 11 R322: what an instruction on frozen state checks, in order: privilege, a valid capability, its right, the strand and serial it names, and that
the strand is frozen; the first failure freezes the issuer with its cause. FRQ, FKILL, CAPXFER and CAPDROP need no frozen strand, UEXIT no capability. 11 R323-R325: FRD, FRDV and FRQ read a register, a state word or the freeze record of the frozen strand a capability names; FWR and FWRV write
one, in both strands of a pair; selectors of 0x200 and above are refused. The issuer's other registers stay. -/
def Obligations.CapabilitiesAndFrozenState : Prop :=
  (∀ (s : State) (d a v n : R5) (cap : BitVec 2) (kreg : Bool) (sel : BitVec 12) (item : BitVec 4), canIssue s →
      let c := s.me.caps.getD cap.toNat 0
      let stop := fun (i : Instr) (x : Cause) => exec i s = .next (s.begin.freezeMe (Raise.of x) false none)
      let needFrozen : List (Instr × Nat) := [(.frdReg d cap kreg n, 0), (.frdState d cap sel, 0), (.fwrReg cap a kreg n, 1), (.fwrState cap a sel, 1),
        (.frdv v cap n, 0), (.fwrv cap v n, 1), (.fresRetry cap, 2), (.fresSkip cap, 2), (.fresRedirect a cap, 2)]
      let rest : List (Instr × Nat) := [(.frq d cap item, if item = 7 ∨ item = 8 then 1 else 0), (.fkillAbandon cap, 3), (.fkillCount cap, 3),
        (.capxfer a cap, 4)]
      (s.me.level = .user → (∀ p ∈ needFrozen ++ rest, stop p.1 Cause.privilegedOp) ∧ stop (.capdrop cap) Cause.privilegedOp ∧
        stop .uexit Cause.privilegedOp) ∧
      (s.me.level ≠ .user →
        (capValid c = false → (∀ p ∈ needFrozen ++ rest, stop p.1 Cause.capInvalid) ∧ stop (.capdrop cap) Cause.capInvalid) ∧
        (capValid c = true →
          (∀ p ∈ needFrozen ++ rest, capRight c p.2 = false → stop p.1 Cause.capRights) ∧
          ∀ x, s.begin.capStrand c = x →
            (∀ p ∈ needFrozen ++ rest, capRight c p.2 = true →
              (x = none ∨ x.any (fun y => y.isFrozen && !decide (y.serial.toNat = capSerial c)) = true → stop p.1 Cause.capStale)) ∧
            ∀ p ∈ needFrozen, capRight c p.2 = true → (∃ y, x = some y ∧ y.isFrozen = false) → stop p.1 Cause.capNotFrozen))) ∧
  (∀ (s : State) (d a v n : R5) (cap : BitVec 2) (kreg : Bool) (sel : BitVec 12) (x : Strand), canIssue s →
      (namesFrozen s cap 0 x →
        exec (.frdReg d cap kreg n) s = .next (gives s d (if kreg then x.kr (n.truncate 3) else x.g n)) ∧
        exec (.frdState d cap sel) s = .next (match frozenSel sel.toNat none with
          | some c => s.begin.freezeMe (Raise.of c) false none
          | none => gives s d (readWord s.begin x sel.toNat)) ∧
        exec (.frdv v cap n) s = .next (ends s fun o => o.setV v (x.vr n))) ∧
      (namesStrand s cap x → capRight (s.me.caps.getD cap.toNat 0) 0 = true →
        exec (.frq d cap 0) s = .next (gives s d (frqStatus x)) ∧ exec (.frq d cap 1) s = .next (gives s d x.pc) ∧
        exec (.frq d cap 2) s = .next (gives s d x.frz.bundle) ∧ exec (.frq d cap 3) s = .next (gives s d x.frz.addr)) ∧
      (0x200 ≤ sel.toNat → frozenSel sel.toNat none = some Cause.statePrivilege) ∧
      (namesFrozen s cap 1 x →
        let all := fun (f : Strand → Strand) => ((s.begin.both x).foldl (fun s k => s.upd k f) s.begin).complete s.begin.me .next
        exec (.fwrReg cap a kreg n) s = .next (all fun y => if kreg then y.setK (n.truncate 3) (s.me.g a) else y.setG n (s.me.g a)) ∧
        exec (.fwrv cap v n) s = .next (all fun y => y.setV n (s.me.vr v)) ∧
        exec (.fwrState cap a sel) s = .next (match frozenSel sel.toNat (some (s.me.g a)) with
          | some c => s.begin.freezeMe (Raise.of c) false none
          | none => ((s.begin.both x).foldl (fun s1 k => s1.writeWordOf k sel.toNat (s.me.g a)) s.begin).complete s.begin.me .next)) ∧
      (namesStrand s cap x → capRight (s.me.caps.getD cap.toNat 0) 1 = true →
        (x.replay = [] → exec (.frq d cap 7) s = .next (gives s d 0x200)) ∧
        exec (.frq d cap 8) s = .next (((s.begin.upd x.key fun y => { y with replay := y.replay.drop 1 }).wg d
          (BitVec.ofNat 64 (x.replay.length - 1))).complete s.begin.me .next)))

/-- 11 R326-R328, R330: FRES, with nothing left to replay, makes the strand ready at the PC of its form; FKILL ends it; CAPXFER and CAPDROP hand the
capability on; UEXIT ends an umpire that holds none: its strand is gone, and its frame is free again, or is at once that of the oldest strand
that waits for one (R319). UEXIT of a strand that is no umpire is firmware's, which ends its service (the model's reading, log 39). -/
def Obligations.ResumingKillingAndHandingOver : Prop :=
  ∀ (s : State) (a : R5) (cap : BitVec 2) (x : Strand), canIssue s → s.me.run ≠ .empty →
    (namesFrozen s cap 2 x → noneOutstanding s → s.uniqueKeys → x ∈ s.others → x.replay = [] → x.heldSet = none → x.pair = none →
        x.frz.qa = none →
      (∀ p ∈ [(Instr.fresRetry cap, x.pc), (.fresSkip cap, (clauseEnd x x).pc)] ++
          (if (s.me.g a).toNat % 8 = 0 then [(Instr.fresRedirect a cap, s.me.g a)] else []),
        ∃ t, exec p.1 s = .next t ∧ completedAs s t ∧
          ∃ y, t.strand x.key = some y ∧ y.run = .ready ∧ y.pc = p.2 ∧ y.attached = false ∧ (∀ r, y.g r = x.g r) ∧
            s.tick < y.turn ∧ y.turn ≤ s.tick + 9) ∧
      ((s.me.g a).toNat % 8 ≠ 0 → exec (.fresRedirect a cap) s = .next (s.begin.freezeMe (Raise.of Cause.pcMisaligned) false none))) ∧
    (namesStrand s cap x → capRight (s.me.caps.getD cap.toNat 0) 3 = true → x.ump = none → x.pair = none → s.me.key ≠ x.key → s.strand x.key = some x →
      ∀ p ∈ [(Instr.fkillAbandon cap, false), (.fkillCount cap, true)],
        exec p.1 s =
          .next ((((s.begin.setMe (freeCap cap.toNat)).kill (some s.me.key) x.key p.2).unqueue s.me.key).complete s.begin.me .next) ∧
        ((s.begin.setMe (freeCap cap.toNat)).kill (some s.me.key) x.key p.2).strand x.key = none) ∧
    (namesStrand s cap x → capRight (s.me.caps.getD cap.toNat 0) 4 = true →
      let w := (s.me.g a).toNat
      let c := maskCap (s.me.caps.getD cap.toNat 0) (w / 2 ^ 48 % 32)
      let s1 := (s.begin.endSet x.key).setMe (freeCap cap.toNat)
      ((w / 2 ^ 16 % 2 ^ 32 ≠ 0 ∨ w / 2 ^ 53 % 2 ^ 10 ≠ 0) →
        exec (.capxfer a cap) s = .next (s.begin.freezeMe (Raise.of Cause.capTransfer) false none)) ∧
      (w / 2 ^ 16 % 2 ^ 32 = 0 → w / 2 ^ 53 % 2 ^ 10 = 0 →
        (2 ^ 63 ≤ w → s.begin.firmwareRoom s.me.key 1 = true →
          exec (.capxfer a cap) s = .next (((s1.receiveCap c).unqueue s.me.key).complete s.begin.me .next)) ∧
        (2 ^ 63 ≤ w → s.begin.firmwareRoom s.me.key 1 = false → ∃ t, exec (.capxfer a cap) s = .next t ∧ parkedAs s t) ∧
        (w < 2 ^ 63 → s.begin.umpire (w % 2 ^ 16) = none →
          exec (.capxfer a cap) s = .next (s.begin.freezeMe (Raise.of Cause.capTransfer) false none)) ∧
        (∀ r, w < 2 ^ 63 → s.begin.umpire (w % 2 ^ 16) = some r → r.ctx ≠ s.me.ctx ∨ giveCap r c = none →
          exec (.capxfer a cap) s = .next (s.begin.freezeMe (Raise.of Cause.capTransfer) false none)) ∧
        (∀ r r', w < 2 ^ 63 → s.begin.umpire (w % 2 ^ 16) = some r → r.ctx = s.me.ctx → giveCap r c = some r' →
          exec (.capxfer a cap) s = .next ((s1.upd r.key fun y => (giveCap y c).getD y).complete s.begin.me .next)))) ∧
    (namesStrand s cap x →
      let s1 := s.begin.endSet x.key
      (s.begin.firmwareRoom s.me.key 1 = true → exec (.capdrop cap) s =
        .next ((((s1.setMe (freeCap cap.toNat)).receiveCap (s1.me.caps.getD cap.toNat 0)).unqueue s.me.key).complete s.begin.me .next)) ∧
      (s.begin.firmwareRoom s.me.key 1 = false → ∃ t, exec (.capdrop cap) s = .next t ∧ parkedAs s t)) ∧
    (s.me.level ≠ .user → (∀ i < 4, capValid (s.me.caps.getD i 0) = false) →
      exec .uexit s = .next (((s.begin.unqueue s.me.key).retireStrand s.begin.me).freeFrame s.begin.me) ∧
      (s.me.ump = none → ∃ t, exec .uexit s = .next t ∧ t.strand s.me.key = none) ∧
      ∀ u, s.me.ump = some u → s.me.key < s.uid →
        ∃ t, exec .uexit s = .next t ∧ t.strand s.me.key = none ∧
          ((s.pool (poolOf s.me.core)).pend = [] →
            (t.pool (poolOf s.me.core)).used = (s.pool (poolOf s.me.core)).used.filter fun i => !decide (umpidBase (poolOf s.me.core) + i = u.umpid)))

/-! ## The matrix pipe -/

/-- 09 R262-R265, R270, R271: MMAS, MZERO and MTAB that pass their checks take their place where the core's pipe of three has one and nobody
waits before the strand, which is what they do at issue: a step of the kind stands last in the pipe with the configuration and the registers of
the issue, and the strand waits on it, its A syllable held back till the step starts (log 34); while there is no place the
strand parks with nothing done; a failed check freezes it. 09 R265: MATRIX_OPERAND_STAGE completes for an operand that comes from registers,
or from an inbound queue with a whole vector, and is not forwarded: the step gets the next vector of eight words. 09 R259, R264, R266, R270:
MATRIX_STEP_START completes for a head that has its operands: the bundle's A syllable has acted, or acts now (here an idle one, which moves the
PC on), and the step is started with the result of its operands, scales, tables and
accumulator as they stand then, 1,024 zeros for MZERO. 09 R264, R268: MATRIX_STEP_RETIRE completes for a started head: its words stand at
their places of the subtile and nowhere else, its counts are added, and its strand goes on; one that consumed poison leaves no word, and
its strand freezes with UE_CONSUMED at the bundle, its registers as before it (log 34). -/
def Obligations.MatrixSteps : Prop :=
  (∀ (s : State) (qa qb : MSrc) (acc : BitVec 12) (t4 z g f fa fb : Bool), canIssue s →
      let c := s.me.core
      let free := (s.core c).pipe.length < 3 ∧ ∀ k, (waiters s.begin c).head? = some k → k = s.me.key
      (∀ x, mmasCause s.begin s.begin.me qa qb acc t4 g f = some x →
        exec (.mmas qa qb acc t4 z g f) s = .next (s.begin.freezeMe (Raise.of x) true none)) ∧
      (accBase s.me acc = none → exec (.mzero acc) s = .next (s.begin.freezeMe (Raise.of Cause.matrixAddress) true none)) ∧
      ((fa && !tableOk s.me.fmta || fb && !tableOk s.me.fmtb) = true →
        exec (.mtab fb fa) s = .next (s.begin.freezeMe (Raise.of Cause.tableAddress) true none)) ∧
      ∀ (i : Instr) (k : MKind),
        (i = .mmas qa qb acc t4 z g f ∧ k = .mmas ∧ mmasCause s.begin s.begin.me qa qb acc t4 g f = none) ∨
        (i = .mzero acc ∧ k = .mzero ∧ accBase s.me acc ≠ none) ∨
        (i = .mtab fb fa ∧ k = .mtab fb fa ∧ (fa && !tableOk s.me.fmta || fb && !tableOk s.me.fmtb) = false) →
        (free → ∃ t, exec i s = .next t ∧ t.me.pc = s.me.pc ∧ t.me.lcount = s.me.lcount ∧ t.me.park = .matrix s.uid ∧
          (∃ h ∈ t.undo, h.key = s.me.key ∧ h.asyl = .anop ∧ h.held = true) ∧
          (t.me.run = .parked ∨ t.me.run = .follower) ∧ (∀ r, t.me.g r = s.me.g r) ∧ (∀ r, t.me.vr r = s.me.vr r) ∧ t.mem = s.mem ∧
          ∃ m, (t.core c).pipe = (s.core c).pipe ++ [m] ∧ m.uid = s.uid ∧ m.key = s.me.key ∧ m.kind = k ∧ m.started = false ∧
            m.cfg = s.me.mxcfg ∧ m.opA = [] ∧ m.opB = [] ∧ (k = .mmas ∨ k = .mzero → m.base = lkey c ((accBase s.me acc).getD 0)) ∧
            (k = .mmas → m.qa = qa ∧ m.qb = qb ∧ m.c4 = t4 ∧ m.zero = z ∧ m.fwdB = g ∧ m.fwdA = f ∧
              m.regA = srcRegs s.me (mVecs s.me.mxcfg) qa ∧ m.regB = srcRegs s.me (mVecs s.me.mxcfg) qb)) ∧
        (¬free → ∃ t, exec i s = .next t ∧ parkedAs s t ∧ (t.core c).pipe = (s.core c).pipe)) ∧
  (∀ (s : State) (core : Nat) (m : MStep) (rest : List MStep), (s.core core).pipe = m :: rest →
      (∀ o, reenter s core = none → m.kind = .mmas → m.started = false → (∀ x ∈ rest, x.uid ≠ m.uid) → s.strand m.key = some o →
        let vector := fun (src : MSrc) (regs got ws : List Word) (bad : Option Word) =>
          (∃ g, src = .regs g ∧ ws = (regs.drop got.length).take 8 ∧ bad = none) ∨
          (∃ q, src = .que q ∧ popsEcho o q = false ∧ 8 ≤ (inWords o q).length ∧ ws = (inWords o q).take 8 ∧
            bad = (poisonedPop o q 8).map (·.addr))
        (∀ ws bad, m.fwdA = false → m.opA.length < mVecs m.cfg * 8 → vector m.qa m.regA m.opA ws bad →
          ∃ t, exec (.matrixOperandStage core) s = .next t ∧ t.mem = s.mem ∧
            (t.core core).pipe = { m with opA := m.opA ++ ws, poison := m.poison <|> bad } :: rest) ∧
        (∀ ws bad, m.fwdB = false → mVecs m.cfg * 8 ≤ m.opA.length → m.opB.length < mVecs m.cfg * 8 → vector m.qb m.regB m.opB ws bad →
          ∃ t, exec (.matrixOperandStage core) s = .next t ∧ t.mem = s.mem ∧
            (t.core core).pipe = { m with opB := m.opB ++ ws, poison := m.poison <|> bad } :: rest)) ∧
      (∀ o h, m.started = false → staged m = true → (m.kind = .mmas → stepPoison s core m = none) → s.uniqueKeys →
          s.strand m.key = some o → o.run = .parked → o.gang = none → o.pair = none →
          s.undo.find? (fun p => decide (p.key = m.key) && p.held) = some h → h.asyl = .anop →
        ∃ t y, exec (.matrixStepStart core) s = .next t ∧ t.mem = s.mem ∧ t.strand m.key = some y ∧ y.pc = (clauseEnd o o).pc ∧
          y.run = .parked ∧ y.park = o.park ∧ (∀ r, y.g r = o.g r) ∧ (∀ r, y.vr r = o.vr r) ∧
          (∃ m', (t.core core).pipe.head? = some m' ∧ m'.uid = m.uid ∧ m'.started = true) ∧ ∀ p ∈ t.undo, p.key = m.key → p.held = false) ∧
      (m.started = false → staged m = true → (∀ p ∈ s.undo, p.key = m.key → p.held = false) →
        ∃ t m', exec (.matrixStepStart core) s = .next t ∧ t.mem = s.mem ∧ t.strands = s.strands ∧ (t.core core).pipe.head? = some m' ∧
          m'.started = true ∧ m'.uid = m.uid ∧ m'.kind = m.kind ∧ m'.base = m.base ∧ m'.cfg = m.cfg ∧ m'.c4 = m.c4 ∧
          (m.kind = .mzero → m'.result = List.replicate 1024 0 ∧ m'.ovf = 0 ∧ m'.nan = 0 ∧ m'.poison = none) ∧
          (m.kind = .mmas →
            let image := fun (p : Word) (r : Option DecRam) =>
              (((if mFmt m.cfg = 0 then refresh s { onCore core with fmta := m.fmta, fmtb := m.fmtb } p r else r)).map (·.img)).getD []
            (m'.result, m'.ovf, m'.nan) = computeStep s core (image m.fmta (s.core core).ramA) (image m.fmtb (s.core core).ramB) m ∧
            m'.poison = stepPoison s core m)) ∧
      (∀ a o, m.started = true → m.poison = some a → s.strand m.key = some o → o.gang = none → o.pair = none → o.attached = false →
          s.gangsUnpaired →
        ∃ t y, exec (.matrixStepRetire core) s = .next t ∧ t.strand m.key = some y ∧ y.run = .frozen ∧ y.frz.cause = Cause.ueConsumed ∧
          y.frz.addr = a ∧
          let before := ((s.undo.find? fun p => decide (p.key = m.key)).map fun p => if p.held then o else p.before).getD o
          y.pc = before.pc ∧ (∀ r, y.g r = before.g r) ∧ ∀ r, y.vr r = before.vr r) ∧
      (m.started = true → m.poison = none → retirable s m = true → s.memWf →
          (∀ p ∈ s.undo, p.key ∈ stepMates s m.key → p.held = false) → (∀ x ∈ rest, x.uid ≠ m.uid) → (∃ x y, m.kind = .mtab x y) ∨ m.result.length = 1024 →
        ∃ t, exec (.matrixStepRetire core) s = .next t ∧ (t.core core).pipe = rest ∧
          ((∃ x y, m.kind = .mtab x y) → t.mem = s.mem) ∧
          (m.kind = .mmas ∨ m.kind = .mzero → sameMemOutside s t m.base 4096 ∧
            ∀ i < 32, ∀ j < 32, leNat (t.bytes (.mem (m.base + cOff i j)) 4) = (m.result.getD (32 * i + j) 0).toNat) ∧
          ∀ o, s.strand m.key = some o → o.park = .matrix m.uid → o.run = .parked → o.pair ≠ some m.key →
            ∃ y, t.strand m.key = some y ∧ y.run = .ready ∧ y.park = .none ∧ y.ev = ((o.count 2 m.ovf).count 7 m.nan).ev ∧
              (∀ r, y.g r = o.g r) ∧ (∀ r, y.vr r = o.vr r) ∧ y.pc = o.pc ∧
              (m.kind = .mmas → mAdv m.cfg = true → y.mxcfg.toNat % 2 ^ 48 = o.mxcfg.toNat % 2 ^ 48 ∧
                mKofs y.mxcfg = (mKofs m.cfg + mK m.cfg m.c4 / 16) % 2 ^ 16)) ∧
      (retirable s m = false → exec (.matrixStepRetire core) s = .next s))

/-! ## The homes and the cluster caches -/

/-- 02 R60: the table of requests and states at an object's home: what state each request leaves. A request that meets no partial changes no
byte of memory. 02 R57, R65, R66, R94, R95: merges fold what was collected into the home's values and evictions, write-backs and invalidations act on lines
alone: none of the latter changes the state of an object or a byte of memory. 02 R60, 07 R218, R222-R224: an atomic leaves an object that
holds no partials in state I; an update by the cluster that owns the object changes the memory values of its elements and nothing else;
declaring and freeing leave the granules and the object in state I. -/
def Obligations.ObjectStatesMergesAndEvictions : Prop :=
  (∀ (s : State) (cl pa : Nat) (req : ObjReq),
      let k := s.keyAt pa
      ∃ t, exec (.objectRequest cl pa req) s = .next t ∧
        t.coh k = (match req, s.coh k with
          | .loadOwn, .i => .s [cl]
          | .loadOwn, .s l => .s (insertCl cl l)
          | .loadOwn, .o c => if c = cl then .o c else .s (insertCl cl [c])
          | .loadSi, .o c => if c = cl then .o c else .s [c]
          | .storeOwn, _ => .o cl
          | .storeWt, .o c => if c = cl then .o c else .i
          | .storeWt, .s l => if l.contains cl then .s [cl] else .i
          | .storeWt, _ => .i
          | .storeNc, .o c => if c = cl then .o c else .i
          | .storeNc, _ => .i
          | .atomic, .u t h => .u t h
          | .atomic, _ => .i
          | .update tag, .u t h => if t = tag then .u t (insertCl cl h) else .u tag [cl]
          | .update tag, x => if x = .o cl then x else .u tag [cl]
          | _, x => x) ∧
        ((∀ x h, s.coh k ≠ .u x h) → t.mem = s.mem) ∧ t.others = s.others ∧ t.me = s.me) ∧
  (∀ (s : State) (cluster line pa : Nat),
      let k := s.keyAt pa
      (∀ tag hs, s.coh k = .u tag hs → hs.contains cluster = true →
        ∃ t, exec (.collectRequest pa cluster) s = .next t ∧ t.mem = s.mem ∧ t.coh k = s.coh k ∧
          t.homes.collected = s.homes.collected ++ s.homes.parts.filter (fun p => decide (p.key = k) && decide (p.cluster = cluster)) ∧
          ∀ p ∈ t.homes.parts, p.key = k → p.cluster = cluster → p.val = BitVec.ofNat 64 (uIdentity tag)) ∧
      (∀ tag hs, s.coh k = .u tag hs →
        ∃ t, exec (.mergeFold pa) s = .next t ∧ t.coh k = s.coh k ∧ (∀ p ∈ t.homes.collected, p.key ≠ k) ∧
          ∀ p, s.memWf → s.homes.collected.filter (fun p => decide (p.key = k)) = [p] →
            leNat (t.bytes (.mem p.pa) (uBytes tag)) =
              uNarrow tag (uCombine tag false (uWiden tag (s.loadNat (.mem p.pa) (uBytes tag))) p.val.toNat) % 256 ^ uBytes tag ∧
            sameMemOutside s t p.pa (uBytes tag)) ∧
      (∃ t, exec (.partialEviction cluster line) s = .next t ∧ t.mem = s.mem ∧ t.homes.coh = s.homes.coh ∧
        t.homes.parts.map (·.val) = s.homes.parts.map (·.val) ∧
        ∀ p ∈ t.homes.parts, p.cluster = cluster → p.pa / 64 = line → p.parked = true) ∧
      (∃ t, exec (.silentEviction cluster line) s = .next t ∧ t.mem = s.mem ∧ t.homes.coh = s.homes.coh ∧
        ∀ l, l ∈ t.homes.lines ↔ l ∈ s.homes.lines ∧ ¬(l.cluster = cluster ∧ l.line = line ∧ l.dirty = 0)) ∧
      (∃ t, exec (.ownedLineWriteBack cluster line) s = .next t ∧ t.mem = s.mem ∧ t.homes.coh = s.homes.coh ∧
        ∀ l, l ∈ t.homes.lines ↔ l ∈ s.homes.lines ∧ ¬(l.cluster = cluster ∧ l.line = line)) ∧
      (∃ t, exec (.invalidationReceive cluster line false) s = .next t ∧ t.mem = s.mem ∧ t.homes.coh = s.homes.coh ∧
        ∀ l, l ∈ t.homes.lines ↔ l ∈ s.homes.lines ∧ ¬(l.cluster = cluster ∧ l.line = line)) ∧
      (∃ t, exec (.invalidationReceive cluster line true) s = .next t ∧ t.mem = s.mem ∧ t.homes.coh = s.homes.coh ∧
        ∀ l ∈ t.homes.lines, l.cluster = cluster → l.line = line → l.dirty = 0)) ∧
  (∀ (s : State) (d a b v : R5) (k : K3) (w : Bool) (op : AmoOp) (tag : BitVec 4) (l : Loc) (rg : Region) (pa : Nat), canIssue s →
      let key := s.keyAt pa
      let cl := cacheOf s.me.core
      (check s.begin s.begin.me Acc.atomic (wBytes w) 0 (s.me.g a) = .ok (.mem pa) .plain (some pa) →
        let e : El := { lane := 0, va := s.me.g a, loc := .mem pa, rg := .plain, pa := some pa }
        s.begin.away e = false → s.begin.linePosted e.loc = false → s.begin.partiesHeld e .atomic = false → noneOutstanding s →
        (s.rqueue pa).q = [] → s.heldBy s.me.key < 4 → (∀ x h, s.coh key ≠ .u x h) → s.poisonIn (.mem pa) (wBytes w) = none →
        ∀ i ∈ [Instr.amo d a b w op, .acas d a b w],
          ∃ t, exec i s = .next t ∧ completedWith s t d (BitVec.ofNat 64 (leNat (s.bytes (.mem pa) (wBytes w)))) ∧ t.coh key = .i) ∧
      (tag ≠ 15 → uLocked s.begin tag pa = false → s.begin.linePosted (.mem pa) = false → s.coh key = .o cl → s.memWf →
        let z := uBytes tag
        (check s.begin s.begin.me Acc.update z 0 (s.me.g a) = .ok l rg (some pa) →
          ∃ t, exec (.ured a b tag) s = .next t ∧ completedAs s t ∧ t.coh key = .o cl ∧ sameMemOutside s t pa z ∧
            leNat (t.bytes (.mem pa) z) = uNarrow tag (uCombine tag true (uWiden tag (leNat (s.bytes (.mem pa) z)))
              (uWiden tag ((s.me.g b).toNat % 2 ^ (8 * z)))) % 256 ^ z) ∧
        (check s.begin s.begin.me Acc.update 64 0 (s.me.g a) = .ok l rg (some pa) →
          ∃ t, exec (.uredv a v k tag) s = .next t ∧ completedAs s t ∧ t.coh key = .o cl ∧
            (pa % 64 = 0 → sameMemOutside s t pa 64 ∧
              ∀ j < 64 / z, leNat (t.bytes (.mem (pa + j * z)) z) =
                if s.me.active k j then uNarrow tag (uCombine tag true (uWiden tag (leNat (s.bytes (.mem (pa + j * z)) z)))
                  (uWiden tag (laneOf (8 * z) (s.me.vr v) j))) % 256 ^ z
                else leNat (s.bytes (.mem (pa + j * z)) z)))) ∧
      (∀ o, s.homes.objs.find? (fun x => decide (x.id = (s.me.g a).toNat / 256) && decide (x.ctx = s.me.ctx)) = some o →
        (s.me.g a).toNat % 256 = 0 → s.begin.objectOpen s.me.core o.granules = true → ∃ t, exec (.ofree a) s = .next t ∧ completedAs s t ∧ t.coh (.obj o.id) = .i) ∧
      (∀ p gs, s.me.g a = ownLocal p → p % 16 = 0 →
        let h := leNat (s.bytes (.mem (lkey s.me.core p)) 16)
        let dims := (List.range (headRank h)).map fun i => leNat (s.bytes (.mem (lkey s.me.core (p + 16 + 16 * i))) 16)
        1 ≤ headRank h → headRank h ≤ 4 → cleanLocal s p (16 + 16 * headRank h) →
        shapeGranules s.begin s.me.ctx (shapeOf h dims) = some gs → (s.objIds (homeSlice (gs.headD 0 * 256))).length < 4096 →
        (∀ g ∈ gs, ∀ o ∈ s.homes.objs, g ∉ o.granules) → s.begin.objectOpen s.me.core gs = true →
        ∃ t, exec (.odecl d a false w tag) s = .next t ∧ t.me.pc = (ends s id).me.pc ∧
          (∀ g ∈ gs, t.coh (.gran g) = .i) ∧ ∃ o ∈ t.homes.objs, o.granules = gs ∧ o.ctx = s.me.ctx))

/-- 02 R75, R81, R85, R86: publication moves the latest version and sends every subscriber its notice; racking and floating move a version between
HBM4 and tile frames. An event that finds nothing to do leaves the machine as it is. -/
def Obligations.VersionsArePublishedAndMoved : Prop :=
  ∀ (s : State) (u : Nat) (v : Ver), s.ver u = some v →
    let n := s.nameRec v.space v.name
    (v.st = .completed → v.num = n.latest + 1 → v.doomed = false → s.pubOpen v.space v.name = true →
      ∃ t, exec (.versionPublish u) s = .next t ∧ (t.nameRec v.space v.name).latest = v.num ∧
        ∀ x ∈ n.subs, .arrivalNotice x.1 (BitVec.ofNat 64 (v.name * 2 ^ 32 + v.num)) ∈ t.agenda) ∧
    (v.st ≠ .completed ∨ v.num ≠ n.latest + 1 ∨ v.doomed = true ∨ s.pubOpen v.space v.name = false → exec (.versionPublish u) s = .next s) ∧
    (∀ fs, rackDue s v = true → s.takeRack (s.verDie v) v.cls = some fs →
      ∃ t, exec (.rackStart u) s = .next t ∧ t.ver u = some { v with st := .racking, hbm := fs } ∧ t.mem = s.mem ∧ .rackComplete u ∈ t.agenda) ∧
    (rackDue s v = false → exec (.rackStart u) s = .next s) ∧
    (v.st = .racking → ∃ t, exec (.rackComplete u) s = .next t ∧ t.ver u = some { v with st := .racked, frames := [] } ∧ t.mem = s.mem) ∧
    (v.st ≠ .racking → exec (.rackComplete u) s = .next s) ∧
    (∀ fs s1, v.st = .floating → s.takeTile (s.nameSlice v.space v.name) v.cls = some (fs, s1) →
      ∃ t, exec (.floatComplete u) s = .next t ∧ t.ver u = some { v with st := .afloat, frames := fs, hbm := [], used := s.tick } ∧ t.mem = s.mem) ∧
    (v.st ≠ .floating → exec (.floatComplete u) s = .next s)

/-! ## Strands, without an instruction of theirs -/

/-- 01 R26, R27, R30, R33, 10 R290, R292, R294: words and messages enter the queue they are sent to or, where no strand belongs there, are counted as
lost, and wait while the way there is held; an arrival notice that q8 cannot take is discarded, with ovf set and q8's lost count one more; a notice is entered at the vector with the
PC saved and the shadow exchanged, by a gang with the bundle at the vector. -/
def Obligations.WordsNoticesAndMessagesArrive : Prop :=
  ∀ (s : State) (key : Nat) (o : Strand) (q : Q4) (x : Word), s.strand key = some o → s.uniqueKeys →
    (∀ w r, q.toNat < 4 → o.qout.getD q.toNat [] = w :: r →
      (((facing o.core q.toNat).bind fun c => s.slotStrand (c * 8 + slotOf o.sid) o.ctx) = none →
        ∃ t y, exec (.meshWordArrival key q) s = .next t ∧ t.strand key = some y ∧ y.qout.getD q.toNat [] = r ∧
          t.agenda = s.agenda ++ [.dropNotice key q]) ∧
      ∀ f, ((facing o.core q.toNat).bind fun c => s.slotStrand (c * 8 + slotOf o.sid) o.ctx) = some f → f.key ≠ key →
        defersInbox f = false → f.inbox = [] →
        (s.meshOpen o.core f.core = false → exec (.meshWordArrival key q) s = .next s) ∧
        (s.meshOpen o.core f.core = true → (f.qin.getD (oppositeQ q.toNat) []).length < 16 →
          ∃ t y z, exec (.meshWordArrival key q) s = .next t ∧ t.strand key = some y ∧ y.qout.getD q.toNat [] = r ∧
            t.strand f.key = some z ∧ z.qin.getD (oppositeQ q.toNat) [] = f.qin.getD (oppositeQ q.toNat) [] ++ [w]) ∧
        (16 ≤ (f.qin.getD (oppositeQ q.toNat) []).length → exec (.meshWordArrival key q) s = .next s)) ∧
    (∀ d w r, o.q6 = (d, w) :: r → d.getLsbD 15 = false →
      (s.slotStrand (d.toNat % 2 ^ 15) o.ctx = none →
        ∃ t y, exec (.messageDelivery key) s = .next t ∧ t.strand key = some y ∧ y.q6 = r ∧ t.agenda = s.agenda ++ [.dropNotice key 6]) ∧
      ∀ f, s.slotStrand (d.toNat % 2 ^ 15) o.ctx = some f → f.key ≠ key → defersInbox f = false → f.inbox = [] →
        (s.meshOpen o.core f.core = true → f.q7.length < 32 → ∃ t y z, exec (.messageDelivery key) s = .next t ∧ t.strand key = some y ∧ y.q6 = r ∧
          t.strand f.key = some z ∧ z.q7 = f.q7 ++ [w]) ∧
        (32 ≤ f.q7.length → exec (.messageDelivery key) s = .next s)) ∧
    (∃ t y, exec (.dropNotice key q) s = .next t ∧ t.strand key = some y ∧
      (y.lost.getD q.toNat 0).toNat = min 0xFFFF ((o.lost.getD q.toNat 0).toNat + 1)) ∧
    (defersInbox o = false → o.inbox = [] → noticeOpen s key x = true → (∀ p ∈ s.homes.notices, p.1 ≠ key) →
      ∃ t y, exec (.arrivalNotice key x) s = .next t ∧ t.strand key = some y ∧
        (o.q8.length < 16 → y.q8 = o.q8 ++ [x] ∧ y.ovf = o.ovf) ∧ (16 ≤ o.q8.length → y.q8 = o.q8 ∧ y.ovf = true ∧
          (y.lost.getD 8 0).toNat = min 0xFFFF ((o.lost.getD 8 0).toNat + 1))) ∧
    (noticeDue o = true → o.inbox = [] → o.pair = none →
      ∃ t y, exec (.noticeEntry key) s = .next t ∧ t.strand key = some y ∧ y.pc = o.nhvec ∧ y.nepc = o.pc ∧ y.nhbusy = true ∧
        y.susp = o.armed ∧ y.nhsrc = BitVec.ofNat 3 (lowBit (enabledSources o)) ∧
        (∀ i : Fin 8, y.lo.getD (8 + i.val) 0 = o.h.getD i.val 0 ∧ y.h.getD i.val 0 = o.lo.getD (8 + i.val) 0 ∧
          y.lo.getD i.val 0 = o.lo.getD i.val 0)) ∧
    (noticeDue o = false → exec (.noticeEntry key) s = .next s) ∧
    (∀ g, s.gangOf o = some g → g.members.Nodup →
      (gangNoticeDue s o = true → exec (.gangNoticeEntry key) s = .next (issueGangFrom (some o.nhvec) g (s.focus key))) ∧
      (∀ k ∈ g.members, ∀ m, s.strand k = some m → ∃ y, (enterGang (some o.nhvec) g s).strand k = some y ∧
        y.pc = o.nhvec ∧ y.nepc = m.pc ∧ y.nhbusy = true ∧ y.nhsrc = 4) ∧
      (gangNoticeDue s o = false → exec (.gangNoticeEntry key) s = .next s))

/-- 03 R108, R109, 07 R199, R212, R217, R219, 10 R300, R303: an answer that reaches a strand parked on it lets its bundle try again at its next
turn, and leaves any other strand alone; counters, rounds, reservations, frames and steal rounds move as their rules say. 09 R264-R268: a
bundle of the matrix pipe that finds a place has its step there and leaves its strand before it, waiting for the step; the step's start leaves
the strand so, and its retirement ends the wait (here with the A syllable behind it). -/
def Obligations.AnswersReachParkedStrands : Prop :=
  (∀ (s : State) (key : Nat) (o : Strand), s.strand key = some o → s.uniqueKeys →
    let again := fun (x : State) => x.upd key fun y =>
      if y.run = .parked ∧ y.park.retries = true then { y with turn := min y.turn (alignTurn y.sid (s.tick + 1)) } else y
    exec (.homeAnswer key) s = .next (again s) ∧ exec (.enqueueResend key) s = .next (again s) ∧
    exec (.remoteAccessComplete key) s = .next (again (s.upd key fun x => { x with acks := x.acks - 1 })) ∧
    (∀ addr x r, (s.rqueue addr).q = x :: r → x.key = key →
      (handDue s (s.rqueue addr) = none → exec (.reservationHandoff addr) s = .next s) ∧
      (handDue s (s.rqueue addr) = some x →
        let s1 := if paExists addr then s.request (cacheOf o.core) addr .atomic else s
        let w := BitVec.ofNat 64 (s1.loadNat (.mem addr) (wBytes x.w32))
        ∃ t, exec (.reservationHandoff addr) s = .next t ∧ (t.rqueue addr).q = { x with word := some w } :: r ∧ t.mem = s1.mem ∧
          t.me = (again s).me ∧ t.others = (again s).others)) ∧
    (∀ w, o.query = some w → w.answered = false → queryHolds s o w.dieOnly = true →
      exec (.releaseQueryAnswer key) s = .next (again ((s.freeRound key o.round).upd key fun x =>
        { x with query := some { w with answered := true }, counts := [], round := x.round + 1 }))) ∧
    (o.query = none → exec (.releaseQueryAnswer key) s = .next s) ∧
    (∀ target r, s.homes.resend.find? (fun r => decide (r.1 = key) && decide (r.2.1 = target)) = some r →
      (∀ s1, s.arrive target key r.2.2 = some s1 →
        exec (.countedMessageResend key target) s = .next (s1.setHomes fun h => { h with resend := h.resend.erase r })) ∧
      (s.arrive target key r.2.2 = none → exec (.countedMessageResend key target) s = .next s)) ∧
    (∀ u c (idx inc : BitVec 8), s.crew u = some c →
      ∃ t d, exec (.sequenceCounterIncrement (.crew u) idx inc) s = .next t ∧ t.crew u = some d ∧ t.mem = s.mem ∧
        ∀ i : BitVec 8, d.sq.getD i.toNat 0 = c.sq.getD i.toNat 0 + (if i = idx then inc.zeroExtend 64 else 0)) ∧
    (∀ u c (idx inc : BitVec 8), s.launch u = some c →
      ∃ t d, exec (.sequenceCounterIncrement (.launch u) idx inc) s = .next t ∧ t.launch u = some d ∧ t.mem = s.mem ∧
        ∀ i : BitVec 8, d.sq.getD i.toNat 0 = c.sq.getD i.toNat 0 + (if i = idx then inc.zeroExtend 64 else 0)) ∧
    (∀ u w, s.homes.wframes.find? (fun w => decide (w.uid = u)) = some w → ∀ i ∈ [Instr.taskDispatch u, .dispatchRetry u],
      let s1 := s.floatConds w.conds
      (w.fired = false → w.conds.all (condHolds s) = false → exec i s = .next s) ∧
      (∀ y s2, w.fired = true → frameTarget s1 w = some y → s1.pushFrame y w.frame w.launch = some s2 →
        exec i s = .next (s2.setHomes fun h => { h with wframes := h.wframes.filter fun x => !decide (x.uid = u) })) ∧
      (∀ y, w.fired = true → frameTarget s1 w = some y → s1.pushFrame y w.frame w.launch = none →
        ∃ t x, exec i s = .next t ∧ t.homes.wframes.find? (fun w => decide (w.uid = u)) = some x ∧ x.frame = w.frame ∧ x.fired = true ∧
          x.retry = s.tick + 256 ∧ t.mem = s.mem)) ∧
    (o.run = .parked → o.park = .steal → o.out = false → o.pair = none →
      (∀ k m f s1, dequeOf o = some (k, m) → (s.focus key).popPoison k m = none → (s.focus key).popFrame k m = (some f, s1) →
        exec (.stealRound key) s = .next (resumeFrame f s1)) ∧
      (dequeOf o = none → (s.focus key).stealAny (o.launch.getD 0) = none →
        ∃ t, exec (.stealRound key) s = .next t ∧ t.me.key = key ∧ t.me.run = .parked ∧ t.me.park = .steal ∧ t.mem = s.mem)) ∧
    (o.park ≠ .steal → exec (.stealRound key) s = .next s) ∧
    (∀ core m rest, (s.core core).pipe = m :: rest → m.key = key → o.run = .parked → o.park = .matrix m.uid →
      (∀ g, reenter s core = none → m.kind = .mmas → m.started = false → m.qa = .regs g → m.fwdA = false →
          m.opA.length < mVecs m.cfg * 8 →
        ∃ t, exec (.matrixOperandStage core) s = .next t ∧ t.strand key = some o ∧ t.mem = s.mem ∧
          ∃ n, (t.core core).pipe.head? = some n ∧ n.uid = m.uid ∧ n.opA = m.opA ++ (m.regA.drop m.opA.length).take 8) ∧
      (m.started = false → staged m = true → (∀ p ∈ s.undo, p.key = key → p.held = false) →
        ∃ t, exec (.matrixStepStart core) s = .next t ∧ t.strand key = some o ∧ t.mem = s.mem ∧
          ∃ n, (t.core core).pipe.head? = some n ∧ n.uid = m.uid ∧ n.started = true) ∧
      (m.started = true → m.poison = none → retirable s m = true → (∀ p ∈ s.undo, p.key ∈ stepMates s key → p.held = false) →
          (∀ x ∈ rest, x.uid ≠ m.uid) →
        ∃ t y, exec (.matrixStepRetire core) s = .next t ∧ t.strand key = some y ∧ y.run = .ready ∧ y.park = .none ∧ s.tick < y.turn ∧
          y.turn ≤ s.tick + 8 ∧ (t.core core).pipe = rest))) ∧
  ∀ (s : State) (qa qb : MSrc) (acc : BitVec 12) (t4 z g f fa fb : Bool), canIssue s → (s.core s.me.core).pipe.length < 3 →
    waiters s.begin s.me.core = [] →
    ∀ i : Instr, (i = .mmas qa qb acc t4 z g f ∧ mmasCause s.begin s.begin.me qa qb acc t4 g f = none) ∨
        (i = .mzero acc ∧ accBase s.me acc ≠ none) ∨ (i = .mtab fb fa ∧ (fa && !tableOk s.me.fmta || fb && !tableOk s.me.fmtb) = false) →
      ∃ t, exec i s = .next t ∧ t.me.pc = s.me.pc ∧ t.me.park = .matrix s.uid ∧ (∀ r, t.me.g r = s.me.g r) ∧ t.mem = s.mem ∧
        ∃ m ∈ (t.core s.me.core).pipe, m.uid = s.uid ∧ m.key = s.me.key ∧ m.started = false

/-- 01 R23, R24, R40, R42, R43, 05 R146, 06 R188, 11 R317-R319: window groups move between the file and the stack, gangs form and commit, a
fetch line goes, decode failures freeze, and a frozen strand gets its umpire at the vector of its cause with the cause and the capability. -/
def Obligations.WindowsFetchLinesGangsAndUmpires : Prop :=
  ∀ (s : State) (key core : Nat) (o : Strand), s.strand key = some o → s.uniqueKeys →
    (∀ off g, canSpill o = true → groupAt o.wsp = some off → o.older.getLast? = some g → o.pair = none → s.memWf →
      ∃ t y, exec (.windowSpill key) s = .next t ∧ t.strand key = some y ∧ y.wsp = o.wsp + 64 ∧ y.older = o.older.dropLast ∧
        y.spilled = o.spilled + 1 ∧ (∀ i < 8, t.word (lkey o.core (off + 8 * i)) = g.getD i 0) ∧ sameMemOutside s t (lkey o.core off) 64) ∧
    (canSpill o = true → groupAt o.wsp = none →
      ∃ t y, exec (.windowSpill key) s = .next t ∧ t.strand key = some y ∧ y.winFault = true ∧ y.older = o.older ∧ t.mem = s.mem) ∧
    (∀ off, canRefill o = true → groupAt (o.wsp - 64) = some off → o.pair = none → s.framePoison true (lkey o.core off) = none →
      ∃ t y, exec (.windowRefill key) s = .next t ∧ t.strand key = some y ∧ y.wsp = o.wsp - 64 ∧
        y.older = o.older ++ [frameAt s (lkey o.core off)] ∧ y.spilled = o.spilled - 1 ∧ t.mem = s.mem) ∧
    (canRefill o = true → groupAt (o.wsp - 64) = none →
      ∃ t y, exec (.windowRefill key) s = .next t ∧ t.strand key = some y ∧ y.winFault = true ∧ y.older = o.older ∧ t.mem = s.mem) ∧
    (∃ t, exec (.fetchLineRefill core) s = .next t ∧ (t.core core).line = none ∧ t.strands = s.strands ∧ t.mem = s.mem) ∧
    (∀ (c : Cause) (b : Bool), s.me.run ≠ .empty → s.me.gang = none → s.me.attached = false → s.gangsUnpaired →
      ∃ t, exec (.illegalOpcode c b) s = .next t ∧ t.me.run = .frozen ∧ t.me.frz.cause = c ∧ t.me.frz.bsyl = b ∧ t.me.pc = s.me.pc) ∧
    (∀ g, s.gangOf o = some g →
      (let r := ((g.members.drop 1).zipIdx 1).foldl (fun (x : State) p => match x.strand p.1 with
        | some m => if m.run = .parked ∧ m.gangReq.isSome = true then issueOne { x.focus p.1 with tick := s.tick + p.2 } else x
        | none => x) s
       exec (.gangForm key) s = .next { r with tick := s.tick }) ∧
      (g.members.head? = some key → exec (.gangCommit key) s = .next (issueGang g (s.focus key)))) ∧
    (∀ x, o.isFrozen = true → o.attached = false → o.level = .user → o.ump = none → s.ctxOf o.ctx = some x →
      let vec := x.umpvec.getD (o.frz.cause.toNat / 16) 0
      vec ≠ 0 → vec.toNat % 8 = 0 → (s.pool (poolOf o.core)).used.length < 32 →
        ∃ t u, exec (.umpireSpawn key) s = .next t ∧ u ∈ t.others ∧ u.key = s.uid ∧ u.level = .umpire ∧ u.ctx = o.ctx ∧
          u.sid = o.core * 8 + 7 ∧ u.run = .ready ∧ u.pc = vec ∧ u.lo.getD 1 0 = o.frz.cause.zeroExtend 64 ∧
          u.caps.getD 0 0 = capFor o o.heldSet.isSome) ∧
    (∀ x, o.isFrozen = true → o.attached = false → o.level = .user → o.ump = none → s.ctxOf o.ctx = some x →
      let vec := x.umpvec.getD (o.frz.cause.toNat / 16) 0
      vec = 0 ∨ vec.toNat % 8 ≠ 0 → exec (.umpireSpawn key) s = .next ((s.markGs o).escalate o 1)) ∧
    (o.run = .frozenPending → (s.pool (poolOf o.core)).pend.contains key = true →
      exec (.umpirePoolTimeout key) s = .next (((s.setPool (poolOf o.core) fun p => { p with pend := p.pend.erase key }).upd key fun x =>
        { x with run := if x.run = .frozenPending then .frozen else x.run }).escalate { o with run := .frozen } 2)) ∧
    ((s.pool (poolOf o.core)).pend.contains key = false → exec (.umpirePoolTimeout key) s = .next s)

/-! ## Engines -/

/-- 09 R275-R287, 02 R82, 17 R451: an engine takes its next ready command; each operation ends with its status, its group told; a copy is
resolved, reads its source and owns its destination once nothing keeps it from them, and goes to the
engines of its destination pages piece by piece; a completion applies the signal on success, delivers the word where one is due and only then
drops the command's references; what cannot go on waits. -/
def Obligations.EnginesRunCommands : Prop :=
  ∀ (s : State) (u : Nat) (c : Cmd), s.cmd u = some c →
    let w := c.word.toNat
    let ends := fun (i : Instr) (x : State) (status : Nat) => exec i s = .next (x.finishAll c status 0)
    let fails := fun (i : Instr) (status : Nat) (ue : Option (Nat × Nat)) => exec i s = .next (s.failCmd c status ue)
    let goes := fun (i : Instr) (r : OpOut) => match r with
      | .wait => exec i s = .next s
      | .on x => exec i s = .next x
      | .ends x e => ends i x e
      | .fails e ue => fails i e ue
    ((nextCmd s c.engine).map (·.uid) = some u →
      ∃ t, exec (.commandStart u) s = .next t ∧ t.cmd u = some { c with st := .started } ∧ t.agenda = s.agenda ++ [opEvent (cOp w) u] ∧ t.mem = s.mem) ∧
    ((nextCmd s c.engine).map (·.uid) ≠ some u → exec (.commandStart u) s = .next s) ∧
    (c.st = .held → c.holdEnd ≤ s.tick →
      ∃ t, exec (.combiningHoldExpiry u) s = .next t ∧ t.cmd u = some { c with st := .accepted } ∧ t.mem = s.mem) ∧
    (c.st ≠ .held ∨ s.tick < c.holdEnd → exec (.combiningHoldExpiry u) s = .next s) ∧
    (c.st = .finished → c.told = false → (c.signalled = true ∨ signalDue s c = true) →
      let s0 := s.updCmd u fun c => { c with signalled := true }
      let s1 := if c.signalled = true then s else match c.file with
        | some f => if cSv w = true ∧ c.status.toNat ≤ 1 then s0.seqAdd f (cSsq w) (cSinc w) else s0
        | none => s0
      let close := fun (x : State) => ((c.refs.foldl State.unref x).updCmd u fun c => { c with refs := [], told := true }).sweepCmds
      (c.status = 0 → cCw w = false → exec (.commandComplete u) s = .next (close s1)) ∧
      (c.status ≠ 0 ∨ cCw w = true →
        exec (.commandComplete u) s = .next (let p := s1.deliver c.key 5 (completionWord c) 0
          if wordOpen s1 c c.key = true ∧ p.1 = true then close p.2 else s1))) ∧
    (c.st ≠ .finished ∨ c.told = true ∨ (c.signalled = false ∧ signalDue s c = false) → exec (.commandComplete u) s = .next s) ∧
    (c.st = .started →
      (∀ a b src dst s1 s2, readShape s c (cShapeA w) = .ok (a, s1) → readShape s1 c (cShapeB w) = .ok (b, s2) →
        (a.fmt = b.fmt → a.count = b.count → placeShape s2 c false a = .ok src → placeShape s2 c true b = .ok dst →
          goes (.tcopy u) (copyTo s2 c src dst)) ∧
        (a.fmt ≠ b.fmt ∨ a.count ≠ b.count → fails (.tcopy u) 3 none)) ∧
      (∀ b dst s1, readShape s c (cShapeA w) = .ok (b, s1) → placeShape s1 c true b = .ok dst →
        goes (.tfill u) (copyTo s1 c ([], none) dst)) ∧
      (∀ e ue, readShape s c (cShapeA w) = .bad e ue → fails (.tcopy u) e ue ∧ fails (.tfill u) e ue ∧ fails (.tfetch u) e ue) ∧
      (readShape s c (cShapeA w) = .wait → exec (.tcopy u) s = .next s ∧ exec (.tfill u) s = .next s ∧ exec (.tfetch u) s = .next s) ∧
      (∀ v, (s.versOf (s.spaceOf c.ctx (cName w)) (cName w)).find? (fun v => decide (v.num = cVer w) && decide (v.st = .drafted)) = some v →
        s.ver v.uid = some v → w.testBit 240 = false → v.count = none →
        ∃ t x, exec (.tpost u) s = .next t ∧ t.ver v.uid = some x ∧ x.contrib = v.contrib + 1 ∧ x.st = .drafted ∧ t.mem = s.mem) ∧
      ((s.versOf (s.spaceOf c.ctx (cName w)) (cName w)).find? (fun v => decide (v.num = cVer w) && decide (v.st = .drafted)) = none →
        ends (.tpost u) s 6) ∧
      (s.slotStrand (w / 2 ^ 132 % 2 ^ 12 * 8 + w / 2 ^ 129 % 2 ^ 3) c.ctx = none → ends (.tnote u) s 0x0B) ∧
      (∀ o, s.slotStrand (w / 2 ^ 132 % 2 ^ 12 * 8 + w / 2 ^ 129 % 2 ^ 3) c.ctx = some o → w.testBit 240 = false →
        let p := s.deliver o.key 7 (BitVec.ofNat 64 (w / 2 ^ 64 % 2 ^ 64)) 0
        exec (.tnote u) s = .next (if wordOpen s c o.key = true ∧ p.1 = true then p.2.finishAll c 0 0 else s)) ∧
      (∀ i ∈ [Instr.tfloat u, .track u], movedVer s c = none → ends i s 6) ∧
      (∀ v, movedVer s c = some v → s.ver v.uid = some v →
        let s1 := s.updCmd u fun c => { c with st := .running, pos := v.uid }
        let c1 := { c with st := .running, pos := v.uid }
        let s2 := s1.updCmd u fun c => { c with pieces := [] }
        earlierMove s1 c1 = false →
          (cOp w = 7 → v.st = .afloat → exec (.tfloat u) s = .next (s2.finishAll c1 0 0)) ∧
          (cOp w = 8 → v.st = .racked → exec (.track u) s = .next (s2.finishAll c1 0 0))) ∧
      (∀ a s1 src, readShape s c (cShapeA w) = .ok (a, s1) → placeShape s1 c false a = .ok src →
        ∃ t d, exec (.tfetch u) s = .next t ∧ t.cmd u = some d ∧ d.src = cut 64 (a.count * a.elBytes / 64) src.1.flatten ∧ d.panel = c.panel ∧
          d.due = c.due ∧ (fetchFits s (a.count * a.elBytes) c = true → (groupOf s c).length = 1 → d.st = .running)) ∧
      ((collRanks s (rGroup c)).contains (ownRank s c.ctx) = false → fails (.treduce u) 0x0B none)) ∧
    (c.st = .resolved → ∀ i ∈ [Instr.tcopy u, .tfill u],
      let s1 := s.engineTakes c c.src c.dst
      (c.dst.flatten.any (draftGone s) = true → fails i 6 none) ∧
      (c.dst.flatten.any (draftGone s) = false →
        (resolvedWaits s c = true → exec i s = .next s) ∧
        (resolvedWaits s c = false → (∃ l ∈ c.src, l.any s.poisonedAt = true) → fails i 8 none) ∧
        (resolvedWaits s c = false → (∀ l ∈ c.src, l.any s.poisonedAt = false) →
          exec i s = .next (s1.updCmd u fun d => { d with
            st := .running, pieces := piecesOf s c c.dst.flatten (copyVals s1 c).flatten, owned := granulesOf c.dst.flatten, src := [], dst := [] })))) ∧
    (c.st = .running →
      (∀ i ∈ [Instr.tcopy u, .tfill u],
        (c.pieces = [] → ends i s 0) ∧
        ((∃ p ∈ c.pieces, p.dst.any (draftGone s) = true) → fails i 6 none) ∧
        ((∀ p ∈ c.pieces, p.dst.any (draftGone s) = false) →
          (∀ ps, placeFirst s c.pieces = some ps → ∃ t, exec i s = .next t ∧ t.cmd u = some { c with pieces := ps } ∧ t.mem = s.mem) ∧
          (∀ p, placeFirst s c.pieces = none → c.pieces.find? (pieceDue s) = some p →
            exec i s = .next ((((s.scatter p.dst p.vals).clearWhole p.dst).freshCopies c.engine p.dst).updCmd u fun d => { d with pieces := c.pieces.erase p })) ∧
          (c.pieces ≠ [] → placeFirst s c.pieces = none → c.pieces.find? (pieceDue s) = none → exec i s = .next s))) ∧
      (canRead s c = true → ∃ t d ls, exec (.tfetch u) s = .next t ∧ t.cmd u = some d ∧ c.src = ls :: d.src ∧
        d.panel.length = c.panel.length + 1 ∧ d.pins = c.pins ++ [vectorPins s ls] ∧ d.pos = c.pos) ∧
      (∀ r l o q ws, canRead s c = false → crewReps s c = r :: l → r.st ≠ .finished → fetchStep s c r = .put o q ws →
        exec (.tfetch u) s = .next ((s.upd o.key (enterVector q ws)).updCmd r.uid fun d =>
          { d with pos := d.pos + 1, due := d.due ++ [(o.key, o.popped.getD q 0 + inCount o q + ws.length)] })) ∧
      (c.panel.length ≤ c.pos → exec (.treduce u) s = .next (s.finishAll c (if c.aux = 0 then 0 else 1) c.aux)) ∧
      (c.pos < c.panel.length → c.dst.flatten.any (draftGone s) = true → fails (.treduce u) 6 none) ∧
      (c.pos < c.panel.length → c.dst.flatten.any (draftGone s) = false →
        (reach s (otherRanks s c) = .up → chunkWaits s c = false →
          ∃ t, exec (.treduce u) s = .next t ∧ t.agenda = s.agenda ++ [.collectiveChunkFold u c.pos] ∧ t.cmds = s.cmds) ∧
        (reach s (otherRanks s c) = .up → chunkWaits s c = true → exec (.treduce u) s = .next s) ∧
        (reach s (otherRanks s c) = .down → fails (.treduce u) 9 none)) ∧
      (cOp w = 4 → c.pos < c.panel.length →
        ∃ t d, exec (.collectiveChunkFold u c.pos) s = .next t ∧ t.cmd u = some d ∧ d.pos = c.pos + 1 ∧ d.st = .running ∧
          d.dst = c.dst.drop (4096 / uBytes (rTag c))))

/-! ## The dispatcher -/

/-- 12 R346-R352, R358, R363-R371, 01 R19, R47, 10 R314: records are accepted from their rings, age, wait, are placed or stay, reserve a rectangle and
end; strands are swapped out, those that yielded only for somebody who wants the slot, and come back; a core's local memory is zeroed or written back
between contexts; the stroke slot is lent and reclaimed. Log 34 has the cycles of a move. -/
def Obligations.DispatcherSwapsAndLending : Prop :=
  ∀ (s : State) (u core : Nat),
    (∀ c q x y base m, s.ctxOf c = some x → s.queueOf c q = some y → y.ring = some (base, m) → sealDue s x y = true →
      let r0 := recordOf (s.bytes (.mem (ringSlot base m y.cons)) 128)
      let r := r0.setIfInBounds 15 (BitVec.ofNat 64 (r0.getD 15 0).toNat &&& 0x00FFFFFFFFFFFFFF)
      let seen := r0.setIfInBounds 15 (BitVec.ofNat 64 (r0.getD 15 0).toNat &&& 0x7EFFFFFFFFFFFFFF)
      refuseReason ((s.advanceRing c y base).noteWalks c seen) c (some q) seen = none →
        ∃ t l z, exec (.launchRecordSeal c q) s = .next t ∧ t.sched.launches = s.sched.launches ++ [l] ∧ l.rcd = r ∧ l.ctx = c ∧
          l.st = .accepted ∧ l.accepted = s.tick ∧ t.queueOf c q = some z ∧ z.cons = y.cons + 1) ∧
    (∀ c q x y, s.ctxOf c = some x → s.queueOf c q = some y → sealDue s x y = false → exec (.launchRecordSeal c q) s = .next s) ∧
    (∀ l, s.launch u = some l → l.st = .accepted →
      (∃ t, exec (.classAgeing u) s = .next t ∧ t.launch u = some { l with effClass := agedClass s l } ∧ t.mem = s.mem) ∧
      (l.waitHeld = false → (l.met = true ∨ launchWait s l = true) →
        ∃ t, exec (.launchWaitHolds u) s = .next t ∧ t.launch u = some { l with waitHeld := true, ready := some s.tick } ∧ t.mem = s.mem) ∧
      (l.waitHeld = true ∨ (l.met = false ∧ launchWait s l = false) → exec (.launchWaitHolds u) s = .next s)) ∧
    (∀ l, s.launch u = some l → rClass l.rcd < 7 → agedClass s l = min 6 (rClass l.rcd + (s.tick - l.accepted) / 360000)) ∧
    (let s1 := s.setSched fun d => { d with nextStep := s.tick / 108 * 108 + 108 }
     let waits := s.sched.launches.filter fun l => decide (l.st = .accepted) && !l.waitHeld && decide (rWkind l.rcd = 1)
     let s2 := waits.foldl (fun (s : State) l => s.noteBad l.ctx (l.rcd.getD 9 0).toNat) s1
     exec .dispatcherStep s = .next (if s.sched.hold = true then s1
       else (((readyRecords s1).foldl State.considerRecord s2).fillLaunches.offerRestores.offerLends).offerInboxSwaps)) ∧
    (∀ l, (completionHeld s l.ctx l.rcd || (seedAddrs l).any (userHeld s l.ctx)) = true → s.considerRecord l = s) ∧
    (∀ l, (completionHeld s l.ctx l.rcd || (seedAddrs l).any (userHeld s l.ctx)) = false →
      (∀ s1, s.tryPlace l = .placed s1 →
        ∃ x, x = s.considerRecord l ∧ x.strands = s1.strands ∧ x.sched.launches = s1.sched.launches ∧ x.mem = s1.mem) ∧
      (s.tryPlace l = .no → unplaceable s l = true → s.considerRecord l = s.dropRecord l 3 0) ∧
      (s.tryPlace l = .no → unplaceable s l = false → s.preemptFor l = none → s.considerRecord l = s) ∧
      (rClass l.rcd < 6 ∨ s.sched.nopre = true → s.preemptFor l = none)) ∧
    (∀ l rest d y x, readyRecords s = l :: rest → l.uid = u → s.sched.rsv = none → rSlots l.rcd ≠ 0 → l.ready.getD s.tick + 360000 ≤ s.tick →
        emptyFit s l = some (d, y, x) →
      ∃ t, exec (.rectangleReserve u) s = .next t ∧ t.sched.rsv = some u ∧ t.mem = s.mem ∧ t.strands = s.strands ∧
        t.sched.rsvWord = BitVec.ofNat 64 (2 ^ 63 + d * 2 ^ 48 + rH l.rcd * 2 ^ 32 + rW l.rcd * 2 ^ 24 + y * 2 ^ 8 + x)) ∧
    (s.sched.rsv ≠ none → exec (.rectangleReserve u) s = .next s) ∧
    (∀ x, (s.core core).zeroing = some x → x ≤ s.tick → s.memWf →
      ∃ t, exec (.localMemoryZeroed core) s = .next t ∧ (t.core core).clean = true ∧ (t.core core).zeroing = none ∧
        (t.core core).owner = (s.core core).owner ∧ (∀ a, lkey core 0 ≤ a → a < lkey core 0 + 2 ^ 17 → mget t.mem a = 0) ∧
        sameMemOutside s t (lkey core 0) (2 ^ 17)) ∧
    ((s.core core).zeroing = none → exec (.localMemoryZeroed core) s = .next s) ∧
    ((s.core core).wback.isSome = true →
      ∃ t, exec (.areaWriteBackComplete core) s = .next t ∧ (t.core core).wback = none ∧ (t.core core).areas = [] ∧ (t.core core).owner = none ∧
        (t.core core).zeroing = some (s.tick + 2048) ∧ t.sched.saved = s.sched.saved ++ (s.core core).areas.map (saveArea s core) ∧ t.mem = s.mem) ∧
    ((s.core core).wback = none → exec (.areaWriteBackComplete core) s = .next s) ∧
    (∀ key o, s.strand key = some o → s.uniqueKeys → s.gangOf o = none → o.pair = none → (s.core o.core).pipe = [] →
      (o.yields = false → swappable s o = true → swapsFit s [key] 0 = true →
        ∃ t y, exec (.swapOut key) s = .next t ∧ t.strand key = some y ∧ y = { o with out := true, moveEnd := s.tick + 48 } ∧
          ∃ p ∈ t.sched.cached, p.1 = poolOf o.core ∧ key ∈ p.2) ∧
      (o.yields = false → swappable s o = false → exec (.swapOut key) s = .next s) ∧
      (o.yields = true → slotWanted (s.upd key fun o => { o with yields := false }) { o with yields := false } = false →
        ∃ t y, exec (.swapOut key) s = .next t ∧ t.strand key = some y ∧ y = { o with yields := false } ∧ t.sched = s.sched ∧ t.mem = s.mem) ∧
      (∀ sid, restorable s o = true → restoreSlot s o = some sid → o.badEntry = false →
        ∃ t y, exec (.strandRestore key) s = .next t ∧ t.strand key = some y ∧ (t.core o.core).owner = some o.ctx ∧
          y = { o with out := false, sid := sid, borrower := o.borrower && decide (sid % 8 = 7), moveEnd := s.tick + 48,
                       turn := alignTurn sid (s.tick + 48) }) ∧
      (restorable s o = false → exec (.strandRestore key) s = .next s)) ∧
    (∀ l, s.launch u = some l → (endDue s l = true → l.partner = none → ∃ t, exec (.launchEnd u) s = .next t ∧ t.launch u = none) ∧
      (endDue s l = false → exec (.launchEnd u) s = .next s)) ∧
    (∀ o, s.strands.find? (fun o => o.borrower && !o.out && decide (o.sid = core * 8 + 7) && !decide (o.run = .empty)) = some o →
      (swapsFit s (swapMates s o) 0 = true → exec (.strokeSlotReclaim core) s = .next ((swapMates s o).foldl State.swapOne s)) ∧
      (swapsFit s (swapMates s o) 0 = false → exec (.strokeSlotReclaim core) s = .next s)) ∧
    (∀ o, lendable s core = true → waitingBorrower s core = some o → s.uniqueKeys →
        (∀ k ∈ o.key :: swapMates s o, (s.strand k).all (fun x => !x.badEntry) = true) →
      ∃ t y, exec (.strokeSlotLend core) s = .next t ∧ t.strand o.key = some y ∧
        y = { o with out := false, sid := core * 8 + 7, moveEnd := s.tick + 48, turn := alignTurn (core * 8 + 7) (s.tick + 48) }) ∧
    (∀ l, lendable s core = true → waitingBorrower s core = none → lendLaunch s core = some l → rWkind l.rcd = 0 →
      ∃ t y, exec (.strokeSlotLend core) s = .next t ∧ y ∈ t.others ∧ y.key = s.uid ∧ y.borrower = true ∧ y.sid = core * 8 + 7 ∧ y.park = .steal) ∧
    (lendable s core = false → exec (.strokeSlotLend core) s = .next s)

/-! ## Links -/

/-- 17 R441, R442: a command of LNKCTL in a state that lists it moves the link and clears cerr; in any other, and on a PCIe lane group, it sets cerr and
changes nothing else. 17 R443-R448, R453: the service routine holds, chooses lanes, retrains and resumes, or takes the link down; ports go down and up; a message for another
package waits at its port until the route is up, and one for this package reaches its strand, or waits there too. 17 R439, R443: a message between dies crosses, on each
edge of its route, the first module from the key's on that carries a route, and waits while one of them is not up. -/
def Obligations.LinksAndTheirService : Prop :=
  (∀ (s : State) (l : Nat), l < 114 →
      let x := s.link l
      let n := x.st.toNat
      let moves := fun (i : Instr) (ok : Bool) (st : Nat) => ∃ t, exec i s = .next t ∧
        (if ok && decide (linkType l ≠ 3) then (t.link l).st.toNat = st ∧ (t.link l).cerr = false else t.link l = { x with cerr := true }) ∧
        ∀ m < 114, m ≠ l → t.link m = s.link m
      moves (.linkHold l) (decide (n = 2)) 3 ∧ moves (.linkRetrain l) (decide (n = 4 ∨ n = 6)) 5 ∧ moves (.linkResume l) (decide (n = 4)) 2 ∧
      moves (.linkTakeDown l) (decide (n = 4 ∨ n = 6)) 0 ∧ moves (.linkTrain l) (decide (n = 0)) 1 ∧
      (n = 2 → linkType l ≠ 3 → ∃ t, exec (.linkHold l) s = .next t ∧ (t.link l).rb ≤ max x.stuck (bufferFlits l)) ∧
      (n = 3 → x.stuck = 0 → ∃ t, exec (.holdDrained l) s = .next t ∧ (t.link l).st = 4 ∧ (t.link l).rb = 0) ∧
      (n ≠ 3 → exec (.holdDrained l) s = .next s ∧ exec (.holdTimeout l) s = .next s) ∧
      (n = 3 → ∃ t, exec (.holdTimeout l) s = .next t ∧ (t.link l).st = 6 ∧ 0 < (t.link l).rb) ∧
      (∀ bad sp, n = 5 ∨ n = 1 →
        let ok := mapFits l x && lanesPass l x bad.toNat sp.toNat
        ∃ t, exec (.laneTestDone l bad sp) s = .next t ∧ (t.link l).bad = bad ∧ (t.link l).win = 0 ∧
          (t.link l).st.toNat = (if ok then (if x.training then 2 else 4) else 6) ∧
          (t.link l).width = (if ok then x.wantWidth else x.width) ∧ (t.link l).half = (if ok then x.wantHalf else x.half)) ∧
      (∀ bad sp, n ≠ 5 → n ≠ 1 → exec (.laneTestDone l bad sp) s = .next s) ∧
      (∃ t, exec (.flitCrcRetry l) s = .next t ∧ (t.link l).retry.toNat = min (2 ^ 32 - 1) (x.retry.toNat + 1) ∧ (t.link l).st = x.st) ∧
      (∃ t, exec .errorWindowClose s = .next t ∧ (t.link l).st = x.st ∧ (t.link l).retry = x.retry ∧
        (t.link l).win = (if x.wbase + 2 ^ 20 ≤ s.tick then BitVec.ofNat 16 (min 0xFFFF x.winCount) else x.win))) ∧
  (∀ (s : State) (l : Nat), l < 112 →
      let x := s.link l
      (x.serving = 1 → x.st = 2 → ∃ t, exec (.linkServiceRoutine l) s = .next t ∧ (t.link l).st = 3 ∧ (t.link l).serving = 1) ∧
      (∀ w h m, x.serving = 1 → x.st = 4 → chooseLanes l x = some (w, h, m) →
        ∃ t, exec (.linkServiceRoutine l) s = .next t ∧ (t.link l).st = 5 ∧ (t.link l).ctlWidth = w ∧ (t.link l).ctlHalf = h ∧
          (t.link l).map = BitVec.ofNat 28 m) ∧
      (x.serving = 1 → x.st = 4 → chooseLanes l x = none → ∃ t, exec (.linkServiceRoutine l) s = .next t ∧ (t.link l).st = 0 ∧ (t.link l).serving = 0) ∧
      (x.serving = 1 → x.st = 6 → ∃ t, exec (.linkServiceRoutine l) s = .next t ∧ (t.link l).st = 0 ∧ (t.link l).serving = 0) ∧
      (x.serving = 4 → x.st = 4 → ∃ t, exec (.linkServiceRoutine l) s = .next t ∧ (t.link l).st = 2 ∧ (t.link l).serving = 0) ∧
      (serveDue x = false → startDue s l = none → alertDue s l = false → exec (.linkServiceRoutine l) s = .next s) ∧
      (serveDue x = false → startDue s l = none → alertDue s l = true →
        ∃ t, exec (.linkServiceRoutine l) s = .next t ∧ (t.link l).st = 3 ∧ (t.link l).serving = 1 ∧ t.fw.scan = (l + 1) % 96) ∧
      (∀ c, serveDue x = false → startDue s l = some c → serviceOf c = 1 → x.st = 2 →
        ∃ t, exec (.linkServiceRoutine l) s = .next t ∧ (t.link l).st = 3 ∧ (t.link l).serving = 1 ∧ (t.link l).asked = true) ∧
      (∀ p < 16, ∃ t, exec (.flezilPortDown p) s = .next t ∧ (t.link (96 + p)).st = 0 ∧ t.fw.routes = s.fw.routes) ∧
      (∀ p < 2, (∃ t, exec (.igvosPortDown p) s = .next t ∧ (t.link (112 + p)).st = 0) ∧
        ∃ t, exec (.igvosPortUp p) s = .next t ∧ (t.link (112 + p)).st = 2) ∧
      (∀ rank dst (v : BitVec 64), groupCtx s (dst / 2 ^ 16 % 2 ^ 12) = none → portUp s (rank % 2 ^ 16) = false →
        ∃ t, exec (.flezilForward rank dst v) s = .next t ∧ (BitVec.ofNat 16 rank, BitVec.ofNat 64 dst, v) ∈ t.fw.ports) ∧
      (∀ rank dst (v : BitVec 64) c, groupCtx s (dst / 2 ^ 16 % 2 ^ 12) = some c → ownRank s c.id = rank → rank < 2 ^ 16 →
        let m : BitVec 16 × Word × Word := (BitVec.ofNat 16 rank, BitVec.ofNat 64 dst, v)
        (m ∉ s.fw.ports → (∃ p ∈ s.fw.ports, p.1 = m.1 ∧ p.2.1 = m.2.1) →
          ∃ t, exec (.flezilForward rank dst v) s = .next t ∧ t.fw.ports = s.fw.ports ++ [m] ∧ t.strands = s.strands) ∧
        (∀ f, (∀ p ∈ s.fw.ports, ¬(p.1 = m.1 ∧ p.2.1 = m.2.1)) → dst / 2 ^ 28 % 8 = 0 →
            s.slotStrand (dst % 2 ^ 15) c.id = some f → s.uniqueKeys → defersInbox f = false → f.inbox = [] → f.q7.length < 32 →
          ∃ t y, exec (.flezilForward rank dst v) s = .next t ∧ t.strand f.key = some y ∧ y.q7 = f.q7 ++ [v] ∧ t.fw.ports = s.fw.ports) ∧
        (∀ f, (∀ p ∈ s.fw.ports, ¬(p.1 = m.1 ∧ p.2.1 = m.2.1)) → dst / 2 ^ 28 % 8 = 0 →
            s.slotStrand (dst % 2 ^ 15) c.id = some f → defersInbox f = false → f.inbox = [] → 32 ≤ f.q7.length →
          ∃ t, exec (.flezilForward rank dst v) s = .next t ∧ t.fw.ports = s.fw.ports ++ [m] ∧ t.strands = s.strands))) ∧
  (∀ (s : State) (a b key : Nat), (s.heldAt a b key = none ↔ ∀ l ∈ (hops a b).filterMap (s.hopLink key), (s.link l).st = 2)) ∧
  (∀ (s : State) (key first bits : Nat) (h : Nat × Nat), edgeOf h.1 h.2 = some (first, bits) →
    ∃ j < 2 ^ bits, s.hopLink key h = some (first + j) ∧
      ((∃ i < 2 ^ bits, (s.link (first + i)).st ≠ 0 ∧ (s.link (first + i)).st ≠ 1) → (s.link (first + j)).st ≠ 0 ∧ (s.link (first + j)).st ≠ 1) ∧
      let j0 := key * 0x9E3779B1 % 2 ^ 32 / 2 ^ (32 - bits)
      ((s.link (first + j0)).st ≠ 0 → (s.link (first + j0)).st ≠ 1 → j = j0))

/-! ## Driver commands -/

/-- 16 R404: every driver command is checked before it has any effect. A parameter it does not use, or a context where it takes none, gives INVALID;
an unknown context NO_CONTEXT; a checkpoint DENIED for all but five. A command is meant here before it has started: one that waits for its end is not
checked again. -/
def Obligations.CommandChecks : Prop :=
  ∀ (s : State) (c : CmdRec),
    ∀ x ∈ [(Instr.ctxCreate c, 1, false, 3), (.ctxDestroy c, 2, true, 0), (.namespaceCreate c, 3, true, 7), (.map c, 4, true, 0x3F),
        (.unmap c, 5, true, 0xD), (.pteRepair c, 6, false, 0x1FF), (.frameKindSet c, 7, false, 7), (.frameMigrate c, 8, false, 3),
        (.carve c, 9, false, 3), (.tierConfig c, 0xA, false, 3), (.launchWindowConfig c, 0xB, true, 7), (.queueCreate c, 0xC, true, 3),
        (.queuePriority c, 0xD, true, 3), (.umpireTableSet c, 0xE, true, 3), (.preempt c, 0xF, true, 1), (.checkpoint c, 0x10, false, 3),
        (.restore c, 0x11, false, 3), (.traceStart c, 0x12, decide (c.ctx ≠ 0), 7), (.traceStop c, 0x13, false, 1), (.sampleConfig c, 0x14, false, 3),
        (.blackboxRead c, 0x15, false, 7), (.rasQuery c, 0x16, false, 1), (.linkService c, 0x17, false, 3), (.pairingSet c, 0x18, true, 1),
        (.partitionReplay c, 0x19, true, 3), (.fwPatchLoad c, 0x1A, false, 3), (.attest c, 0x1B, false, 3), (.resetWarm c, 0x1C, false, 0),
        (.powerSet c, 0x1D, false, 3), (.capResolve c, 0x1E, false, 7)],
      let (i, code, named, used) := x
      let bad := (∃ k < 12, Nat.testBit used k = false ∧ c.p.getD k 0 ≠ 0) ∨ (named = false ∧ c.ctx ≠ 0)
      let noCtx := named = true ∧ s.ctxOf c.ctx.toNat = none
      let barred := s.fw.ckpt.isSome = true ∧ code ∉ [2, 0x15, 0x16, 0x1B, 0x1C]
      (∀ k, (k, c) ∉ s.fw.long) → (∀ q ∈ s.fw.settling, q.2.1 ≠ c) →
        (bad → refuses s i c code 2) ∧ (¬bad → noCtx → refuses s i c code 4) ∧ (¬bad → ¬noCtx → barred → refuses s i c code 0xE) ∧
        (allowed s c code named used ↔ ¬bad ∧ ¬noCtx ∧ ¬barred)

/-- 16 R405-R409, R425, 18 R460, R473, 12 R360, 01 R47: contexts, their groups, queues, rings, umpire tables, pairing and replay are set and answered; what
they cannot do is answered with its status. -/
def Obligations.ContextAndQueueCommands : Prop :=
  ∀ (s : State) (c : CmdRec),
    let p := par c
    let id := cctx c
    (allowed s c 1 false 3 →
      (4095 < p 0 ∨ 7 < p 1 → refuses s (.ctxCreate c) c 1 2) ∧
      (p 0 ≤ 4095 → p 1 ≤ 7 → p 0 ≠ 0 → (s.ctxOf (p 0)).isSome = true → refuses s (.ctxCreate c) c 1 6) ∧
      (p 0 ≤ 4095 → p 1 ≤ 7 → s.newTable 3 = none → (p 0 ≠ 0 → s.ctxOf (p 0) = none) → refuses s (.ctxCreate c) c 1 5) ∧
      (∀ n t s1, p 0 ≤ 4095 → p 1 ≤ 7 → (p 0 ≠ 0 → s.ctxOf (p 0) = none) → s.newTable 3 = some (t, s1) →
          n = (if p 0 = 0 then firstFree (s.fw.ctxs.map (·.id)) s.fw.ctxs.length 1 else p 0) → n ≤ 4095 →
        ∃ u, answers s u (.ctxCreate c) c 1 0 (BitVec.ofNat 64 n) ∧ u.fw.ctxs = s.fw.ctxs ++ [Ctx.fresh n (p 1) t] ∧ u.strands = s.strands)) ∧
    (allowed s c 2 true 0 → (2, c) ∉ s.fw.long →
      let s1 := (s.abortCkpt.destroyStart id).setFw fun f => { f with long := f.long ++ [(2, c)] }
      exec (.ctxDestroy c) s = .next (if destroyDue s1 (2, c) then s1.destroyFinish c else s1)) ∧
    ((2, c) ∈ s.fw.long → exec (.ctxDestroy c) s = .next (if destroyDue s (2, c) then s.destroyFinish c else s)) ∧
    (∀ x, s.ctxOf id = some x →
      (allowed s c 3 true 7 →
        (p 0 = 0 ∨ 4095 < p 0 ∨ p 1 = 0 ∨ 16 < p 1 ∨ p 1 ≤ p 2 → refuses s (.namespaceCreate c) c 3 2) ∧
        (1 ≤ p 0 → p 0 ≤ 4095 → p 1 ≤ 16 → p 2 < p 1 → x.group.isSome = true → refuses s (.namespaceCreate c) c 3 6) ∧
        (1 ≤ p 0 → p 0 ≤ 4095 → p 1 ≤ 16 → p 2 < p 1 → x.group = none →
          ∃ u, answers s u (.namespaceCreate c) c 3 0 0 ∧ u.ctxOf id = some { x with group := some (p 0, p 1, p 2) } ∧ (p 0, p 2) ∈ u.fw.joined ∧
            ∀ w, s.fw.window = some w → (p 0, p 2, w.1, w.2) ∈ u.fw.exports)) ∧
      (allowed s c 0xC true 3 → p 0 ≤ 63 → p 1 ≤ 7 →
        ((s.queueOf id (p 0)).isSome = true → refuses s (.queueCreate c) c 0xC 6) ∧
        (s.queueOf id (p 0) = none →
          ∃ u, answers s u (.queueCreate c) c 0xC 0 0 ∧
            u.ctxOf id = some { x with queues := x.queues ++ [(⟨p 0, min (p 1) x.maxClass, none, 0, 0, 0, 0, 0⟩ : LQueue)] })) ∧
      (allowed s c 0xD true 3 → p 0 ≤ 63 →
        (x.maxClass < p 1 → refuses s (.queuePriority c) c 0xD 2) ∧
        (p 1 ≤ x.maxClass → s.queueOf id (p 0) = none → refuses s (.queuePriority c) c 0xD 7) ∧
        (∀ q, p 1 ≤ x.maxClass → s.queueOf id (p 0) = some q →
          ∃ u, answers s u (.queuePriority c) c 0xD 0 0 ∧ u.queueOf id (p 0) = some { q with maxClass := p 1 })) ∧
      (allowed s c 0xB true 7 → p 0 ≤ 63 → p 1 % 4096 = 0 →
        ∀ q, s.queueOf id (p 0) = some q →
          (p 1 ≠ 0 → p 2 < 2 ∨ 10 < p 2 → refuses s (.launchWindowConfig c) c 0xB 2) ∧
          ((p 1 = 0 ∨ (2 ≤ p 2 ∧ p 2 ≤ 10)) → 0 < s.acceptedCount id (p 0) → refuses s (.launchWindowConfig c) c 0xB 1) ∧
          (s.acceptedCount id (p 0) = 0 → p 1 = 0 →
            ∃ u, answers s u (.launchWindowConfig c) c 0xB 0 0 ∧ u.queueOf id (p 0) = some { q with ring := none }) ∧
          (s.acceptedCount id (p 0) = 0 → p 1 ≠ 0 → 2 ≤ p 2 → p 2 ≤ 10 → s.memWf →
            ∃ u, answers s u (.launchWindowConfig c) c 0xB 0 0 ∧ u.queueOf id (p 0) = some { q with ring := some (p 1, p 2), cons := 0 } ∧
              (∀ i < 8, mget u.mem (ckey (p 1) + i) = 0) ∧ sameMemOutside s u (ckey (p 1)) 8)) ∧
      (allowed s c 0xE true 3 → p 0 % 8 = 0 → p 1 % 65536 = 0 →
        ∃ u, answers s u (.umpireTableSet c) c 0xE 0 0 ∧
          u.ctxOf id = some { x with umparea := c.p.getD 1 0, umpvec := Vector.ofFn fun i : Fin 32 => s.word (ckey (p 0 + 8 * i.val)) }) ∧
      (allowed s c 0x18 true 1 → p 0 ≤ 1 →
        ∃ u, answers s u (.pairingSet c) c 0x18 0 0 ∧ u.ctxOf id = some { x with pairing := decide (p 0 = 1) }) ∧
      (allowed s c 0x18 true 1 → 1 < p 0 → refuses s (.pairingSet c) c 0x18 2) ∧
      (allowed s c 0x19 true 3 → p 0 ≤ 63 → p 1 ≤ 65535 → s.acceptedCount id (p 0) = 0 → ∀ q, s.queueOf id (p 0) = some q →
        ∃ u, answers s u (.partitionReplay c) c 0x19 0 0 ∧ u.ras.divs = 0 ∧ u.ras.divTag = 0 ∧
          u.queueOf id (p 0) = some { q with replayWin := p 1, replayLeft := p 1, hashA := 0, hashB := 0 })) ∧
    (allowed s c 0xF true 1 → p 0 < 2 ^ 56 →
      let uids := (s.sched.launches.filter fun l =>
        decide (l.ctx = id) && (decide (p 0 = 2 ^ 56 - 1) || decide ((l.rcd.getD 15 0).toNat = p 0))).map (·.uid)
      let u := ((s.strands.filter fun o => uids.any fun n => decide (o.launch = some n)).map (·.key)).foldl (fun s k => s.swapAll k) s
      answers s u (.preempt c) c 0xF 0 (BitVec.ofNat 64 (outCount u - outCount s))) ∧
    (allowed s c 0x1E false 7 → (p 1 = 2 ∨ p 1 = 5 ∨ (p 1 ≤ 5 ∧ p 2 = 0)) → (p 1 = 2 → p 2 % 8 = 0) →
      let i := Instr.capResolve c
      (s.fw.caps.find? (fun h => decide (h.handle = p 0)) = none → refuses s i c 0x1E 7) ∧
      (∀ h, s.fw.caps.find? (fun h => decide (h.handle = p 0)) = some h →
        (s.capStrand h.cap = none → exec i s = .next ((s.freeHandle h.handle).reply c 0x1E 7 0 0)) ∧
        (∀ o, s.capStrand h.cap = some o →
          (o.isFrozen = true → o.serial.toNat ≠ capSerial h.cap → exec i s = .next ((s.freeHandle h.handle).reply c 0x1E 7 0 0)) ∧
          ((o.isFrozen = true → o.serial.toNat = capSerial h.cap) →
            (capRight h.cap (if p 1 ≤ 2 then 2 else if p 1 ≤ 4 then 3 else 4) = false → refuses s i c 0x1E 0xE) ∧
            (capRight h.cap 3 = true → p 1 = 3 → answers s ((s.kill none o.key false).freeHandle h.handle) i c 0x1E 0 0) ∧
            (capRight h.cap 3 = true → p 1 = 4 → answers s ((s.kill none o.key true).freeHandle h.handle) i c 0x1E 0 0) ∧
            (capRight h.cap 2 = true → o.isFrozen = false → p 1 ≤ 2 → refuses s i c 0x1E 2) ∧
            (∀ s1, capRight h.cap 2 = true → o.isFrozen = true → s.replayAs o.key (performAll 8) = .done s1 →
              (p 1 = 0 → answers s ((s1.resume o.key .retry).freeHandle h.handle) i c 0x1E 0 0) ∧
              (p 1 = 1 → answers s ((s1.resume o.key .skip).freeHandle h.handle) i c 0x1E 0 0) ∧
              (p 1 = 2 → answers s ((s1.resume o.key (.redirect (c.p.getD 2 0))).freeHandle h.handle) i c 0x1E 0 0))))))

/-- 16 R405, R411-R414, R416-R418, R420, R423: pages are mapped and unmapped whole or not at all, the reply after the last access through them; a table line is repaired; frames take kinds and move; a
die's carved units and the rack ages are set. -/
def Obligations.MappingAndFrameCommands : Prop :=
  ∀ (s : State) (c : CmdRec),
    let p := par c
    let fs := (List.range (p 1)).map fun i => p 0 / 65536 + i
    (∀ x, s.ctxOf (cctx c) = some x →
      (allowed s c 4 true 0x3F →
        (vaOk c = false → refuses s (.map c) c 4 2) ∧
        (∀ a, vaOk c = true → p 2 = 0 → p 3 = 1 → p 1 % 65536 = 0 → pagePaOk (p 1) 0 = true → fld (p 4) 4 3 < 5 → fld (p 4) 3 1 = 0 → p 4 < 128 → p 5 = 0 →
            slotOfVa s x.root (p 0) 0 = .at a →
          (bit (s.loadNat (.mem a) 8) 0 = true → refuses s (.map c) c 4 6) ∧
          (bit (s.loadNat (.mem a) 8) 0 = false → pageKindOk s (p 1) 0 (fld (p 4) 4 3) = false → refuses s (.map c) c 4 8) ∧
          (bit (s.loadNat (.mem a) 8) 0 = false → pageKindOk s (p 1) 0 (fld (p 4) 4 3) = true →
            answers s (s.writeEntry a (leafEntry (p 1) (fld (p 4) 4 3) (p 4 % 8))) (.map c) c 4 0 0)) ∧
        (∀ s1, vaOk c = true → (if p 2 = 3 then mapLinks s c x.root else mapLeaves s c x.root) = .inl (s1, 0) → answers s s1 (.map c) c 4 0 0)) ∧
      (allowed s c 5 true 0xD → settlingOf s 5 c = none →
        (vaOk c = false → refuses s (.unmap c) c 5 2) ∧
        (vaOk c = true → (∃ va ∈ pageVas c, mappedSlot s x va (p 2) = none) → refuses s (.unmap c) c 5 7) ∧
        (∀ a, vaOk c = true → p 2 ≠ 3 → p 3 = 1 → mappedSlot s x (p 0) (p 2) = some a →
          let rs := framesOfEntry s (s.loadNat (.mem a) 8) (leafLevel (p 2))
          let u := (s.writeEntry a 0).dropCached (a / 64 * 64)
          (settled u rs = true → answers s u (.unmap c) c 5 0 0) ∧
          (settled u rs = false → exec (.unmap c) s = .next (u.setFw fun f =>
            { f with settling := f.settling ++ [(5, c, 0, rs)], long := f.long ++ [(5, c)] }))))) ∧
    (∀ n rs, settlingOf s 5 c = some (5, c, n, rs) →
      (settled s rs = true → answers s (s.setFw fun f => { f with settling := f.settling.erase (5, c, n, rs), long := f.long.erase (5, c) })
        (.unmap c) c 5 0 (BitVec.ofNat 64 n)) ∧
      (settled s rs = false → exec (.unmap c) s = .next s)) ∧
    (allowed s c 6 false 0x1FF → settlingOf s 6 c = none → p 0 % 64 = 0 → paExists (p 0) = true →
      (s.kindOf (p 0 / 65536) ≠ .firmware → refuses s (.pteRepair c) c 6 8) ∧
      (s.kindOf (p 0 / 65536) = .firmware → s.fw.blocked.contains (p 0) = false → liveLine s (p 0) = false → refuses s (.pteRepair c) c 6 7) ∧
      (s.kindOf (p 0 / 65536) = .firmware → s.fw.blocked.contains (p 0) = true → (∀ h ∈ s.fw.caps, h.line ≠ some (p 0)) → s.memWf →
          settled s (lineFrames s (p 0)) = true →
        ∃ u, answers s u (.pteRepair c) c 6 0 0 ∧ p 0 ∉ u.fw.blocked ∧ sameMemOutside s u (p 0) 64 ∧ ∀ i < 8, u.word (p 0 + 8 * i) = c.p.getD (i + 1) 0)) ∧
    (allowed s c 7 false 7 →
      (p 0 % 65536 ≠ 0 ∨ 5 ≤ p 2 ∨ (∃ f ∈ fs, paExists (f * 65536) = false) → refuses s (.frameKindSet c) c 7 2) ∧
      (p 0 % 65536 = 0 → p 2 < 5 → (∀ f ∈ fs, paExists (f * 65536) = true) →
        ((∃ f ∈ fs, frameUsed s f = true) → refuses s (.frameKindSet c) c 7 1) ∧
        ((∀ f ∈ fs, frameUsed s f = false) → p 2 = 4 ∨ (∃ f ∈ fs, cacheFrame s f = true) → refuses s (.frameKindSet c) c 7 8) ∧
        ((∀ f ∈ fs, frameUsed s f = false) → p 2 < 4 → (∀ f ∈ fs, cacheFrame s f = false) →
          ∃ u, answers s u (.frameKindSet c) c 7 0 (BitVec.ofNat 64 (p 1)) ∧ u.mem = s.mem ∧
            ∀ f, if f ∈ fs then kindCode (u.kindOf f) = p 2 else u.kindOf f = s.kindOf f))) ∧
    (allowed s c 8 false 3 → p 0 % 65536 = 0 → p 1 % 65536 = 0 → paExists (p 0) = true → paExists (p 1) = true → p 0 ≠ p 1 →
        (s.kindOf (p 0 / 65536) = .plain ∨ s.kindOf (p 0 / 65536) = .carved) → traceFrame s (p 0 / 65536) = false →
        migrating s (p 0 / 65536) = false → migrating s (p 1 / 65536) = false →
        (∀ l ∈ allLeaves s, leafNames (p 0 / 65536) l = true → l.2.1 = 0) →
      (s.kindOf (p 1 / 65536) ≠ s.kindOf (p 0 / 65536) ∨ (∃ l ∈ allLeaves s, leafNames (p 1 / 65536) l = true) → refuses s (.frameMigrate c) c 8 8) ∧
      (s.kindOf (p 1 / 65536) = s.kindOf (p 0 / 65536) → (∀ l ∈ allLeaves s, leafNames (p 1 / 65536) l = false) →
        ∃ u, exec (.frameMigrate c) s = .next u ∧ u.fw.migrate = s.fw.migrate ++ [(p 0 / 65536, p 1 / 65536, c)] ∧ (8, c) ∈ u.fw.long ∧ u.mem = s.mem)) ∧
    (s.fw.migrate = [] → exec .frameMigrateCopyDone s = .next s) ∧
    (∀ src dst d rest, s.fw.migrate = (src, dst, d) :: rest → src ≠ dst → dst < 2 ^ 28 → s.memWf → s.homes.coh = [] →
      let s1 := ((s.gatherFrame src).copyFrame src dst).renameFrame src dst
      (∀ l ∈ allLeaves s1, l.1 / 65536 ≠ dst ∧ l.1 / 65536 ≠ src) →
      ∃ u, exec .frameMigrateCopyDone s = .next u ∧ u.fw.migrate = rest ∧ (8, d) ∉ u.fw.long ∧ u.parked = [] ∧
        (∀ i < 65536, mget u.mem (dst * 65536 + i) = mget s.mem (src * 65536 + i)) ∧
        ∀ l ∈ allLeaves s1, l.2.2 = src → l.2.1 = 0 → fld (u.loadNat (.mem l.1) 8) 16 28 = dst) ∧
    (allowed s c 9 false 3 → (9, c) ∉ s.fw.long →
      (4 ≤ p 0 ∨ 12 < p 1 → refuses s (.carve c) c 9 2) ∧
      (p 0 < 4 → p 1 ≤ 12 → s.fw.carve.getD (p 0) 0 ≤ p 1 → s.homes.vers = [] → busyFrames s (p 0) ≤ roomBeside (p 1) →
        ∃ u, answers s u (.carve c) c 9 0 0 ∧ u.fw.carve = s.fw.carve.setIfInBounds (p 0) (p 1) ∧ u.mem = s.mem) ∧
      (p 0 < 4 → p 1 ≤ 12 → s.fw.carve.getD (p 0) 0 ≤ p 1 → carveClear s (p 0) (p 1) = false → carveNext s (p 0) (p 1) = none →
        ∃ u, exec (.carve c) s = .next u ∧ u.fw.carve = s.fw.carve ∧ (9, c) ∈ u.fw.long ∧ u.homes = s.homes) ∧
      (p 0 < 4 → p 1 < s.fw.carve.getD (p 0) 0 → p 1 ≤ 12 → framesNamed s (inUnits (p 0) (p 1) (s.fw.carve.getD (p 0) 0)) = true →
        refuses s (.carve c) c 9 1) ∧
      (p 0 < 4 → p 1 < s.fw.carve.getD (p 0) 0 → p 1 ≤ 12 → allLeaves s = [] → (∀ k ∈ s.cores, k.trcOn = false) →
        ∃ u, answers s u (.carve c) c 9 0 0 ∧ u.fw.carve = s.fw.carve.setIfInBounds (p 0) (p 1) ∧ u.mem = s.mem)) ∧
    (allowed s c 0xA false 3 →
      ((143 < p 0 ∧ p 0 ≠ 0xFFFF) ∨ p 1 = 0 ∨ 1000000 < p 1 → refuses s (.tierConfig c) c 0xA 2) ∧
      ((p 0 ≤ 143 ∨ p 0 = 0xFFFF) → 1 ≤ p 1 → p 1 ≤ 1000000 →
        ∃ u, answers s u (.tierConfig c) c 0xA 0 0 ∧ u.mem = s.mem ∧
          ∀ i < 144, u.homes.rackAge.find? (fun r => decide (r.1 = i)) =
            if i = p 0 ∨ p 0 = 0xFFFF then some (i, p 1) else s.homes.rackAge.find? fun r => decide (r.1 = i)))

/-- 16 R426-R433, R435, 17 R445, 18 R459, R466, R467, R470, R471, R475-R478: what the firmware's own commands do and answer. What an image holds that
this package has not written is a free value (log 27). -/
def Obligations.FirmwareCommands : Prop :=
  ∀ (s : State) (c : CmdRec),
    let p := par c
    (allowed s c 0x1A false 3 →
      (∀ st, checkBundle s (p 0) (p 1) = .inl st → refuses s (.fwPatchLoad c) c 0x1A st) ∧
      (∀ b, checkBundle s (p 0) (p 1) = .inr b →
        ∃ u, answers s u (.fwPatchLoad c) c 0x1A 0 (BitVec.ofNat 64 b.1.toNat) ∧ u.fw.staged = some b ∧ u.fw.patchVer = s.fw.patchVer ∧ u.mem = s.mem)) ∧
    (allowed s c 0x1B false 3 →
      (2 ^ 20 ≤ s.fw.otpIndex → refuses s (.attest c) c 0x1B 0xB) ∧
      (s.fw.otpIndex < 2 ^ 20 → s.memWf →
        ∃ u, answers s u (.attest c) c 0x1B 0 0x174C ∧ u.fw.otpIndex = s.fw.otpIndex + 1 ∧ sameMemOutside s u (ckey (p 1)) 0x174C ∧
          u.bytes (.mem (ckey (p 1))) 0x20 = s.bytes (.mem (ckey (p 0))) 32)) ∧
    (allowed s c 0x1C false 0 → (0x1C, c) ∉ s.fw.long →
      let s1 := (s.cores.filter (·.trcOn)).foldl (fun (s : State) k => (s.traceLost k.id).setCore k.id fun k => { k with trcOn := false }) s.abortAll
      let s2 := ((s1.fw.ctxs.map (·.id)).foldl State.destroyStart s1).setFw fun f => { f with long := f.long ++ [(0x1C, c)] }
      exec (.resetWarm c) s = .next (if resetReady s2 = true then s2.resetFinish c else s2)) ∧
    ((0x1C, c) ∈ s.fw.long →
      (resetReady s = false → exec (.resetWarm c) s = .next s) ∧
      (resetReady s = true →
        ∃ u, exec (.resetWarm c) s = .next u ∧ u.fw.ctxs = [] ∧ u.sched.launches = [] ∧ u.cmds = [] ∧ u.waiting = [] ∧ u.fw.long = [] ∧ u.fw.ckpt = none ∧
          u.fw.staged = none ∧ u.fw.patchVer = (s.fw.staged.map (·.1)).getD 0 ∧ u.others = [] ∧ u.me.run = .empty ∧
          ∀ n < 114, (u.link n).win = 0 ∧ (u.link n).retry = 0 ∧ (u.link n).thr = 64)) ∧
    (allowed s c 0x1D false 3 →
      (p 0 < 400 ∨ 2100 < p 0 ∨ p 1 < 1800 ∨ 3600 < p 1 → refuses s (.powerSet c) c 0x1D 2) ∧
      (400 ≤ p 0 → p 0 ≤ 2100 → 1800 ≤ p 1 → p 1 ≤ 3600 →
        ∃ u, answers s u (.powerSet c) c 0x1D 0 0 ∧ u.ras.capw.toNat = p 0 ∧ u.ras.floor.toNat = p 1 ∧ u.ras.mhz = s.ras.mhz)) ∧
    (allowed s c 0x16 false 1 → exec (.rasQuery c) s = .next (match rasItem s (p 0) with
      | some (x, y) => s.reply c 0x16 0 x y
      | none => s.reply c 0x16 7 0 0)) ∧
    (allowed s c 0x15 false 7 →
      (4 ≤ p 0 ∨ p 2 = 0 ∨ 2048 < p 2 → refuses s (.blackboxRead c) c 0x15 2) ∧
      (p 0 < 4 → 1 ≤ p 2 → p 2 ≤ 2048 →
        let l := boxRecords s (p 0)
        let n := min (p 2) l.length
        ∃ u, answers s u (.blackboxRead c) c 0x15 0 (BitVec.ofNat 64 n) ∧ (s.memWf → sameMemOutside s u (ckey (p 1)) (32 * n)) ∧ u.ras = s.ras)) ∧
    (allowed s c 0x14 false 3 →
      (p 0 ≠ 0 → p 0 < 65536 ∨ 2 ^ 32 < p 0 ∨ p 1 % 4096 ≠ 0 → refuses s (.sampleConfig c) c 0x14 2) ∧
      (p 0 = 0 ∨ (65536 ≤ p 0 ∧ p 0 ≤ 2 ^ 32 ∧ p 1 % 4096 = 0) →
        ∃ u, answers s u (.sampleConfig c) c 0x14 0 0 ∧ u.mem = s.mem ∧
          u.fw.sample = { period := p 0, buf := p 1, sseq := 0, abs := false, prev := [], last := s.tick })) ∧
    (allowed s c 0x12 (decide (c.ctx ≠ 0)) 7 → p 0 < 2568 → p 1 % 65536 = 0 → 1 ≤ p 2 → p 2 ≤ 65536 →
      let fs := (List.range (p 2)).map fun i => p 1 / 65536 + i
      ((∃ f ∈ fs, s.kindOf f ≠ .trace) → refuses s (.traceStart c) c 0x12 8) ∧
      ((∀ f ∈ fs, s.kindOf f = .trace) → (s.core (p 0)).trcOn = true → refuses s (.traceStart c) c 0x12 1) ∧
      ((∀ f ∈ fs, s.kindOf f = .trace ∧ traceFrame s f = false) → (s.core (p 0)).trcOn = false →
        ∃ u, answers s u (.traceStart c) c 0x12 0 0 ∧ u.mem = s.mem ∧ u.core (p 0) = { s.core (p 0) with
          trcOn := true, trcCtx := c.ctx.toNat, trcFrames := p 2, trcBase := p 1 / 65536, trcSeq := 1, trcLost := 0, id := (u.core (p 0)).id })) ∧
    (allowed s c 0x13 false 1 →
      ((s.core (p 0)).trcOn = false → refuses s (.traceStop c) c 0x13 7) ∧
      ((s.core (p 0)).trcOn = true → (s.core (p 0)).trcLost = 0 →
        ∃ u, answers s u (.traceStop c) c 0x13 0 (BitVec.ofNat 64 (32 * ((s.core (p 0)).trcSeq - 1))) ∧ (u.core (p 0)).trcOn = false ∧ u.mem = s.mem)) ∧
    (allowed s c 0x17 false 3 →
      let a := p 1 % 256
      let arg := fld (p 1) 8 48
      let i := Instr.linkService c
      p 1 < 2 ^ 56 →
      (8 ≤ a → refuses s i c 0x17 2) ∧
      (a = 0 → arg = 0 → p 0 ≤ 113 → answers s s i c 0x17 0 (s.lnkstatOf (p 0))) ∧
      (a = 0 → arg = 0 → 113 < p 0 → refuses s i c 0x17 0xC) ∧
      (a = 2 → arg < 2 ^ 16 → p 0 ≤ 113 →
        ∃ u, answers s u i c 0x17 0 (u.lnkstatOf (p 0)) ∧ u.link (p 0) = { s.link (p 0) with thr := BitVec.ofNat 16 arg }) ∧
      (∀ k n, (k, n) ∈ [(1, 1), (3, 2), (4, 3)] → a = k → arg = 0 → p 0 < 112 →
        ∃ u, exec i s = .next u ∧ u.fw.long = s.fw.long ++ [(0x17, c)] ∧ u.mem = s.mem ∧
          ((s.link (p 0)).serving = 0 → (∀ q ∈ s.fw.long, q.1 = 0x17 → par q.2 0 ≠ p 0) → (k = 1 → routineBusy s = false) →
            u.link (p 0) = { s.link (p 0) with serving := n, asked := true }) ∧
          ((s.link (p 0)).serving ≠ 0 → u.links = s.links)) ∧
      (a = 5 → arg < 2 ^ 16 → 96 ≤ p 0 → p 0 < 112 →
        (routesFree s (p 0 - 96) arg = false → refuses s i c 0x17 2) ∧
        (routesFree s (p 0 - 96) arg = true → ∃ u, answers s u i c 0x17 0 0 ∧ ∀ r < 16, arg.testBit r = true → (r, p 0 - 96) ∈ u.fw.routes)) ∧
      (a = 6 → arg < 2 ^ 16 → p 0 ≤ 255 → ∃ u, answers s u i c 0x17 0 0 ∧ (p 0, BitVec.ofNat 16 arg) ∈ u.fw.colls) ∧
      (a = 7 → exportOk s (fld arg 0 28) (fld arg 28 20) = true → ∃ u, answers s u i c 0x17 0 0 ∧ u.mem = s.mem ∧
        u.fw.window = some (fld arg 0 28 * 65536, fld arg 28 20 * 2 ^ 26) ∧ ∀ x ∈ s.fw.ctxs, ∀ g n r, x.group = some (g, n, r) → (g, r, fld arg 0 28 * 65536, fld arg 28 20 * 2 ^ 26) ∈ u.fw.exports)) ∧
    (allowed s c 0x10 false 3 →
      (p 1 < imageLength s → refuses s (.checkpoint c) c 0x10 5) ∧
      (imageLength s ≤ p 1 →
        exec (.checkpoint c) s = .next ((s.setSched fun d => { d with hold := true }).setFw fun f => { f with
          ckpt := some { cmd := c, phase := 1, cut := 0, uid := 0, vers := [], out := [] }, long := f.long ++ [(0x10, c)] }).swapEverything)) ∧
    (allowed s c 0x11 false 3 →
      let f := fun (i n : Nat) => s.loadNat (.mem (ckey (p 0 + i))) n
      (s.fw.ctxs ≠ [] → refuses s (.restore c) c 0x11 0xE) ∧
      (s.fw.ctxs = [] → (f 0 4 ≠ 0x4B594350 ∨ f 4 4 ≠ 1 ∨ f 8 8 < 4096 ∨ p 1 < f 8 8) → refuses s (.restore c) c 0x11 2) ∧
      (s.fw.ctxs = [] → f 0 4 = 0x4B594350 → f 4 4 = 1 → 4096 ≤ f 8 8 → f 8 8 ≤ p 1 →
        (Config.shake256 (s.bytes (.mem (ckey (p 0 + 4096))) (f 8 8 - 4096)) ≠ BitVec.ofNat 256 (f 24 32) → refuses s (.restore c) c 0x11 9) ∧
        (Config.shake256 (s.bytes (.mem (ckey (p 0 + 4096))) (f 8 8 - 4096)) = BitVec.ofNat 256 (f 24 32) →
          (imageHeld s (BitVec.ofNat 256 (f 24 32)) = none → refuses s (.restore c) c 0x11 2) ∧
          ∀ i, imageHeld s (BitVec.ofNat 256 (f 24 32)) = some i →
            (i.carve ≠ s.fw.carve → refuses s (.restore c) c 0x11 2) ∧
            (i.carve = s.fw.carve →
              answers s (((s.restoreImage i).restoreSections (p 0 + 4096) (p 0 + f 8 8) (f 8 8)).blackBox 4 10 0 0 0 (BitVec.ofNat 64 (f 8 8)))
                (.restore c) c 0x11 0 (BitVec.ofNat 64 (f 8 8))))))

/-! ## Mailboxes, ports and resets -/

/-- 16 R397-R401, R430, R434, 17 R452, 18 R476: a mailbox that is turned on is read; a sealed command is accepted, answered at once or made to wait; held
events enter their ring; the companion's accesses act on the bytes they name; a checkpoint goes on phase by phase. -/
def Obligations.MailboxesPortsAndCheckpoints : Prop :=
  ∀ (s : State) (m : Nat), m < 2 →
    let b := s.box m
    (b.cfg.getLsbD 0 = true → s.fw.resetCmd = none →
      ∃ t, exec (.mailboxEnable m) s = .next t ∧ t.mem = s.mem ∧ t.fw.stage = (if s.fw.stage = 9 then 0x0A else s.fw.stage) ∧
        t.box m = { b with on := true, base := b.cfg.toNat / 4096 * 4096, cm := fld b.cfg.toNat 8 4, en := fld b.cfg.toNat 4 4, cons := 0, prod := 0 }) ∧
    (b.cfg.getLsbD 0 = false → exec (.mailboxEnable m) s = .next s) ∧
    (∀ c, b.cfg.getLsbD 0 = true → s.fw.resetCmd = some c → ∃ t, exec (.mailboxEnable m) s = .next t ∧ t.fw.resetCmd = none) ∧
    (∀ x : Word,
      ∃ t, exec (.configSpaceWrite (0x100 + 8 * m) x) s = .next t ∧ (t.box m).cfg = mbxWord x ∧ (t.box m).on = (b.on && (mbxWord x).getLsbD 0) ∧
        t.agenda = s.agenda ++ (if !b.cfg.getLsbD 0 && (mbxWord x).getLsbD 0 then [.mailboxEnable m] else [])) ∧
    (∀ x : Word, ∃ t, exec (.configSpaceWrite (4096 * m + 0x10) x) s = .next t ∧
      t.fw.igbase.getD m 0 = BitVec.ofNat 64 (x.toNat / 2 ^ 32 * 2 ^ 32 + x.toNat % 2)) ∧
    (∀ off x, off % 4096 ∉ [0x010, 0x018, 0x100, 0x108] → exec (.configSpaceWrite off x) s = .next s) ∧
    (drainDue s m = false → exec (.eventRingDrain m) s = .next s) ∧
    (∀ e l, b.evq = e :: l → drainDue s m = true →
      ∃ t, exec (.eventRingDrain m) s = .next t ∧ t.box m = { b with evq := l, prod := b.prod + 1 } ∧
        (s.memWf → t.loadNat (.mem (eventHead b)) 8 = (b.prod + 1) % 2 ^ 64 ∧
          mget t.mem (eventHead b + 64 + 32 * (b.prod % 2 ^ b.en) + 31) = BitVec.ofNat 8 (128 + b.prod / 2 ^ b.en % 2))) ∧
    (acceptDue s m = false → exec (.commandAccept m) s = .next s) ∧
    (acceptDue s m = true →
      let f := fun (i n : Nat) => leNat (((s.bytes (.mem (cmdSlot b)) 128).drop i).take n)
      let c : CmdRec := { mbx := m, seq := BitVec.ofNat 32 (f 4 4), ctx := BitVec.ofNat 16 (f 8 2), p := Vector.ofFn fun i : Fin 12 => BitVec.ofNat 64 (f (16 + 8 * i.val) 8) }
      let s1 := (s.setBox m fun b => { b with cons := b.cons + 1 }).put (.mem (ckey b.base)) (natLE 8 (b.cons + 1))
      let zeros := f 2 2 = 0 ∧ f 10 6 = 0 ∧ f 112 15 = 0 ∧ f 127 1 / 2 % 64 = 0
      (¬zeros → exec (.commandAccept m) s = .next (s1.reply c (f 0 2) 2 0 0)) ∧
      (zeros → commandOf (f 0 2) c = none → exec (.commandAccept m) s = .next (s1.reply c (f 0 2) 3 0 0)) ∧
      (∀ e, zeros → commandOf (f 0 2) c = some e → mustWait s1 (f 0 2, c) s1.waiting = true →
        exec (.commandAccept m) s = .next { s1 with waiting := s1.waiting ++ [e] }) ∧
      (∀ e, zeros → commandOf (f 0 2) c = some e → mustWait s1 (f 0 2, c) s1.waiting = false →
        exec (.commandAccept m) s = .next { s1 with agenda := s1.agenda ++ [e] })) ∧
    (∀ wr addr bytes,
      (devicePa s addr = none → wr = false ∨ inWindow s addr = true → exec (.companionAccess wr addr bytes) s = .next s) ∧
      (devicePa s addr = none → wr = true → inWindow s addr = false → exec (.companionAccess wr addr bytes) s = .next (s.put (.mem (ckey addr)) bytes)) ∧
      (∀ pa, devicePa s addr = some pa →
        (portHolds s wr ((List.range bytes.length).map fun i => pa + i) = true →
          exec (.companionAccess wr addr bytes) s = .next { s with parked := s.parked ++ [.companionAccess wr addr bytes] }) ∧
        (portHolds s wr ((List.range bytes.length).map fun i => pa + i) = false → (∀ i < bytes.length, paExists (pa + i) = true) → tileAt s pa = none → s.homes.coh = [] →
            s.homes.vers = [] → s.memWf →
          ∃ t, exec (.companionAccess wr addr bytes) s = .next t ∧
            (wr = false → t.mem = s.mem) ∧
            (wr = true → sameMemOutside s t pa bytes.length ∧ ∀ i < bytes.length, mget t.mem (pa + i) = bytes.getD i 0)))) ∧
    (s.fw.ckpt = none → exec .checkpointPhaseEnd s = .next s) ∧
    (∀ k, s.fw.ckpt = some k → 2 ≤ k.phase →
      let left := k.vers.filter fun u => (s.ver u).any fun v => decide (v.st ≠ .racked)
      ∃ t, exec .checkpointPhaseEnd s = .next t ∧
        (k.phase = 2 → t.fw.ckpt = some { k with phase := 3, out := pausedSections s s.free, uid := s.free, vers := left } ∧ t.sched.hold = false ∧ t.parked = []) ∧
        (3 < k.phase → t.fw.ckpt = none ∧ (0x10, k.cmd) ∉ t.fw.long)) ∧
    (∀ k, s.fw.ckpt = some k → k.phase = 1 → inSlots s = [] → commandsQuiet s = true →
      ∃ t, exec .checkpointPhaseEnd s = .next t ∧ t = ((s.cut).setFw fun f => { f with ckpt := some { k with
        phase := 2, cut := s.tick, vers := cutVersions s.cut } }).phaseEnd 1 0)

/-- 16 R426, R430, R432, R433, R435: what power and the two resets leave, and how the clock follows the watts and the temperature (which way
a sample steps the clock is the model's reading, log 30). Only OTP survives a loss of power; BOOTPATCH too survives a cold
reset, which clears the error words (00 R7). -/
def Obligations.PowerClockAndReset : Prop :=
  ∀ (s : State),
    (s.power = true → exec .powerOn s = .next s) ∧
    (s.power = false → ∃ t, exec .powerOn s = .next t ∧ t.power = true ∧ t.fw.stage = 1 ∧ t.fw.bootpatch = 0 ∧ t.fw.otpIndex = s.fw.otpIndex ∧
      t.fw.otpRollback = s.fw.otpRollback ∧ t.others = [] ∧ t.me.run = .empty ∧ t.fw.ctxs = []) ∧
    (∃ t, exec .powerLoss s = .next t ∧ t.power = false ∧ t.fw.otpIndex = s.fw.otpIndex ∧ t.fw.otpRollback = s.fw.otpRollback ∧ t.fw.ctxs = [] ∧
      (s.memWf → ∀ a, mget t.mem a = if 2 ^ 61 ≤ a then mget s.mem a else 0)) ∧
    (s.power = false → exec .coldReset s = .next s) ∧
    (s.power = true → romSound = false →
      ∃ t, exec .coldReset s = .next t ∧ t.fw.stage = 0xFF ∧ t.fw.bootErr = Config.bootFailure 1 ∧ t.fw.ctxs = [] ∧ t.others = []) ∧
    (s.power = true → romSound = true →
      ∃ t, exec .coldReset s = .next t ∧ t.fw.stage = 9 ∧ t.fw.ctxs = [] ∧ t.others = [] ∧ t.me.run = .empty ∧ t.fw.otpIndex = s.fw.otpIndex ∧
        t.ras.ce = 0 ∧ t.ras.ue = 0 ∧ (s.memWf → ∀ a, 2 ^ 60 ≤ a → a < 2 ^ 61 → mget t.mem a = 0)) ∧
    (∀ w : BitVec 16, ∃ t, exec (.powerSample w) s = .next t ∧ t.ras.pw = w ∧
      let f := s.ras.mhz.toNat
      t.ras.mhz.toNat = if s.ras.capw.toNat < w.toNat then (if f ≤ s.ras.floor.toNat then f else max s.ras.floor.toNat (f - 100))
        else if w.toNat < s.ras.capw.toNat then min 3600 (f + 100) else f) ∧
    (∀ x : BitVec 16, ∃ t, exec (.thermalLimit x) s = .next t ∧ t.ras.mhz.toNat = max 1800 (min s.ras.mhz.toNat x.toNat))

/-- 18 R454-R457, R467, R468, R469, 11 R336, 01 R16: the debug module stops strands, marks one for a bundle at its next turn, reads and writes strands and the memory of
stopped cores; an error that a patrol or an access finds is counted where it is corrected and poisons its granules where it is not; a sample pulse counts its record. -/
def Obligations.DebugPatrolAndSamples : Prop :=
  ∀ (s : State) (core key : Nat),
    (s.uniqueKeys → stopWith s core = [core] →
      ∃ t, exec (.debugStop core) s = .next t ∧ (t.core core).stopped = true ∧ ∀ k o, s.strand k = some o →
        t.strand k = some (if (o.core = core ∨ (s.core o.core).stopped = true) ∧ atBoundary o = true then { o with run := .stopped } else o)) ∧
    (s.uniqueKeys →
      ∃ t, exec (.debugResume core) s = .next t ∧ (t.core core).stopped = false ∧ t.mem = s.mem ∧ ∀ k o, s.strand k = some o →
        t.strand k = some (if o.core = core ∧ o.out = false then goOn (leads s o) s.tick o else o)) ∧
    (∀ on, ∃ t, exec (.debugArm core on) s = .next t ∧ (t.core core).armed = on ∧ t.strands = s.strands ∧ t.mem = s.mem) ∧
    (∀ o, s.strand key = some o →
      (o.run ≠ .stopped ∨ o.park = .steal ∨ o.out = true ∨ leads s o = false → exec (.debugStep key) s = .next s) ∧
      (o.run = .stopped → o.park ≠ .steal → o.out = false → leads s o = true →
        exec (.debugStep key) s = .next (s.upd key fun x => { x with stepping := true })) ∧
      (∀ wr what x, o.run ≠ .stopped → wr = true ∨ what ≠ .run → (∀ off, what = .lmem off → (s.core o.core).stopped = false) →
        (∀ c off, what ≠ .bank c off) → exec (.debugAccess key wr what x) s = .next s) ∧
      (∀ x, ∃ t, exec (.debugAccess key false .run x) s = .next t ∧ t.tap = BitVec.ofNat 64 (slotRun s o.sid).code ∧ t.strands = s.strands ∧ t.mem = s.mem) ∧
      (∀ x, o.run = .stopped →
        (∀ n, exec (.debugAccess key false (.g n) x) s = .next { s with tap := o.g n }) ∧
        (∀ n, exec (.debugAccess key false (.k n) x) s = .next { s with tap := o.kr n }) ∧
        (∀ n part, exec (.debugAccess key false (.v n part) x) s = .next { s with tap := BitVec.ofNat 64 (laneOf 64 (o.vr n) part.toNat) }) ∧
        exec (.debugAccess key false .pc x) s = .next { s with tap := o.pc } ∧
        (∀ off, exec (.debugAccess key false (.lmem off) x) s = .next { s with tap := s.word (lkey o.core (off.toNat / 8 * 8)) }) ∧
        (∀ sel, exec (.debugAccess key false (.word sel) x) s = .next { s with tap := readWord s o sel.toNat })) ∧
      (∀ x : Word, o.run = .stopped →
        (∀ n, exec (.debugAccess key true (.g n) x) s = .next (s.upd key fun o => o.setG n x)) ∧
        (∀ n, exec (.debugAccess key true (.k n) x) s = .next (s.upd key fun o => o.setK n x)) ∧
        (∀ n part, s.uniqueKeys → ∃ t y, exec (.debugAccess key true (.v n part) x) s = .next t ∧ t.strand key = some y ∧
          ∀ j < 8, laneOf 64 (y.vr n) j = if j = part.toNat then x.toNat else laneOf 64 (o.vr n) j) ∧
        exec (.debugAccess key true .pc x) s = .next (s.upd key fun o => { o with pc := x }) ∧
        (∀ off, s.memWf → ∃ t, exec (.debugAccess key true (.lmem off) x) s = .next t ∧ t.word (lkey o.core (off.toNat / 8 * 8)) = x ∧
          sameMemOutside s t (lkey o.core (off.toNat / 8 * 8)) 8) ∧
        (∀ sel, selCause .firmware sel.toNat (some x) = none →
          exec (.debugAccess key true (.word sel) x) s = .next (s.writeWordOf key sel.toNat x)))) ∧
    (∀ (c : BitVec 12) (off : BitVec 17) (x : Word),
      (2568 ≤ c.toNat ∨ (s.core c.toNat).stopped = false → ∀ wr, exec (.debugAccess key wr (.bank c off) x) s = .next s) ∧
      (c.toNat < 2568 → (s.core c.toNat).stopped = true →
        exec (.debugAccess key false (.bank c off) x) s = .next { s with tap := s.word (lkey c.toNat (off.toNat / 8 * 8)) } ∧
        (s.memWf → ∃ t, exec (.debugAccess key true (.bank c off) x) s = .next t ∧ t.word (lkey c.toNat (off.toNat / 8 * 8)) = x ∧
          sameMemOutside s t (lkey c.toNat (off.toNat / 8 * 8)) 8))) ∧
    (∀ (k : Nat) (u : BitVec 4) (un : Bool), byAccess u = false → patrolOn s (errorUnit u) = false → exec (.patrolScrub k u un) s = .next s) ∧
    (∀ (k : Nat) (u : BitVec 4), byAccess u = true ∨ patrolOn s (errorUnit u) = true →
      let n := errorUnit u
      (∃ t, exec (.patrolScrub k u false) s = .next t ∧ t = { s with ras := { s.ras with ce := t.ras.ce } } ∧
        ∀ i ∈ [0, 16, 32, 48], fld t.ras.ce.toNat i 16 = if i = ceField n then min 0xFFFF (fld s.ras.ce.toNat i 16 + 1) else fld s.ras.ce.toNat i 16) ∧
      (n ∉ [1, 5, 7] → (n = 4 → k < 2 ^ 43) → ∃ t, exec (.patrolScrub k u true) s = .next t ∧ t.strands = s.strands ∧
        ((∀ l ∈ badPlaces s k n, granule l ∈ s.poison) → t = s) ∧ ∀ l ∈ badPlaces s k n, granule l ∉ s.poison → granule l ∈ t.poison) ∧
      (n = 1 → exec (.patrolScrub k u true) s = .next ((s.reportAt k 1).spoilRegs k)) ∧
      (n = 5 → exec (.patrolScrub k u true) s = .next ((s.reportAt k 5).upd k fun o =>
        if o.out = true then { o with badEntry := true } else o)) ∧
      (n = 7 → exec (.patrolScrub k u true) s = .next ((s.reportAt k 7).spoilEntry k))) ∧
    (s.fw.sample.period = 0 ∨ s.tick % s.fw.sample.period ≠ 0 → exec .samplePulse s = .next s) ∧
    (s.fw.sample.period ≠ 0 → s.tick % s.fw.sample.period = 0 →
      let h := ckey s.fw.sample.buf
      let room := s.loadNat (.mem h) 8 - 64
      let used := s.loadNat (.mem (h + 8)) 8 - s.loadNat (.mem (h + 16)) 8
      let r := sampleRecord s
      ∃ t, exec .samplePulse s = .next t ∧ t.fw.sample.sseq = s.fw.sample.sseq + 1 ∧ t.strands = s.strands ∧
        (room < used + r.length → t.fw.sample.abs = true ∧
          (s.memWf → t.loadNat (.mem (h + 24)) 8 = (s.loadNat (.mem (h + 24)) 8 + 1) % 2 ^ 64 ∧ sameMemOutside s t (h + 24) 8)) ∧
        (used + r.length ≤ room → t.fw.sample.abs = false ∧
          (s.memWf → t.loadNat (.mem (h + 8)) 8 = (s.loadNat (.mem (h + 8)) 8 + r.length) % 2 ^ 64)))

/-! ## The whole machine -/

/-- 01 R14, 05 R142, 06 R188: a step of a strand whose turn has come, and which has nothing else due, fetches its bundle, decodes it and runs it: where one
syllable is i and the other idle, the step is `exec i` of the strand after its held deliveries have entered and its bundle has been fetched; fp64
arithmetic, the stroke slot's turn and the waits that came to hold are noted (08 R239, 01 R18, R47), and an FRES retry that waits is tried (16 R423). -/
def Obligations.StepRunsDecodedInstruction : Prop :=
  ∀ (s : State) (o : Strand) (k : Nat) (a b i : Instr),
    s.power = true → s.agenda = [] → nextWake s = none → s.uniqueKeys → nextStrand s = some o → o.run = .ready → (s.core o.core).stopped = false →
    gangNoticeDue s o = false → noticeDue o = false → o.park ≠ .steal → o.ganged = false → o.gang = none → o.pairLead = false →
      let s1 := (s.focus o.key).setMe drainInbox
      let f := fetchWord (s1.noteFetch k) o.core k
      fetchPlace s1 s1.me s1.me.pc = .inl k → fetchWaits s1 o.core k = false → s1.poisonIn (.mem k) 8 = none →
      decodeBundle (isCompute o.core) (isCox o.core) (f.1 % 2 ^ 32) (f.1 / 2 ^ 32) = .good a b →
      bundlePair i = (a, b) → isSyllable a → isSyllable b → (isFp64 b = true → o.fpTurn ≠ some s.tick) →
        ∃ t, exec i f.2 = .next t ∧ step s = .next ((noteFp64 o.key b t).strokeDone o).noteConds.retryAgain

/-- 05 R143-R146: words written out from the encodings decode to the instructions they stand for, each half of the bundle beside an idle one or its literal;
words that fail a check are refused with its cause. -/
def Obligations.WordsDecode : Prop :=
  decodeBundle true false 0x00321400 0 = .good (.add 3 4 5 false) .vnop ∧
  decodeBundle true false 0x04F0FFFF 0 = .good (.addi 15 1 (.fld 0x7FFF)) .vnop ∧
  decodeBundle true false 0x84F08000 0xDEADBEEF = .good (.addi 15 1 (.lit 0xDEADBEEF)) .vnop ∧
  decodeBundle true false 0x20A58010 0 = .good (.beq 10 11 (.fld 0x10)) .vnop ∧
  decodeBundle true false 0x3CC12008 0 = .good (.ldd 12 2 .wt (.fld 8)) .vnop ∧
  decodeBundle true false 0x44D12010 0 = .good (.std 13 2 .wt (.fld 0x10)) .vnop ∧
  decodeBundle true false 0x68900006 0 = .good (.mfs 9 6) .vnop ∧
  decodeBundle true false 0x5C310000 0 = .good (.qpush 3 2) .vnop ∧
  decodeBundle true false 0x7E000000 0x04640A85 = .good .anop (.vmulh 3 (.reg 4) 1 2 .e32) ∧
  decodeBundle true false 0x7E000000 0x40641AE0 = .good .anop (.vfadd 3 (.que 4) 3 2 .f64) ∧
  decodeBundle true false 0x7E000000 0xC4000100 = .good .anop (.mzero 0x10) ∧
  decodeBundle true false 0x00321400 0x04640A85 = .good (.add 3 4 5 false) (.vmulh 3 (.reg 4) 1 2 .e32) ∧
  decodeBundle true false 0 0 = .bad Cause.zeroSyllable false ∧
  decodeBundle true false 0x7E000000 0x0C000000 = .bad Cause.illegalOpcode true ∧
  decodeBundle true false 0x00321401 0xA0640002 = .bad Cause.bundleWriteConflict false ∧
  decodeBundle true false 0x70008400 0 = .bad Cause.coxOnly false

/-- 06 R177-R185, 01 R21: the frame of the register instructions of the scalar slot: beside its destination, the PC and the clause state an instruction changes
no register, no mask, no vector or history register, no event counter but EVDZ and EVSAT, no queue, no window, and no byte of memory. -/
def Obligations.RegisterInstructionsFrame : Prop :=
  ∀ (s : State) (i : Instr) (d : R5), scalarDest i = some d → canIssue s →
    ∃ t, exec i s = .next t ∧ (∀ q, q ≠ d → t.me.g q = s.me.g q) ∧ t.me.g 0 = 0 ∧ t.me.k = s.me.k ∧ t.me.v = s.me.v ∧ t.me.h = s.me.h ∧
      (∀ j, j ≠ 1 → j ≠ 6 → t.me.ev.getD j 0 = s.me.ev.getD j 0) ∧ t.me.fpmode = s.me.fpmode ∧ t.me.win = s.me.win ∧ t.me.qin = s.me.qin ∧
      t.me.qout = s.me.qout ∧ t.me.q4 = s.me.q4 ∧ t.me.q6 = s.me.q6 ∧ t.me.wsp = s.me.wsp ∧ t.me.nepc = s.me.nepc ∧ t.me.frz = s.me.frz ∧
      sameMem s t ∧ t.poison = s.poison ∧ t.others = s.others ∧ t.homes = s.homes ∧ t.cores = s.cores ∧ t.cmds = s.cmds ∧ t.fw = s.fw ∧
      t.links = s.links ∧ t.ras = s.ras ∧ t.agenda = s.agenda

/-- 16 R411, R426, R427, R435, 17 R441, 18 R458, R466, 01 R20: what stands at cold reset. -/
def Obligations.ValuesAtReset : Prop :=
  let s := State.reset
  s.tick = 0 ∧ s.strands.all (fun o => decide (o.run = .empty)) = true ∧ s.fw.stage = 1 ∧ s.fw.bootErr = 0 ∧ s.fw.ctxs = [] ∧ s.sched.launches = [] ∧
  s.cmds = [] ∧ s.poison = [] ∧ s.homes.vers = [] ∧ s.homes.objs = [] ∧ s.ras.mhz = 3600 ∧ s.ras.ctl = 15 ∧ s.ras.ce = 0 ∧ s.ras.ue = 0 ∧
  (∀ n < 114, (s.link n).thr = 64 ∧ (s.link n).retry = 0 ∧ (s.link n).bad = 0) ∧ (∀ n, (s.core n).lendOn = false ∧ (s.core n).clean = true) ∧
  (∀ d < 4, s.ras.bbSeq.getD d 0 = 1) ∧ s.kindOf 0 = .plain

/-- 00 R6 (log 2): memory at reset is in its canonical form, and no two records of strands share a handle. -/
def Obligations.ResetIsSound : Prop :=
  State.reset.memWf ∧ State.reset.uniqueKeys

/-- 05 R142-R163: decoding what `encode` writes for a well-formed instruction gives it back, in its own slot, with every operand at every value: no bit of an
encoding is dropped. Cores with a matrix pipe and cox cores are both meant: the core is one that may run it. -/
def Obligations.DecodeOfEncode : Prop :=
  ∀ (i : Instr) (aw bw : Nat), i.wf = true → encode i = some (aw, bw) →
    aw < 2 ^ 32 ∧ bw < 2 ^ 32 ∧ decodeBundle true true aw bw = .good (bundlePair i).1 (bundlePair i).2

/-- 00 R6 (log 2): every step of the package keeps memory in its canonical form: addresses strictly rising and no byte 0 listed. -/
def Obligations.MemoryStaysCanonical : Prop :=
  ∀ (s t : State), s.memWf → step s = .next t → t.memWf
end

