-- ==== Sys2Proof/Laws/State.lean ====
section
/-! SUPPORT. One lemma per field of the state for each named update, so that no proof unfolds a record update. -/

namespace Sys2Proof.Machine

open Sys2Proof

@[simp] theorem State.setMe_power (s : State) (f : Strand → Strand) : (s.setMe f).power = s.power := rfl
@[simp] theorem State.setMe_tick (s : State) (f : Strand → Strand) : (s.setMe f).tick = s.tick := rfl
@[simp] theorem State.setMe_free (s : State) (f : Strand → Strand) : (s.setMe f).free = s.free := rfl
@[simp] theorem State.setMe_uid (s : State) (f : Strand → Strand) : (s.setMe f).uid = s.uid := rfl
@[simp] theorem State.setMe_me (s : State) (f : Strand → Strand) : (s.setMe f).me = f s.me := rfl
@[simp] theorem State.setMe_others (s : State) (f : Strand → Strand) : (s.setMe f).others = s.others := rfl
@[simp] theorem State.setMe_mem (s : State) (f : Strand → Strand) : (s.setMe f).mem = s.mem := rfl
@[simp] theorem State.setMe_poison (s : State) (f : Strand → Strand) : (s.setMe f).poison = s.poison := rfl
@[simp] theorem State.setMe_cores (s : State) (f : Strand → Strand) : (s.setMe f).cores = s.cores := rfl
@[simp] theorem State.setMe_homes (s : State) (f : Strand → Strand) : (s.setMe f).homes = s.homes := rfl
@[simp] theorem State.setMe_sched (s : State) (f : Strand → Strand) : (s.setMe f).sched = s.sched := rfl
@[simp] theorem State.setMe_cmds (s : State) (f : Strand → Strand) : (s.setMe f).cmds = s.cmds := rfl
@[simp] theorem State.setMe_pools (s : State) (f : Strand → Strand) : (s.setMe f).pools = s.pools := rfl
@[simp] theorem State.setMe_fw (s : State) (f : Strand → Strand) : (s.setMe f).fw = s.fw := rfl
@[simp] theorem State.setMe_links (s : State) (f : Strand → Strand) : (s.setMe f).links = s.links := rfl
@[simp] theorem State.setMe_ras (s : State) (f : Strand → Strand) : (s.setMe f).ras = s.ras := rfl
@[simp] theorem State.setMe_waiting (s : State) (f : Strand → Strand) : (s.setMe f).waiting = s.waiting := rfl
@[simp] theorem State.setMe_tlb (s : State) (f : Strand → Strand) : (s.setMe f).tlb = s.tlb := rfl
@[simp] theorem State.setMe_walks (s : State) (f : Strand → Strand) : (s.setMe f).walks = s.walks := rfl
@[simp] theorem State.setMe_undo (s : State) (f : Strand → Strand) : (s.setMe f).undo = s.undo := rfl
@[simp] theorem State.setMe_tap (s : State) (f : Strand → Strand) : (s.setMe f).tap = s.tap := rfl
@[simp] theorem State.setMe_parked (s : State) (f : Strand → Strand) : (s.setMe f).parked = s.parked := rfl
@[simp] theorem State.setMe_agenda (s : State) (f : Strand → Strand) : (s.setMe f).agenda = s.agenda := rfl

@[simp] theorem State.setHomes_power (s : State) (f : Homes → Homes) : (s.setHomes f).power = s.power := rfl
@[simp] theorem State.setHomes_tick (s : State) (f : Homes → Homes) : (s.setHomes f).tick = s.tick := rfl
@[simp] theorem State.setHomes_free (s : State) (f : Homes → Homes) : (s.setHomes f).free = s.free := rfl
@[simp] theorem State.setHomes_uid (s : State) (f : Homes → Homes) : (s.setHomes f).uid = s.uid := rfl
@[simp] theorem State.setHomes_me (s : State) (f : Homes → Homes) : (s.setHomes f).me = s.me := rfl
@[simp] theorem State.setHomes_others (s : State) (f : Homes → Homes) : (s.setHomes f).others = s.others := rfl
@[simp] theorem State.setHomes_mem (s : State) (f : Homes → Homes) : (s.setHomes f).mem = s.mem := rfl
@[simp] theorem State.setHomes_poison (s : State) (f : Homes → Homes) : (s.setHomes f).poison = s.poison := rfl
@[simp] theorem State.setHomes_cores (s : State) (f : Homes → Homes) : (s.setHomes f).cores = s.cores := rfl
@[simp] theorem State.setHomes_homes (s : State) (f : Homes → Homes) : (s.setHomes f).homes = f s.homes := rfl
@[simp] theorem State.setHomes_sched (s : State) (f : Homes → Homes) : (s.setHomes f).sched = s.sched := rfl
@[simp] theorem State.setHomes_cmds (s : State) (f : Homes → Homes) : (s.setHomes f).cmds = s.cmds := rfl
@[simp] theorem State.setHomes_pools (s : State) (f : Homes → Homes) : (s.setHomes f).pools = s.pools := rfl
@[simp] theorem State.setHomes_fw (s : State) (f : Homes → Homes) : (s.setHomes f).fw = s.fw := rfl
@[simp] theorem State.setHomes_links (s : State) (f : Homes → Homes) : (s.setHomes f).links = s.links := rfl
@[simp] theorem State.setHomes_ras (s : State) (f : Homes → Homes) : (s.setHomes f).ras = s.ras := rfl
@[simp] theorem State.setHomes_waiting (s : State) (f : Homes → Homes) : (s.setHomes f).waiting = s.waiting := rfl
@[simp] theorem State.setHomes_tlb (s : State) (f : Homes → Homes) : (s.setHomes f).tlb = s.tlb := rfl
@[simp] theorem State.setHomes_walks (s : State) (f : Homes → Homes) : (s.setHomes f).walks = s.walks := rfl
@[simp] theorem State.setHomes_undo (s : State) (f : Homes → Homes) : (s.setHomes f).undo = s.undo := rfl
@[simp] theorem State.setHomes_tap (s : State) (f : Homes → Homes) : (s.setHomes f).tap = s.tap := rfl
@[simp] theorem State.setHomes_parked (s : State) (f : Homes → Homes) : (s.setHomes f).parked = s.parked := rfl
@[simp] theorem State.setHomes_agenda (s : State) (f : Homes → Homes) : (s.setHomes f).agenda = s.agenda := rfl

@[simp] theorem State.setFw_power (s : State) (f : Firmware → Firmware) : (s.setFw f).power = s.power := rfl
@[simp] theorem State.setFw_tick (s : State) (f : Firmware → Firmware) : (s.setFw f).tick = s.tick := rfl
@[simp] theorem State.setFw_free (s : State) (f : Firmware → Firmware) : (s.setFw f).free = s.free := rfl
@[simp] theorem State.setFw_uid (s : State) (f : Firmware → Firmware) : (s.setFw f).uid = s.uid := rfl
@[simp] theorem State.setFw_me (s : State) (f : Firmware → Firmware) : (s.setFw f).me = s.me := rfl
@[simp] theorem State.setFw_others (s : State) (f : Firmware → Firmware) : (s.setFw f).others = s.others := rfl
@[simp] theorem State.setFw_mem (s : State) (f : Firmware → Firmware) : (s.setFw f).mem = s.mem := rfl
@[simp] theorem State.setFw_poison (s : State) (f : Firmware → Firmware) : (s.setFw f).poison = s.poison := rfl
@[simp] theorem State.setFw_cores (s : State) (f : Firmware → Firmware) : (s.setFw f).cores = s.cores := rfl
@[simp] theorem State.setFw_homes (s : State) (f : Firmware → Firmware) : (s.setFw f).homes = s.homes := rfl
@[simp] theorem State.setFw_sched (s : State) (f : Firmware → Firmware) : (s.setFw f).sched = s.sched := rfl
@[simp] theorem State.setFw_cmds (s : State) (f : Firmware → Firmware) : (s.setFw f).cmds = s.cmds := rfl
@[simp] theorem State.setFw_pools (s : State) (f : Firmware → Firmware) : (s.setFw f).pools = s.pools := rfl
@[simp] theorem State.setFw_fw (s : State) (f : Firmware → Firmware) : (s.setFw f).fw = f s.fw := rfl
@[simp] theorem State.setFw_links (s : State) (f : Firmware → Firmware) : (s.setFw f).links = s.links := rfl
@[simp] theorem State.setFw_ras (s : State) (f : Firmware → Firmware) : (s.setFw f).ras = s.ras := rfl
@[simp] theorem State.setFw_waiting (s : State) (f : Firmware → Firmware) : (s.setFw f).waiting = s.waiting := rfl
@[simp] theorem State.setFw_tlb (s : State) (f : Firmware → Firmware) : (s.setFw f).tlb = s.tlb := rfl
@[simp] theorem State.setFw_walks (s : State) (f : Firmware → Firmware) : (s.setFw f).walks = s.walks := rfl
@[simp] theorem State.setFw_undo (s : State) (f : Firmware → Firmware) : (s.setFw f).undo = s.undo := rfl
@[simp] theorem State.setFw_tap (s : State) (f : Firmware → Firmware) : (s.setFw f).tap = s.tap := rfl
@[simp] theorem State.setFw_parked (s : State) (f : Firmware → Firmware) : (s.setFw f).parked = s.parked := rfl
@[simp] theorem State.setFw_agenda (s : State) (f : Firmware → Firmware) : (s.setFw f).agenda = s.agenda := rfl

@[simp] theorem State.setSched_power (s : State) (f : Sched → Sched) : (s.setSched f).power = s.power := rfl
@[simp] theorem State.setSched_tick (s : State) (f : Sched → Sched) : (s.setSched f).tick = s.tick := rfl
@[simp] theorem State.setSched_free (s : State) (f : Sched → Sched) : (s.setSched f).free = s.free := rfl
@[simp] theorem State.setSched_uid (s : State) (f : Sched → Sched) : (s.setSched f).uid = s.uid := rfl
@[simp] theorem State.setSched_me (s : State) (f : Sched → Sched) : (s.setSched f).me = s.me := rfl
@[simp] theorem State.setSched_others (s : State) (f : Sched → Sched) : (s.setSched f).others = s.others := rfl
@[simp] theorem State.setSched_mem (s : State) (f : Sched → Sched) : (s.setSched f).mem = s.mem := rfl
@[simp] theorem State.setSched_poison (s : State) (f : Sched → Sched) : (s.setSched f).poison = s.poison := rfl
@[simp] theorem State.setSched_cores (s : State) (f : Sched → Sched) : (s.setSched f).cores = s.cores := rfl
@[simp] theorem State.setSched_homes (s : State) (f : Sched → Sched) : (s.setSched f).homes = s.homes := rfl
@[simp] theorem State.setSched_sched (s : State) (f : Sched → Sched) : (s.setSched f).sched = f s.sched := rfl
@[simp] theorem State.setSched_cmds (s : State) (f : Sched → Sched) : (s.setSched f).cmds = s.cmds := rfl
@[simp] theorem State.setSched_pools (s : State) (f : Sched → Sched) : (s.setSched f).pools = s.pools := rfl
@[simp] theorem State.setSched_fw (s : State) (f : Sched → Sched) : (s.setSched f).fw = s.fw := rfl
@[simp] theorem State.setSched_links (s : State) (f : Sched → Sched) : (s.setSched f).links = s.links := rfl
@[simp] theorem State.setSched_ras (s : State) (f : Sched → Sched) : (s.setSched f).ras = s.ras := rfl
@[simp] theorem State.setSched_waiting (s : State) (f : Sched → Sched) : (s.setSched f).waiting = s.waiting := rfl
@[simp] theorem State.setSched_tlb (s : State) (f : Sched → Sched) : (s.setSched f).tlb = s.tlb := rfl
@[simp] theorem State.setSched_walks (s : State) (f : Sched → Sched) : (s.setSched f).walks = s.walks := rfl
@[simp] theorem State.setSched_undo (s : State) (f : Sched → Sched) : (s.setSched f).undo = s.undo := rfl
@[simp] theorem State.setSched_tap (s : State) (f : Sched → Sched) : (s.setSched f).tap = s.tap := rfl
@[simp] theorem State.setSched_parked (s : State) (f : Sched → Sched) : (s.setSched f).parked = s.parked := rfl
@[simp] theorem State.setSched_agenda (s : State) (f : Sched → Sched) : (s.setSched f).agenda = s.agenda := rfl

@[simp] theorem State.setRas_power (s : State) (f : Ras → Ras) : (s.setRas f).power = s.power := rfl
@[simp] theorem State.setRas_tick (s : State) (f : Ras → Ras) : (s.setRas f).tick = s.tick := rfl
@[simp] theorem State.setRas_free (s : State) (f : Ras → Ras) : (s.setRas f).free = s.free := rfl
@[simp] theorem State.setRas_uid (s : State) (f : Ras → Ras) : (s.setRas f).uid = s.uid := rfl
@[simp] theorem State.setRas_me (s : State) (f : Ras → Ras) : (s.setRas f).me = s.me := rfl
@[simp] theorem State.setRas_others (s : State) (f : Ras → Ras) : (s.setRas f).others = s.others := rfl
@[simp] theorem State.setRas_mem (s : State) (f : Ras → Ras) : (s.setRas f).mem = s.mem := rfl
@[simp] theorem State.setRas_poison (s : State) (f : Ras → Ras) : (s.setRas f).poison = s.poison := rfl
@[simp] theorem State.setRas_cores (s : State) (f : Ras → Ras) : (s.setRas f).cores = s.cores := rfl
@[simp] theorem State.setRas_homes (s : State) (f : Ras → Ras) : (s.setRas f).homes = s.homes := rfl
@[simp] theorem State.setRas_sched (s : State) (f : Ras → Ras) : (s.setRas f).sched = s.sched := rfl
@[simp] theorem State.setRas_cmds (s : State) (f : Ras → Ras) : (s.setRas f).cmds = s.cmds := rfl
@[simp] theorem State.setRas_pools (s : State) (f : Ras → Ras) : (s.setRas f).pools = s.pools := rfl
@[simp] theorem State.setRas_fw (s : State) (f : Ras → Ras) : (s.setRas f).fw = s.fw := rfl
@[simp] theorem State.setRas_links (s : State) (f : Ras → Ras) : (s.setRas f).links = s.links := rfl
@[simp] theorem State.setRas_ras (s : State) (f : Ras → Ras) : (s.setRas f).ras = f s.ras := rfl
@[simp] theorem State.setRas_waiting (s : State) (f : Ras → Ras) : (s.setRas f).waiting = s.waiting := rfl
@[simp] theorem State.setRas_tlb (s : State) (f : Ras → Ras) : (s.setRas f).tlb = s.tlb := rfl
@[simp] theorem State.setRas_walks (s : State) (f : Ras → Ras) : (s.setRas f).walks = s.walks := rfl
@[simp] theorem State.setRas_undo (s : State) (f : Ras → Ras) : (s.setRas f).undo = s.undo := rfl
@[simp] theorem State.setRas_tap (s : State) (f : Ras → Ras) : (s.setRas f).tap = s.tap := rfl
@[simp] theorem State.setRas_parked (s : State) (f : Ras → Ras) : (s.setRas f).parked = s.parked := rfl
@[simp] theorem State.setRas_agenda (s : State) (f : Ras → Ras) : (s.setRas f).agenda = s.agenda := rfl

@[simp] theorem State.setCore_power (s : State) (i : Nat) (f : CoreRec → CoreRec) : (s.setCore i f).power = s.power := rfl
@[simp] theorem State.setCore_tick (s : State) (i : Nat) (f : CoreRec → CoreRec) : (s.setCore i f).tick = s.tick := rfl
@[simp] theorem State.setCore_free (s : State) (i : Nat) (f : CoreRec → CoreRec) : (s.setCore i f).free = s.free := rfl
@[simp] theorem State.setCore_uid (s : State) (i : Nat) (f : CoreRec → CoreRec) : (s.setCore i f).uid = s.uid := rfl
@[simp] theorem State.setCore_me (s : State) (i : Nat) (f : CoreRec → CoreRec) : (s.setCore i f).me = s.me := rfl
@[simp] theorem State.setCore_others (s : State) (i : Nat) (f : CoreRec → CoreRec) : (s.setCore i f).others = s.others := rfl
@[simp] theorem State.setCore_mem (s : State) (i : Nat) (f : CoreRec → CoreRec) : (s.setCore i f).mem = s.mem := rfl
@[simp] theorem State.setCore_poison (s : State) (i : Nat) (f : CoreRec → CoreRec) : (s.setCore i f).poison = s.poison := rfl
@[simp] theorem State.setCore_cores (s : State) (i : Nat) (f : CoreRec → CoreRec) : (s.setCore i f).cores = f (s.core i) :: s.cores.filter fun c => !decide (c.id = i) := rfl
@[simp] theorem State.setCore_homes (s : State) (i : Nat) (f : CoreRec → CoreRec) : (s.setCore i f).homes = s.homes := rfl
@[simp] theorem State.setCore_sched (s : State) (i : Nat) (f : CoreRec → CoreRec) : (s.setCore i f).sched = s.sched := rfl
@[simp] theorem State.setCore_cmds (s : State) (i : Nat) (f : CoreRec → CoreRec) : (s.setCore i f).cmds = s.cmds := rfl
@[simp] theorem State.setCore_pools (s : State) (i : Nat) (f : CoreRec → CoreRec) : (s.setCore i f).pools = s.pools := rfl
@[simp] theorem State.setCore_fw (s : State) (i : Nat) (f : CoreRec → CoreRec) : (s.setCore i f).fw = s.fw := rfl
@[simp] theorem State.setCore_links (s : State) (i : Nat) (f : CoreRec → CoreRec) : (s.setCore i f).links = s.links := rfl
@[simp] theorem State.setCore_ras (s : State) (i : Nat) (f : CoreRec → CoreRec) : (s.setCore i f).ras = s.ras := rfl
@[simp] theorem State.setCore_waiting (s : State) (i : Nat) (f : CoreRec → CoreRec) : (s.setCore i f).waiting = s.waiting := rfl
@[simp] theorem State.setCore_tlb (s : State) (i : Nat) (f : CoreRec → CoreRec) : (s.setCore i f).tlb = s.tlb := rfl
@[simp] theorem State.setCore_walks (s : State) (i : Nat) (f : CoreRec → CoreRec) : (s.setCore i f).walks = s.walks := rfl
@[simp] theorem State.setCore_undo (s : State) (i : Nat) (f : CoreRec → CoreRec) : (s.setCore i f).undo = s.undo := rfl
@[simp] theorem State.setCore_tap (s : State) (i : Nat) (f : CoreRec → CoreRec) : (s.setCore i f).tap = s.tap := rfl
@[simp] theorem State.setCore_parked (s : State) (i : Nat) (f : CoreRec → CoreRec) : (s.setCore i f).parked = s.parked := rfl
@[simp] theorem State.setCore_agenda (s : State) (i : Nat) (f : CoreRec → CoreRec) : (s.setCore i f).agenda = s.agenda := rfl

@[simp] theorem State.later_power (s : State) (e : Ev) : (s.later e).power = s.power := rfl
@[simp] theorem State.later_tick (s : State) (e : Ev) : (s.later e).tick = s.tick := rfl
@[simp] theorem State.later_free (s : State) (e : Ev) : (s.later e).free = s.free := rfl
@[simp] theorem State.later_uid (s : State) (e : Ev) : (s.later e).uid = s.uid := rfl
@[simp] theorem State.later_me (s : State) (e : Ev) : (s.later e).me = s.me := rfl
@[simp] theorem State.later_others (s : State) (e : Ev) : (s.later e).others = s.others := rfl
@[simp] theorem State.later_mem (s : State) (e : Ev) : (s.later e).mem = s.mem := rfl
@[simp] theorem State.later_poison (s : State) (e : Ev) : (s.later e).poison = s.poison := rfl
@[simp] theorem State.later_cores (s : State) (e : Ev) : (s.later e).cores = s.cores := rfl
@[simp] theorem State.later_homes (s : State) (e : Ev) : (s.later e).homes = s.homes := rfl
@[simp] theorem State.later_sched (s : State) (e : Ev) : (s.later e).sched = s.sched := rfl
@[simp] theorem State.later_cmds (s : State) (e : Ev) : (s.later e).cmds = s.cmds := rfl
@[simp] theorem State.later_pools (s : State) (e : Ev) : (s.later e).pools = s.pools := rfl
@[simp] theorem State.later_fw (s : State) (e : Ev) : (s.later e).fw = s.fw := rfl
@[simp] theorem State.later_links (s : State) (e : Ev) : (s.later e).links = s.links := rfl
@[simp] theorem State.later_ras (s : State) (e : Ev) : (s.later e).ras = s.ras := rfl
@[simp] theorem State.later_waiting (s : State) (e : Ev) : (s.later e).waiting = s.waiting := rfl
@[simp] theorem State.later_tlb (s : State) (e : Ev) : (s.later e).tlb = s.tlb := rfl
@[simp] theorem State.later_walks (s : State) (e : Ev) : (s.later e).walks = s.walks := rfl
@[simp] theorem State.later_undo (s : State) (e : Ev) : (s.later e).undo = s.undo := rfl
@[simp] theorem State.later_tap (s : State) (e : Ev) : (s.later e).tap = s.tap := rfl
@[simp] theorem State.later_parked (s : State) (e : Ev) : (s.later e).parked = s.parked := rfl
@[simp] theorem State.later_agenda (s : State) (e : Ev) : (s.later e).agenda = s.agenda ++ [e] := rfl

@[simp] theorem State.addStrand_power (s : State) (o : Strand) : (s.addStrand o).power = s.power := rfl
@[simp] theorem State.addStrand_tick (s : State) (o : Strand) : (s.addStrand o).tick = s.tick := rfl
@[simp] theorem State.addStrand_free (s : State) (o : Strand) : (s.addStrand o).free = s.free := rfl
@[simp] theorem State.addStrand_uid (s : State) (o : Strand) : (s.addStrand o).uid = s.uid := rfl
@[simp] theorem State.addStrand_me (s : State) (o : Strand) : (s.addStrand o).me = s.me := rfl
@[simp] theorem State.addStrand_others (s : State) (o : Strand) : (s.addStrand o).others = s.others ++ [o] := rfl
@[simp] theorem State.addStrand_mem (s : State) (o : Strand) : (s.addStrand o).mem = s.mem := rfl
@[simp] theorem State.addStrand_poison (s : State) (o : Strand) : (s.addStrand o).poison = s.poison := rfl
@[simp] theorem State.addStrand_cores (s : State) (o : Strand) : (s.addStrand o).cores = s.cores := rfl
@[simp] theorem State.addStrand_homes (s : State) (o : Strand) : (s.addStrand o).homes = s.homes := rfl
@[simp] theorem State.addStrand_sched (s : State) (o : Strand) : (s.addStrand o).sched = s.sched := rfl
@[simp] theorem State.addStrand_cmds (s : State) (o : Strand) : (s.addStrand o).cmds = s.cmds := rfl
@[simp] theorem State.addStrand_pools (s : State) (o : Strand) : (s.addStrand o).pools = s.pools := rfl
@[simp] theorem State.addStrand_fw (s : State) (o : Strand) : (s.addStrand o).fw = s.fw := rfl
@[simp] theorem State.addStrand_links (s : State) (o : Strand) : (s.addStrand o).links = s.links := rfl
@[simp] theorem State.addStrand_ras (s : State) (o : Strand) : (s.addStrand o).ras = s.ras := rfl
@[simp] theorem State.addStrand_waiting (s : State) (o : Strand) : (s.addStrand o).waiting = s.waiting := rfl
@[simp] theorem State.addStrand_tlb (s : State) (o : Strand) : (s.addStrand o).tlb = s.tlb := rfl
@[simp] theorem State.addStrand_walks (s : State) (o : Strand) : (s.addStrand o).walks = s.walks := rfl
@[simp] theorem State.addStrand_undo (s : State) (o : Strand) : (s.addStrand o).undo = s.undo := rfl
@[simp] theorem State.addStrand_tap (s : State) (o : Strand) : (s.addStrand o).tap = s.tap := rfl
@[simp] theorem State.addStrand_parked (s : State) (o : Strand) : (s.addStrand o).parked = s.parked := rfl
@[simp] theorem State.addStrand_agenda (s : State) (o : Strand) : (s.addStrand o).agenda = s.agenda := rfl

@[simp] theorem State.wg_power (s : State) (r : R5) (x : Word) : (s.wg r x).power = s.power := rfl
@[simp] theorem State.wg_tick (s : State) (r : R5) (x : Word) : (s.wg r x).tick = s.tick := rfl
@[simp] theorem State.wg_free (s : State) (r : R5) (x : Word) : (s.wg r x).free = s.free := rfl
@[simp] theorem State.wg_uid (s : State) (r : R5) (x : Word) : (s.wg r x).uid = s.uid := rfl
@[simp] theorem State.wg_me (s : State) (r : R5) (x : Word) : (s.wg r x).me = s.me.setG r x := rfl
@[simp] theorem State.wg_others (s : State) (r : R5) (x : Word) : (s.wg r x).others = s.others := rfl
@[simp] theorem State.wg_mem (s : State) (r : R5) (x : Word) : (s.wg r x).mem = s.mem := rfl
@[simp] theorem State.wg_poison (s : State) (r : R5) (x : Word) : (s.wg r x).poison = s.poison := rfl
@[simp] theorem State.wg_cores (s : State) (r : R5) (x : Word) : (s.wg r x).cores = s.cores := rfl
@[simp] theorem State.wg_homes (s : State) (r : R5) (x : Word) : (s.wg r x).homes = s.homes := rfl
@[simp] theorem State.wg_sched (s : State) (r : R5) (x : Word) : (s.wg r x).sched = s.sched := rfl
@[simp] theorem State.wg_cmds (s : State) (r : R5) (x : Word) : (s.wg r x).cmds = s.cmds := rfl
@[simp] theorem State.wg_pools (s : State) (r : R5) (x : Word) : (s.wg r x).pools = s.pools := rfl
@[simp] theorem State.wg_fw (s : State) (r : R5) (x : Word) : (s.wg r x).fw = s.fw := rfl
@[simp] theorem State.wg_links (s : State) (r : R5) (x : Word) : (s.wg r x).links = s.links := rfl
@[simp] theorem State.wg_ras (s : State) (r : R5) (x : Word) : (s.wg r x).ras = s.ras := rfl
@[simp] theorem State.wg_waiting (s : State) (r : R5) (x : Word) : (s.wg r x).waiting = s.waiting := rfl
@[simp] theorem State.wg_tlb (s : State) (r : R5) (x : Word) : (s.wg r x).tlb = s.tlb := rfl
@[simp] theorem State.wg_walks (s : State) (r : R5) (x : Word) : (s.wg r x).walks = s.walks := rfl
@[simp] theorem State.wg_undo (s : State) (r : R5) (x : Word) : (s.wg r x).undo = s.undo := rfl
@[simp] theorem State.wg_tap (s : State) (r : R5) (x : Word) : (s.wg r x).tap = s.tap := rfl
@[simp] theorem State.wg_parked (s : State) (r : R5) (x : Word) : (s.wg r x).parked = s.parked := rfl
@[simp] theorem State.wg_agenda (s : State) (r : R5) (x : Word) : (s.wg r x).agenda = s.agenda := rfl

@[simp] theorem State.wv_power (s : State) (r : R5) (x : Vec) : (s.wv r x).power = s.power := rfl
@[simp] theorem State.wv_tick (s : State) (r : R5) (x : Vec) : (s.wv r x).tick = s.tick := rfl
@[simp] theorem State.wv_free (s : State) (r : R5) (x : Vec) : (s.wv r x).free = s.free := rfl
@[simp] theorem State.wv_uid (s : State) (r : R5) (x : Vec) : (s.wv r x).uid = s.uid := rfl
@[simp] theorem State.wv_me (s : State) (r : R5) (x : Vec) : (s.wv r x).me = s.me.setV r x := rfl
@[simp] theorem State.wv_others (s : State) (r : R5) (x : Vec) : (s.wv r x).others = s.others := rfl
@[simp] theorem State.wv_mem (s : State) (r : R5) (x : Vec) : (s.wv r x).mem = s.mem := rfl
@[simp] theorem State.wv_poison (s : State) (r : R5) (x : Vec) : (s.wv r x).poison = s.poison := rfl
@[simp] theorem State.wv_cores (s : State) (r : R5) (x : Vec) : (s.wv r x).cores = s.cores := rfl
@[simp] theorem State.wv_homes (s : State) (r : R5) (x : Vec) : (s.wv r x).homes = s.homes := rfl
@[simp] theorem State.wv_sched (s : State) (r : R5) (x : Vec) : (s.wv r x).sched = s.sched := rfl
@[simp] theorem State.wv_cmds (s : State) (r : R5) (x : Vec) : (s.wv r x).cmds = s.cmds := rfl
@[simp] theorem State.wv_pools (s : State) (r : R5) (x : Vec) : (s.wv r x).pools = s.pools := rfl
@[simp] theorem State.wv_fw (s : State) (r : R5) (x : Vec) : (s.wv r x).fw = s.fw := rfl
@[simp] theorem State.wv_links (s : State) (r : R5) (x : Vec) : (s.wv r x).links = s.links := rfl
@[simp] theorem State.wv_ras (s : State) (r : R5) (x : Vec) : (s.wv r x).ras = s.ras := rfl
@[simp] theorem State.wv_waiting (s : State) (r : R5) (x : Vec) : (s.wv r x).waiting = s.waiting := rfl
@[simp] theorem State.wv_tlb (s : State) (r : R5) (x : Vec) : (s.wv r x).tlb = s.tlb := rfl
@[simp] theorem State.wv_walks (s : State) (r : R5) (x : Vec) : (s.wv r x).walks = s.walks := rfl
@[simp] theorem State.wv_undo (s : State) (r : R5) (x : Vec) : (s.wv r x).undo = s.undo := rfl
@[simp] theorem State.wv_tap (s : State) (r : R5) (x : Vec) : (s.wv r x).tap = s.tap := rfl
@[simp] theorem State.wv_parked (s : State) (r : R5) (x : Vec) : (s.wv r x).parked = s.parked := rfl
@[simp] theorem State.wv_agenda (s : State) (r : R5) (x : Vec) : (s.wv r x).agenda = s.agenda := rfl

@[simp] theorem State.wk_power (s : State) (r : K3) (x : Word) : (s.wk r x).power = s.power := rfl
@[simp] theorem State.wk_tick (s : State) (r : K3) (x : Word) : (s.wk r x).tick = s.tick := rfl
@[simp] theorem State.wk_free (s : State) (r : K3) (x : Word) : (s.wk r x).free = s.free := rfl
@[simp] theorem State.wk_uid (s : State) (r : K3) (x : Word) : (s.wk r x).uid = s.uid := rfl
@[simp] theorem State.wk_me (s : State) (r : K3) (x : Word) : (s.wk r x).me = s.me.setK r x := rfl
@[simp] theorem State.wk_others (s : State) (r : K3) (x : Word) : (s.wk r x).others = s.others := rfl
@[simp] theorem State.wk_mem (s : State) (r : K3) (x : Word) : (s.wk r x).mem = s.mem := rfl
@[simp] theorem State.wk_poison (s : State) (r : K3) (x : Word) : (s.wk r x).poison = s.poison := rfl
@[simp] theorem State.wk_cores (s : State) (r : K3) (x : Word) : (s.wk r x).cores = s.cores := rfl
@[simp] theorem State.wk_homes (s : State) (r : K3) (x : Word) : (s.wk r x).homes = s.homes := rfl
@[simp] theorem State.wk_sched (s : State) (r : K3) (x : Word) : (s.wk r x).sched = s.sched := rfl
@[simp] theorem State.wk_cmds (s : State) (r : K3) (x : Word) : (s.wk r x).cmds = s.cmds := rfl
@[simp] theorem State.wk_pools (s : State) (r : K3) (x : Word) : (s.wk r x).pools = s.pools := rfl
@[simp] theorem State.wk_fw (s : State) (r : K3) (x : Word) : (s.wk r x).fw = s.fw := rfl
@[simp] theorem State.wk_links (s : State) (r : K3) (x : Word) : (s.wk r x).links = s.links := rfl
@[simp] theorem State.wk_ras (s : State) (r : K3) (x : Word) : (s.wk r x).ras = s.ras := rfl
@[simp] theorem State.wk_waiting (s : State) (r : K3) (x : Word) : (s.wk r x).waiting = s.waiting := rfl
@[simp] theorem State.wk_tlb (s : State) (r : K3) (x : Word) : (s.wk r x).tlb = s.tlb := rfl
@[simp] theorem State.wk_walks (s : State) (r : K3) (x : Word) : (s.wk r x).walks = s.walks := rfl
@[simp] theorem State.wk_undo (s : State) (r : K3) (x : Word) : (s.wk r x).undo = s.undo := rfl
@[simp] theorem State.wk_tap (s : State) (r : K3) (x : Word) : (s.wk r x).tap = s.tap := rfl
@[simp] theorem State.wk_parked (s : State) (r : K3) (x : Word) : (s.wk r x).parked = s.parked := rfl
@[simp] theorem State.wk_agenda (s : State) (r : K3) (x : Word) : (s.wk r x).agenda = s.agenda := rfl

@[simp] theorem State.updVer_power (s : State) (u : Nat) (f : Ver → Ver) : (s.updVer u f).power = s.power := rfl
@[simp] theorem State.updVer_tick (s : State) (u : Nat) (f : Ver → Ver) : (s.updVer u f).tick = s.tick := rfl
@[simp] theorem State.updVer_free (s : State) (u : Nat) (f : Ver → Ver) : (s.updVer u f).free = s.free := rfl
@[simp] theorem State.updVer_uid (s : State) (u : Nat) (f : Ver → Ver) : (s.updVer u f).uid = s.uid := rfl
@[simp] theorem State.updVer_me (s : State) (u : Nat) (f : Ver → Ver) : (s.updVer u f).me = s.me := rfl
@[simp] theorem State.updVer_others (s : State) (u : Nat) (f : Ver → Ver) : (s.updVer u f).others = s.others := rfl
@[simp] theorem State.updVer_mem (s : State) (u : Nat) (f : Ver → Ver) : (s.updVer u f).mem = s.mem := rfl
@[simp] theorem State.updVer_poison (s : State) (u : Nat) (f : Ver → Ver) : (s.updVer u f).poison = s.poison := rfl
@[simp] theorem State.updVer_cores (s : State) (u : Nat) (f : Ver → Ver) : (s.updVer u f).cores = s.cores := rfl
@[simp] theorem State.updVer_homes (s : State) (u : Nat) (f : Ver → Ver) : (s.updVer u f).homes = { s.homes with vers := s.homes.vers.map fun v => if v.uid = u then f v else v } := rfl
@[simp] theorem State.updVer_sched (s : State) (u : Nat) (f : Ver → Ver) : (s.updVer u f).sched = s.sched := rfl
@[simp] theorem State.updVer_cmds (s : State) (u : Nat) (f : Ver → Ver) : (s.updVer u f).cmds = s.cmds := rfl
@[simp] theorem State.updVer_pools (s : State) (u : Nat) (f : Ver → Ver) : (s.updVer u f).pools = s.pools := rfl
@[simp] theorem State.updVer_fw (s : State) (u : Nat) (f : Ver → Ver) : (s.updVer u f).fw = s.fw := rfl
@[simp] theorem State.updVer_links (s : State) (u : Nat) (f : Ver → Ver) : (s.updVer u f).links = s.links := rfl
@[simp] theorem State.updVer_ras (s : State) (u : Nat) (f : Ver → Ver) : (s.updVer u f).ras = s.ras := rfl
@[simp] theorem State.updVer_waiting (s : State) (u : Nat) (f : Ver → Ver) : (s.updVer u f).waiting = s.waiting := rfl
@[simp] theorem State.updVer_tlb (s : State) (u : Nat) (f : Ver → Ver) : (s.updVer u f).tlb = s.tlb := rfl
@[simp] theorem State.updVer_walks (s : State) (u : Nat) (f : Ver → Ver) : (s.updVer u f).walks = s.walks := rfl
@[simp] theorem State.updVer_undo (s : State) (u : Nat) (f : Ver → Ver) : (s.updVer u f).undo = s.undo := rfl
@[simp] theorem State.updVer_tap (s : State) (u : Nat) (f : Ver → Ver) : (s.updVer u f).tap = s.tap := rfl
@[simp] theorem State.updVer_parked (s : State) (u : Nat) (f : Ver → Ver) : (s.updVer u f).parked = s.parked := rfl
@[simp] theorem State.updVer_agenda (s : State) (u : Nat) (f : Ver → Ver) : (s.updVer u f).agenda = s.agenda := rfl

@[simp] theorem State.updCtx_power (s : State) (i : Nat) (f : Ctx → Ctx) : (s.updCtx i f).power = s.power := rfl
@[simp] theorem State.updCtx_tick (s : State) (i : Nat) (f : Ctx → Ctx) : (s.updCtx i f).tick = s.tick := rfl
@[simp] theorem State.updCtx_free (s : State) (i : Nat) (f : Ctx → Ctx) : (s.updCtx i f).free = s.free := rfl
@[simp] theorem State.updCtx_uid (s : State) (i : Nat) (f : Ctx → Ctx) : (s.updCtx i f).uid = s.uid := rfl
@[simp] theorem State.updCtx_me (s : State) (i : Nat) (f : Ctx → Ctx) : (s.updCtx i f).me = s.me := rfl
@[simp] theorem State.updCtx_others (s : State) (i : Nat) (f : Ctx → Ctx) : (s.updCtx i f).others = s.others := rfl
@[simp] theorem State.updCtx_mem (s : State) (i : Nat) (f : Ctx → Ctx) : (s.updCtx i f).mem = s.mem := rfl
@[simp] theorem State.updCtx_poison (s : State) (i : Nat) (f : Ctx → Ctx) : (s.updCtx i f).poison = s.poison := rfl
@[simp] theorem State.updCtx_cores (s : State) (i : Nat) (f : Ctx → Ctx) : (s.updCtx i f).cores = s.cores := rfl
@[simp] theorem State.updCtx_homes (s : State) (i : Nat) (f : Ctx → Ctx) : (s.updCtx i f).homes = s.homes := rfl
@[simp] theorem State.updCtx_sched (s : State) (i : Nat) (f : Ctx → Ctx) : (s.updCtx i f).sched = s.sched := rfl
@[simp] theorem State.updCtx_cmds (s : State) (i : Nat) (f : Ctx → Ctx) : (s.updCtx i f).cmds = s.cmds := rfl
@[simp] theorem State.updCtx_pools (s : State) (i : Nat) (f : Ctx → Ctx) : (s.updCtx i f).pools = s.pools := rfl
@[simp] theorem State.updCtx_fw (s : State) (i : Nat) (f : Ctx → Ctx) : (s.updCtx i f).fw = { s.fw with ctxs := s.fw.ctxs.map fun c => if c.id = i then f c else c } := rfl
@[simp] theorem State.updCtx_links (s : State) (i : Nat) (f : Ctx → Ctx) : (s.updCtx i f).links = s.links := rfl
@[simp] theorem State.updCtx_ras (s : State) (i : Nat) (f : Ctx → Ctx) : (s.updCtx i f).ras = s.ras := rfl
@[simp] theorem State.updCtx_waiting (s : State) (i : Nat) (f : Ctx → Ctx) : (s.updCtx i f).waiting = s.waiting := rfl
@[simp] theorem State.updCtx_tlb (s : State) (i : Nat) (f : Ctx → Ctx) : (s.updCtx i f).tlb = s.tlb := rfl
@[simp] theorem State.updCtx_walks (s : State) (i : Nat) (f : Ctx → Ctx) : (s.updCtx i f).walks = s.walks := rfl
@[simp] theorem State.updCtx_undo (s : State) (i : Nat) (f : Ctx → Ctx) : (s.updCtx i f).undo = s.undo := rfl
@[simp] theorem State.updCtx_tap (s : State) (i : Nat) (f : Ctx → Ctx) : (s.updCtx i f).tap = s.tap := rfl
@[simp] theorem State.updCtx_parked (s : State) (i : Nat) (f : Ctx → Ctx) : (s.updCtx i f).parked = s.parked := rfl
@[simp] theorem State.updCtx_agenda (s : State) (i : Nat) (f : Ctx → Ctx) : (s.updCtx i f).agenda = s.agenda := rfl

@[simp] theorem State.updLaunch_power (s : State) (u : Nat) (f : Launch → Launch) : (s.updLaunch u f).power = s.power := rfl
@[simp] theorem State.updLaunch_tick (s : State) (u : Nat) (f : Launch → Launch) : (s.updLaunch u f).tick = s.tick := rfl
@[simp] theorem State.updLaunch_free (s : State) (u : Nat) (f : Launch → Launch) : (s.updLaunch u f).free = s.free := rfl
@[simp] theorem State.updLaunch_uid (s : State) (u : Nat) (f : Launch → Launch) : (s.updLaunch u f).uid = s.uid := rfl
@[simp] theorem State.updLaunch_me (s : State) (u : Nat) (f : Launch → Launch) : (s.updLaunch u f).me = s.me := rfl
@[simp] theorem State.updLaunch_others (s : State) (u : Nat) (f : Launch → Launch) : (s.updLaunch u f).others = s.others := rfl
@[simp] theorem State.updLaunch_mem (s : State) (u : Nat) (f : Launch → Launch) : (s.updLaunch u f).mem = s.mem := rfl
@[simp] theorem State.updLaunch_poison (s : State) (u : Nat) (f : Launch → Launch) : (s.updLaunch u f).poison = s.poison := rfl
@[simp] theorem State.updLaunch_cores (s : State) (u : Nat) (f : Launch → Launch) : (s.updLaunch u f).cores = s.cores := rfl
@[simp] theorem State.updLaunch_homes (s : State) (u : Nat) (f : Launch → Launch) : (s.updLaunch u f).homes = s.homes := rfl
@[simp] theorem State.updLaunch_sched (s : State) (u : Nat) (f : Launch → Launch) : (s.updLaunch u f).sched = { s.sched with launches := s.sched.launches.map fun l => if l.uid = u then f l else l } := rfl
@[simp] theorem State.updLaunch_cmds (s : State) (u : Nat) (f : Launch → Launch) : (s.updLaunch u f).cmds = s.cmds := rfl
@[simp] theorem State.updLaunch_pools (s : State) (u : Nat) (f : Launch → Launch) : (s.updLaunch u f).pools = s.pools := rfl
@[simp] theorem State.updLaunch_fw (s : State) (u : Nat) (f : Launch → Launch) : (s.updLaunch u f).fw = s.fw := rfl
@[simp] theorem State.updLaunch_links (s : State) (u : Nat) (f : Launch → Launch) : (s.updLaunch u f).links = s.links := rfl
@[simp] theorem State.updLaunch_ras (s : State) (u : Nat) (f : Launch → Launch) : (s.updLaunch u f).ras = s.ras := rfl
@[simp] theorem State.updLaunch_waiting (s : State) (u : Nat) (f : Launch → Launch) : (s.updLaunch u f).waiting = s.waiting := rfl
@[simp] theorem State.updLaunch_tlb (s : State) (u : Nat) (f : Launch → Launch) : (s.updLaunch u f).tlb = s.tlb := rfl
@[simp] theorem State.updLaunch_walks (s : State) (u : Nat) (f : Launch → Launch) : (s.updLaunch u f).walks = s.walks := rfl
@[simp] theorem State.updLaunch_undo (s : State) (u : Nat) (f : Launch → Launch) : (s.updLaunch u f).undo = s.undo := rfl
@[simp] theorem State.updLaunch_tap (s : State) (u : Nat) (f : Launch → Launch) : (s.updLaunch u f).tap = s.tap := rfl
@[simp] theorem State.updLaunch_parked (s : State) (u : Nat) (f : Launch → Launch) : (s.updLaunch u f).parked = s.parked := rfl
@[simp] theorem State.updLaunch_agenda (s : State) (u : Nat) (f : Launch → Launch) : (s.updLaunch u f).agenda = s.agenda := rfl

@[simp] theorem State.updCrew_power (s : State) (u : Nat) (f : Crew → Crew) : (s.updCrew u f).power = s.power := rfl
@[simp] theorem State.updCrew_tick (s : State) (u : Nat) (f : Crew → Crew) : (s.updCrew u f).tick = s.tick := rfl
@[simp] theorem State.updCrew_free (s : State) (u : Nat) (f : Crew → Crew) : (s.updCrew u f).free = s.free := rfl
@[simp] theorem State.updCrew_uid (s : State) (u : Nat) (f : Crew → Crew) : (s.updCrew u f).uid = s.uid := rfl
@[simp] theorem State.updCrew_me (s : State) (u : Nat) (f : Crew → Crew) : (s.updCrew u f).me = s.me := rfl
@[simp] theorem State.updCrew_others (s : State) (u : Nat) (f : Crew → Crew) : (s.updCrew u f).others = s.others := rfl
@[simp] theorem State.updCrew_mem (s : State) (u : Nat) (f : Crew → Crew) : (s.updCrew u f).mem = s.mem := rfl
@[simp] theorem State.updCrew_poison (s : State) (u : Nat) (f : Crew → Crew) : (s.updCrew u f).poison = s.poison := rfl
@[simp] theorem State.updCrew_cores (s : State) (u : Nat) (f : Crew → Crew) : (s.updCrew u f).cores = s.cores := rfl
@[simp] theorem State.updCrew_homes (s : State) (u : Nat) (f : Crew → Crew) : (s.updCrew u f).homes = s.homes := rfl
@[simp] theorem State.updCrew_sched (s : State) (u : Nat) (f : Crew → Crew) : (s.updCrew u f).sched = { s.sched with crews := s.sched.crews.map fun c => if c.uid = u then f c else c } := rfl
@[simp] theorem State.updCrew_cmds (s : State) (u : Nat) (f : Crew → Crew) : (s.updCrew u f).cmds = s.cmds := rfl
@[simp] theorem State.updCrew_pools (s : State) (u : Nat) (f : Crew → Crew) : (s.updCrew u f).pools = s.pools := rfl
@[simp] theorem State.updCrew_fw (s : State) (u : Nat) (f : Crew → Crew) : (s.updCrew u f).fw = s.fw := rfl
@[simp] theorem State.updCrew_links (s : State) (u : Nat) (f : Crew → Crew) : (s.updCrew u f).links = s.links := rfl
@[simp] theorem State.updCrew_ras (s : State) (u : Nat) (f : Crew → Crew) : (s.updCrew u f).ras = s.ras := rfl
@[simp] theorem State.updCrew_waiting (s : State) (u : Nat) (f : Crew → Crew) : (s.updCrew u f).waiting = s.waiting := rfl
@[simp] theorem State.updCrew_tlb (s : State) (u : Nat) (f : Crew → Crew) : (s.updCrew u f).tlb = s.tlb := rfl
@[simp] theorem State.updCrew_walks (s : State) (u : Nat) (f : Crew → Crew) : (s.updCrew u f).walks = s.walks := rfl
@[simp] theorem State.updCrew_undo (s : State) (u : Nat) (f : Crew → Crew) : (s.updCrew u f).undo = s.undo := rfl
@[simp] theorem State.updCrew_tap (s : State) (u : Nat) (f : Crew → Crew) : (s.updCrew u f).tap = s.tap := rfl
@[simp] theorem State.updCrew_parked (s : State) (u : Nat) (f : Crew → Crew) : (s.updCrew u f).parked = s.parked := rfl
@[simp] theorem State.updCrew_agenda (s : State) (u : Nat) (f : Crew → Crew) : (s.updCrew u f).agenda = s.agenda := rfl

@[simp] theorem State.setLink_power (s : State) (l : Nat) (f : Link → Link) : (s.setLink l f).power = s.power := rfl
@[simp] theorem State.setLink_tick (s : State) (l : Nat) (f : Link → Link) : (s.setLink l f).tick = s.tick := rfl
@[simp] theorem State.setLink_free (s : State) (l : Nat) (f : Link → Link) : (s.setLink l f).free = s.free := rfl
@[simp] theorem State.setLink_uid (s : State) (l : Nat) (f : Link → Link) : (s.setLink l f).uid = s.uid := rfl
@[simp] theorem State.setLink_me (s : State) (l : Nat) (f : Link → Link) : (s.setLink l f).me = s.me := rfl
@[simp] theorem State.setLink_others (s : State) (l : Nat) (f : Link → Link) : (s.setLink l f).others = s.others := rfl
@[simp] theorem State.setLink_mem (s : State) (l : Nat) (f : Link → Link) : (s.setLink l f).mem = s.mem := rfl
@[simp] theorem State.setLink_poison (s : State) (l : Nat) (f : Link → Link) : (s.setLink l f).poison = s.poison := rfl
@[simp] theorem State.setLink_cores (s : State) (l : Nat) (f : Link → Link) : (s.setLink l f).cores = s.cores := rfl
@[simp] theorem State.setLink_homes (s : State) (l : Nat) (f : Link → Link) : (s.setLink l f).homes = s.homes := rfl
@[simp] theorem State.setLink_sched (s : State) (l : Nat) (f : Link → Link) : (s.setLink l f).sched = s.sched := rfl
@[simp] theorem State.setLink_cmds (s : State) (l : Nat) (f : Link → Link) : (s.setLink l f).cmds = s.cmds := rfl
@[simp] theorem State.setLink_pools (s : State) (l : Nat) (f : Link → Link) : (s.setLink l f).pools = s.pools := rfl
@[simp] theorem State.setLink_fw (s : State) (l : Nat) (f : Link → Link) : (s.setLink l f).fw = s.fw := rfl
@[simp] theorem State.setLink_links (s : State) (l : Nat) (f : Link → Link) : (s.setLink l f).links = s.links.setIfInBounds l (f (s.link l)) := rfl
@[simp] theorem State.setLink_ras (s : State) (l : Nat) (f : Link → Link) : (s.setLink l f).ras = s.ras := rfl
@[simp] theorem State.setLink_waiting (s : State) (l : Nat) (f : Link → Link) : (s.setLink l f).waiting = s.waiting := rfl
@[simp] theorem State.setLink_tlb (s : State) (l : Nat) (f : Link → Link) : (s.setLink l f).tlb = s.tlb := rfl
@[simp] theorem State.setLink_walks (s : State) (l : Nat) (f : Link → Link) : (s.setLink l f).walks = s.walks := rfl
@[simp] theorem State.setLink_undo (s : State) (l : Nat) (f : Link → Link) : (s.setLink l f).undo = s.undo := rfl
@[simp] theorem State.setLink_tap (s : State) (l : Nat) (f : Link → Link) : (s.setLink l f).tap = s.tap := rfl
@[simp] theorem State.setLink_parked (s : State) (l : Nat) (f : Link → Link) : (s.setLink l f).parked = s.parked := rfl
@[simp] theorem State.setLink_agenda (s : State) (l : Nat) (f : Link → Link) : (s.setLink l f).agenda = s.agenda := rfl

@[simp] theorem State.parkMe_power (s : State) (p : Park) (h : p ≠ .brk) : (s.parkMe p).power = s.power := by simp [State.parkMe, h]
@[simp] theorem State.parkMe_tick (s : State) (p : Park) (h : p ≠ .brk) : (s.parkMe p).tick = s.tick := by simp [State.parkMe, h]
@[simp] theorem State.parkMe_free (s : State) (p : Park) (h : p ≠ .brk) : (s.parkMe p).free = s.free := by simp [State.parkMe, h]
@[simp] theorem State.parkMe_uid (s : State) (p : Park) (h : p ≠ .brk) : (s.parkMe p).uid = s.uid := by simp [State.parkMe, h]
@[simp] theorem State.parkMe_others (s : State) (p : Park) (h : p ≠ .brk) : (s.parkMe p).others = s.others := by simp [State.parkMe, h]
@[simp] theorem State.parkMe_mem (s : State) (p : Park) (h : p ≠ .brk) : (s.parkMe p).mem = s.mem := by simp [State.parkMe, h]
@[simp] theorem State.parkMe_poison (s : State) (p : Park) (h : p ≠ .brk) : (s.parkMe p).poison = s.poison := by simp [State.parkMe, h]
@[simp] theorem State.parkMe_cores (s : State) (p : Park) (h : p ≠ .brk) : (s.parkMe p).cores = s.cores := by simp [State.parkMe, h]
@[simp] theorem State.parkMe_homes (s : State) (p : Park) (h : p ≠ .brk) : (s.parkMe p).homes = s.homes := by simp [State.parkMe, h]
@[simp] theorem State.parkMe_sched (s : State) (p : Park) (h : p ≠ .brk) : (s.parkMe p).sched = s.sched := by simp [State.parkMe, h]
@[simp] theorem State.parkMe_cmds (s : State) (p : Park) (h : p ≠ .brk) : (s.parkMe p).cmds = s.cmds := by simp [State.parkMe, h]
@[simp] theorem State.parkMe_pools (s : State) (p : Park) (h : p ≠ .brk) : (s.parkMe p).pools = s.pools := by simp [State.parkMe, h]
@[simp] theorem State.parkMe_fw (s : State) (p : Park) (h : p ≠ .brk) : (s.parkMe p).fw = s.fw := by simp [State.parkMe, h]
@[simp] theorem State.parkMe_links (s : State) (p : Park) (h : p ≠ .brk) : (s.parkMe p).links = s.links := by simp [State.parkMe, h]
@[simp] theorem State.parkMe_ras (s : State) (p : Park) (h : p ≠ .brk) : (s.parkMe p).ras = s.ras := by simp [State.parkMe, h]
@[simp] theorem State.parkMe_waiting (s : State) (p : Park) (h : p ≠ .brk) : (s.parkMe p).waiting = s.waiting := by simp [State.parkMe, h]
@[simp] theorem State.parkMe_tlb (s : State) (p : Park) (h : p ≠ .brk) : (s.parkMe p).tlb = s.tlb := by simp [State.parkMe, h]
@[simp] theorem State.parkMe_walks (s : State) (p : Park) (h : p ≠ .brk) : (s.parkMe p).walks = s.walks := by simp [State.parkMe, h]
@[simp] theorem State.parkMe_undo (s : State) (p : Park) (h : p ≠ .brk) : (s.parkMe p).undo = s.undo := by simp [State.parkMe, h]
@[simp] theorem State.parkMe_tap (s : State) (p : Park) (h : p ≠ .brk) : (s.parkMe p).tap = s.tap := by simp [State.parkMe, h]
@[simp] theorem State.parkMe_parked (s : State) (p : Park) (h : p ≠ .brk) : (s.parkMe p).parked = s.parked := by simp [State.parkMe, h]
@[simp] theorem State.parkMe_agenda (s : State) (p : Park) (h : p ≠ .brk) : (s.parkMe p).agenda = s.agenda := by simp [State.parkMe, h]

@[simp] theorem State.updAll_power (s : State) (f : Strand → Strand) : (s.updAll f).power = s.power := rfl
@[simp] theorem State.updAll_tick (s : State) (f : Strand → Strand) : (s.updAll f).tick = s.tick := rfl
@[simp] theorem State.updAll_free (s : State) (f : Strand → Strand) : (s.updAll f).free = s.free := rfl
@[simp] theorem State.updAll_uid (s : State) (f : Strand → Strand) : (s.updAll f).uid = s.uid := rfl
@[simp] theorem State.updAll_me (s : State) (f : Strand → Strand) : (s.updAll f).me = f s.me := rfl
@[simp] theorem State.updAll_others (s : State) (f : Strand → Strand) : (s.updAll f).others = s.others.map f := rfl
@[simp] theorem State.updAll_mem (s : State) (f : Strand → Strand) : (s.updAll f).mem = s.mem := rfl
@[simp] theorem State.updAll_poison (s : State) (f : Strand → Strand) : (s.updAll f).poison = s.poison := rfl
@[simp] theorem State.updAll_cores (s : State) (f : Strand → Strand) : (s.updAll f).cores = s.cores := rfl
@[simp] theorem State.updAll_homes (s : State) (f : Strand → Strand) : (s.updAll f).homes = s.homes := rfl
@[simp] theorem State.updAll_sched (s : State) (f : Strand → Strand) : (s.updAll f).sched = s.sched := rfl
@[simp] theorem State.updAll_cmds (s : State) (f : Strand → Strand) : (s.updAll f).cmds = s.cmds := rfl
@[simp] theorem State.updAll_pools (s : State) (f : Strand → Strand) : (s.updAll f).pools = s.pools := rfl
@[simp] theorem State.updAll_fw (s : State) (f : Strand → Strand) : (s.updAll f).fw = s.fw := rfl
@[simp] theorem State.updAll_links (s : State) (f : Strand → Strand) : (s.updAll f).links = s.links := rfl
@[simp] theorem State.updAll_ras (s : State) (f : Strand → Strand) : (s.updAll f).ras = s.ras := rfl
@[simp] theorem State.updAll_waiting (s : State) (f : Strand → Strand) : (s.updAll f).waiting = s.waiting := rfl
@[simp] theorem State.updAll_tlb (s : State) (f : Strand → Strand) : (s.updAll f).tlb = s.tlb := rfl
@[simp] theorem State.updAll_walks (s : State) (f : Strand → Strand) : (s.updAll f).walks = s.walks := rfl
@[simp] theorem State.updAll_undo (s : State) (f : Strand → Strand) : (s.updAll f).undo = s.undo := rfl
@[simp] theorem State.updAll_tap (s : State) (f : Strand → Strand) : (s.updAll f).tap = s.tap := rfl
@[simp] theorem State.updAll_parked (s : State) (f : Strand → Strand) : (s.updAll f).parked = s.parked := rfl
@[simp] theorem State.updAll_agenda (s : State) (f : Strand → Strand) : (s.updAll f).agenda = s.agenda := rfl

@[simp] theorem State.upd_power (s : State) (k : Nat) (f : Strand → Strand) : (s.upd k f).power = s.power := rfl
@[simp] theorem State.upd_tick (s : State) (k : Nat) (f : Strand → Strand) : (s.upd k f).tick = s.tick := rfl
@[simp] theorem State.upd_free (s : State) (k : Nat) (f : Strand → Strand) : (s.upd k f).free = s.free := rfl
@[simp] theorem State.upd_uid (s : State) (k : Nat) (f : Strand → Strand) : (s.upd k f).uid = s.uid := rfl
@[simp] theorem State.upd_me (s : State) (k : Nat) (f : Strand → Strand) : (s.upd k f).me = if s.me.key = k ∧ s.me.run ≠ .empty then f s.me else s.me := rfl
@[simp] theorem State.upd_others (s : State) (k : Nat) (f : Strand → Strand) : (s.upd k f).others = s.others.map fun o => if o.key = k then f o else o := rfl
@[simp] theorem State.upd_mem (s : State) (k : Nat) (f : Strand → Strand) : (s.upd k f).mem = s.mem := rfl
@[simp] theorem State.upd_poison (s : State) (k : Nat) (f : Strand → Strand) : (s.upd k f).poison = s.poison := rfl
@[simp] theorem State.upd_cores (s : State) (k : Nat) (f : Strand → Strand) : (s.upd k f).cores = s.cores := rfl
@[simp] theorem State.upd_homes (s : State) (k : Nat) (f : Strand → Strand) : (s.upd k f).homes = s.homes := rfl
@[simp] theorem State.upd_sched (s : State) (k : Nat) (f : Strand → Strand) : (s.upd k f).sched = s.sched := rfl
@[simp] theorem State.upd_cmds (s : State) (k : Nat) (f : Strand → Strand) : (s.upd k f).cmds = s.cmds := rfl
@[simp] theorem State.upd_pools (s : State) (k : Nat) (f : Strand → Strand) : (s.upd k f).pools = s.pools := rfl
@[simp] theorem State.upd_fw (s : State) (k : Nat) (f : Strand → Strand) : (s.upd k f).fw = s.fw := rfl
@[simp] theorem State.upd_links (s : State) (k : Nat) (f : Strand → Strand) : (s.upd k f).links = s.links := rfl
@[simp] theorem State.upd_ras (s : State) (k : Nat) (f : Strand → Strand) : (s.upd k f).ras = s.ras := rfl
@[simp] theorem State.upd_waiting (s : State) (k : Nat) (f : Strand → Strand) : (s.upd k f).waiting = s.waiting := rfl
@[simp] theorem State.upd_tlb (s : State) (k : Nat) (f : Strand → Strand) : (s.upd k f).tlb = s.tlb := rfl
@[simp] theorem State.upd_walks (s : State) (k : Nat) (f : Strand → Strand) : (s.upd k f).walks = s.walks := rfl
@[simp] theorem State.upd_undo (s : State) (k : Nat) (f : Strand → Strand) : (s.upd k f).undo = s.undo := rfl
@[simp] theorem State.upd_tap (s : State) (k : Nat) (f : Strand → Strand) : (s.upd k f).tap = s.tap := rfl
@[simp] theorem State.upd_parked (s : State) (k : Nat) (f : Strand → Strand) : (s.upd k f).parked = s.parked := rfl
@[simp] theorem State.upd_agenda (s : State) (k : Nat) (f : Strand → Strand) : (s.upd k f).agenda = s.agenda := rfl

@[simp] theorem State.dropStrand_power (s : State) (k : Nat) : (s.dropStrand k).power = s.power := rfl
@[simp] theorem State.dropStrand_tick (s : State) (k : Nat) : (s.dropStrand k).tick = s.tick := rfl
@[simp] theorem State.dropStrand_free (s : State) (k : Nat) : (s.dropStrand k).free = s.free := rfl
@[simp] theorem State.dropStrand_uid (s : State) (k : Nat) : (s.dropStrand k).uid = s.uid := rfl
@[simp] theorem State.dropStrand_mem (s : State) (k : Nat) : (s.dropStrand k).mem = s.mem := rfl
@[simp] theorem State.dropStrand_poison (s : State) (k : Nat) : (s.dropStrand k).poison = s.poison := rfl
@[simp] theorem State.dropStrand_cores (s : State) (k : Nat) : (s.dropStrand k).cores = s.cores := rfl
@[simp] theorem State.dropStrand_homes (s : State) (k : Nat) : (s.dropStrand k).homes = s.homes := rfl
@[simp] theorem State.dropStrand_sched (s : State) (k : Nat) : (s.dropStrand k).sched = s.sched := rfl
@[simp] theorem State.dropStrand_cmds (s : State) (k : Nat) : (s.dropStrand k).cmds = s.cmds := rfl
@[simp] theorem State.dropStrand_pools (s : State) (k : Nat) : (s.dropStrand k).pools = s.pools := rfl
@[simp] theorem State.dropStrand_fw (s : State) (k : Nat) : (s.dropStrand k).fw = s.fw := rfl
@[simp] theorem State.dropStrand_links (s : State) (k : Nat) : (s.dropStrand k).links = s.links := rfl
@[simp] theorem State.dropStrand_ras (s : State) (k : Nat) : (s.dropStrand k).ras = s.ras := rfl
@[simp] theorem State.dropStrand_waiting (s : State) (k : Nat) : (s.dropStrand k).waiting = s.waiting := rfl
@[simp] theorem State.dropStrand_tlb (s : State) (k : Nat) : (s.dropStrand k).tlb = s.tlb := rfl
@[simp] theorem State.dropStrand_walks (s : State) (k : Nat) : (s.dropStrand k).walks = s.walks := rfl
@[simp] theorem State.dropStrand_undo (s : State) (k : Nat) : (s.dropStrand k).undo = s.undo := rfl
@[simp] theorem State.dropStrand_tap (s : State) (k : Nat) : (s.dropStrand k).tap = s.tap := rfl
@[simp] theorem State.dropStrand_parked (s : State) (k : Nat) : (s.dropStrand k).parked = s.parked := rfl
@[simp] theorem State.dropStrand_agenda (s : State) (k : Nat) : (s.dropStrand k).agenda = s.agenda := rfl

/-- Counting changes the issuing strand alone. -/
theorem State.tally_eq (s : State) (e : Evs) : s.tally e = s.setMe fun o => o.tally e := by rw [State.tally]

end Sys2Proof.Machine
end

