-- ==== Sys2Proof/Laws/Run.lean ====
section
/-! SUPPORT. What issuing a bundle comes to, said once: the start of a bundle, a completed one, a frozen one, and a pair of which
one syllable is idle. -/

namespace Sys2Proof.Machine

open Sys2Proof

/-- The start of a bundle changes the start tick of a launch and its statistics, nothing else. -/
theorem State.noteStart_eq (s : State) : s.noteStart = { s with sched := s.noteStart.sched } := by
  unfold State.noteStart
  split
  · rfl
  · split <;> rfl

theorem State.begin_eq (s : State) : s.begin = { s with sched := s.noteStart.sched } := s.noteStart_eq

@[simp] theorem State.begin_me (s : State) : s.begin.me = s.me := by rw [State.begin_eq]
@[simp] theorem State.begin_power (s : State) : s.begin.power = s.power := by rw [State.begin_eq]
@[simp] theorem State.begin_tick (s : State) : s.begin.tick = s.tick := by rw [State.begin_eq]
@[simp] theorem State.begin_free (s : State) : s.begin.free = s.free := by rw [State.begin_eq]
@[simp] theorem State.begin_uid (s : State) : s.begin.uid = s.uid := by rw [State.begin_eq]
@[simp] theorem State.begin_others (s : State) : s.begin.others = s.others := by rw [State.begin_eq]
@[simp] theorem State.begin_mem (s : State) : s.begin.mem = s.mem := by rw [State.begin_eq]
@[simp] theorem State.begin_poison (s : State) : s.begin.poison = s.poison := by rw [State.begin_eq]
@[simp] theorem State.begin_cores (s : State) : s.begin.cores = s.cores := by rw [State.begin_eq]
@[simp] theorem State.begin_homes (s : State) : s.begin.homes = s.homes := by rw [State.begin_eq]
@[simp] theorem State.begin_cmds (s : State) : s.begin.cmds = s.cmds := by rw [State.begin_eq]
@[simp] theorem State.begin_pools (s : State) : s.begin.pools = s.pools := by rw [State.begin_eq]
@[simp] theorem State.begin_fw (s : State) : s.begin.fw = s.fw := by rw [State.begin_eq]
@[simp] theorem State.begin_links (s : State) : s.begin.links = s.links := by rw [State.begin_eq]
@[simp] theorem State.begin_ras (s : State) : s.begin.ras = s.ras := by rw [State.begin_eq]
@[simp] theorem State.begin_tlb (s : State) : s.begin.tlb = s.tlb := by rw [State.begin_eq]
@[simp] theorem State.begin_walks (s : State) : s.begin.walks = s.walks := by rw [State.begin_eq]
@[simp] theorem State.begin_undo (s : State) : s.begin.undo = s.undo := by rw [State.begin_eq]
@[simp] theorem State.begin_tap (s : State) : s.begin.tap = s.tap := by rw [State.begin_eq]
@[simp] theorem State.begin_waiting (s : State) : s.begin.waiting = s.waiting := by rw [State.begin_eq]
@[simp] theorem State.begin_parked (s : State) : s.begin.parked = s.parked := by rw [State.begin_eq]
@[simp] theorem State.begin_agenda (s : State) : s.begin.agenda = s.agenda := by rw [State.begin_eq]
@[simp] theorem State.begin_core (s : State) (i : Nat) : s.begin.core i = s.core i := by simp [State.core]

/-- A bundle that can issue does what its syllable does. -/
theorem runSyl_eq (b : Bool) (f : Syl) (s : State) (h : canIssue s) : runSyl b f s = s.begin.finish b (f s.begin.me s.begin) := by
  have h' : s.me.winFault = false := h
  simp [runSyl, h']

/-- A syllable that only changes the strand ends the bundle with that change. -/
theorem runSyl_ends (b : Bool) (f : Syl) (g : Strand → Strand) (s : State) (h : canIssue s)
    (hf : f s.begin.me s.begin = .ok (s.begin.setMe g) .next) : runSyl b f s = ends s g := by
  rw [runSyl_eq b f s h, hf]; rfl

/-- The same for an A syllable. -/
theorem issueA_ends (f : Syl) (g : Strand → Strand) (s : State) (h : canIssue s)
    (hf : f s.begin.me s.begin = .ok (s.begin.setMe g) .next) : issueA f s = .next (ends s g) := by
  rw [issueA, runSyl_ends _ f g s h hf]

/-- The same for a B syllable. -/
theorem issueB_ends (f : Syl) (g : Strand → Strand) (s : State) (h : canIssue s)
    (hf : f s.begin.me s.begin = .ok (s.begin.setMe g) .next) : issueB f s = .next (ends s g) := by
  rw [issueB, runSyl_ends _ f g s h hf]

/-- A syllable that writes one g register. -/
theorem issueA_gives (f : Syl) (d : R5) (x : Word) (s : State) (h : canIssue s)
    (hf : f s.begin.me s.begin = retG s.begin d x) : issueA f s = .next (gives s d x) :=
  issueA_ends f _ s h hf

/-- Beside an idle B syllable a bundle is its A syllable alone (05 R142). -/
theorem runPair_vnop (a : Instr) (f : Syl) (s : State) (vnop : Syl) (hv : ∀ o s, vnop o s = .ok s .next) :
    runPair a f vnop s = runSyl false f s := by
  unfold runPair runSyl
  refine if_congr Iff.rfl rfl ?_
  unfold pairOut State.finish
  cases f s.begin.me s.begin with
  | ok s1 c => simp [hv, applyPair, completeBoth]
  | freeze s1 r qa => simp [applyPair]
  | park s1 p => simp [applyPair]

/-- Counting no event changes nothing. -/
theorem Strand.count_zero (o : Strand) (i : Nat) (h : ∀ j, (o.ev.getD j 0).toNat ≤ 0xFFFFFFFF := by intro j; have := (o.ev.getD j 0).isLt; omega) :
    o.count i 0 = o := by
  unfold Strand.count
  have hi := h i
  have : BitVec.ofNat 32 (Nat.min 0xFFFFFFFF ((o.ev.getD i 0).toNat + 0)) = o.ev.getD i 0 := by
    rw [Nat.add_zero]
    have : Nat.min 0xFFFFFFFF (o.ev.getD i 0).toNat = (o.ev.getD i 0).toNat := Nat.min_eq_right hi
    rw [this]; simp
  rw [this]
  have : o.ev.setIfInBounds i (o.ev.getD i 0) = o.ev := by
    ext j hj
    rw [Vector.getElem_setIfInBounds]
    split
    · rename_i h; subst h; simp [Vector.getD, hj]
    · rfl
  rw [this]

end Sys2Proof.Machine
end

