-- ==== Sys2Proof/Laws/Bundles.lean ====
section
/-! SUPPORT. A bundle of which one syllable is idle: what a B syllable can answer, and that `exec` of an instruction is the bundle in
which `bundlePair` puts it. -/

namespace Sys2Proof.Machine

open Sys2Proof

/-! ## What a B syllable answers -/

/-- A syllable moves the PC by one bundle where it completes, and has no effect where it freezes; a matrix step holds its bundle. -/
def plainOut (s : State) : SylOut → Prop
  | .ok _ c => c = .next ∨ (∃ f, c = .after f) ∨ ∃ f, c = .hold f
  | .freeze s1 _ _ => s1 = s
  | .park _ _ => True

theorem plainOut_retV (s0 s : State) (d : R5) (x : Vec × Evs) : plainOut s0 (retV s d x) := Or.inl rfl
theorem plainOut_retK (s0 s : State) (d : K3) (x : Word) (e : Evs) : plainOut s0 (retK s d x e) := Or.inl rfl
theorem plainOut_retG (s0 s : State) (d : R5) (x : Word) : plainOut s0 (retG s d x) := Or.inl rfl
theorem plainOut_frz (s : State) (c : Cause) : plainOut s (frz s c) := rfl

theorem plainOut_retConv (s0 s : State) (vd : R5) (x : Vec) (e : Evs) (dr : Bool) (r : Word) : plainOut s0 (retConv s vd x e dr r) :=
  Or.inl rfl

theorem plainOut_trapOr (o : Strand) (s : State) (n : Nat) (act isSub : Nat → Bool) (x : SylOut) (h : plainOut s x) :
    plainOut s (trapOr o s n act isSub x) := by
  unfold trapOr
  split
  · rfl
  · exact h

/-- A source of a vector operation: what follows answers plainly from the state it is given. -/
theorem plainOut_withSrc (va : VSrc) (o : Strand) (s : State) (k : Vec → State → SylOut) (h : ∀ a s1, plainOut s1 (k a s1)) :
    plainOut s (withSrc va o s k) := by
  unfold withSrc
  split
  · exact h _ _
  · split
    · rfl
    · split
      · trivial
      · split
        · rfl
        · rename_i ws s1 _ _ _
          have := h (packLanes 64 (ws.map (·.toNat))) s1
          revert this
          cases k (packLanes 64 (ws.map (·.toNat))) s1 with
          | ok s2 c => exact id
          | freeze s2 r q => intro _; rfl
          | park s2 p => intro _; trivial

theorem plainOut_withImage (s : State) (o : Strand) (tbl : Bool) (k : Nat → List (BitVec 32) → SylOut) (h : ∀ b t, plainOut s (k b t)) :
    plainOut s (withImage s o tbl k) := by
  unfold withImage
  extract_lets p
  split
  · rfl
  · split
    · rfl
    · exact h _ _

theorem plainOut_takePlace (o : Strand) (s : State) (f : Nat → MStep) : plainOut s (takePlace o s f) := by
  unfold takePlace
  extract_lets c w
  split
  · trivial
  · exact Or.inr (Or.inr ⟨_, rfl⟩)

/-! ### The shared forms of the vector slot -/

theorem plainOut_vint2 (vd : R5) (va : VSrc) (vb : R5) (k : K3) (ew : Ew) (f : Nat → Nat → Nat → Nat × Evs) (o : Strand) (s : State) :
    plainOut s (vint2 vd va vb k ew f o s) := plainOut_withSrc _ _ _ _ fun _ _ => plainOut_retV _ _ _ _

theorem plainOut_vint1 (vd : R5) (va : VSrc) (k : K3) (ew : Ew) (f : Nat → Nat → Nat) (o : Strand) (s : State) :
    plainOut s (vint1 vd va k ew f o s) := plainOut_withSrc _ _ _ _ fun _ _ => plainOut_retV _ _ _ _

theorem plainOut_vcmp (kd : K3) (va : VSrc) (vb : R5) (k : K3) (ew : Ew) (c : Nat → Nat → Nat → Bool) (o : Strand) (s : State) :
    plainOut s (vcmp kd va vb k ew c o s) := plainOut_withSrc _ _ _ _ fun _ _ => plainOut_retK _ _ _ _ _

theorem plainOut_vfp2 (vd : R5) (va : VSrc) (vb : R5) (k : K3) (w : Fw) (f : FF → RMode → Bool → Nat → Nat → Nat × Evs) (o : Strand)
    (s : State) : plainOut s (vfp2 vd va vb k w f o s) :=
  plainOut_withSrc _ _ _ _ fun _ _ => plainOut_trapOr _ _ _ _ _ _ (plainOut_retV _ _ _ _)

theorem plainOut_vfp1 (vd : R5) (va : VSrc) (k : K3) (w : Fw) (op : FOp) (o : Strand) (s : State) :
    plainOut s (vfp1 vd va k w op o s) :=
  plainOut_withSrc _ _ _ _ fun _ _ => plainOut_trapOr _ _ _ _ _ _ (plainOut_retV _ _ _ _)

theorem plainOut_vfcmp (c : FCond) (kd : K3) (va : VSrc) (vb : R5) (k : K3) (w : Fw) (o : Strand) (s : State) :
    plainOut s (vfcmp c kd va vb k w o s) :=
  plainOut_withSrc _ _ _ _ fun _ _ => plainOut_trapOr _ _ _ _ _ _ (plainOut_retK _ _ _ _ _)

theorem plainOut_vsgn (f : Bool → Bool → Bool) (vd : R5) (va : VSrc) (vb : R5) (k : K3) (w : Fw) (o : Strand) (s : State) :
    plainOut s (vsgn f vd va vb k w o s) := plainOut_withSrc _ _ _ _ fun _ _ => plainOut_retV _ _ _ _

theorem plainOut_vfma (n : Bool) (vd va vb vc : R5) (k : K3) (w : Fw) (o : Strand) (s : State) :
    plainOut s (vfma n vd va vb vc k w o s) := plainOut_trapOr _ _ _ _ _ _ (plainOut_retV _ _ _ _)

theorem plainOut_venc (sc : Bool) (vd va : R5) (c4 : Bool) (rm : Rm) (sat : Bool) (k : K3) (tbl : Bool) (o : Strand) (s : State) :
    plainOut s (venc sc vd va c4 rm sat k tbl o s) := by
  unfold venc
  refine plainOut_withImage _ _ _ _ fun b t => ?_
  split
  · exact plainOut_frz _ _
  · exact plainOut_trapOr _ _ _ _ _ _ (plainOut_retConv _ _ _ _ _ _ _)

theorem plainOut_vdec (sc : Bool) (vd va : R5) (c4 : Bool) (rm : Rm) (sat : Bool) (k : K3) (tbl : Bool) (o : Strand) (s : State) :
    plainOut s (vdec sc vd va c4 rm sat k tbl o s) := by
  unfold vdec
  exact plainOut_withImage _ _ _ _ fun b t => plainOut_retV _ _ _ _

theorem plainOut_vsort (d : Bool) (vd : R5) (va : VSrc) (o : Strand) (s : State) : plainOut s (vsort d vd va o s) :=
  plainOut_withSrc _ _ _ _ fun _ _ => plainOut_retV _ _ _ _

theorem plainOut_vmerge (d : Bool) (vd : R5) (va : VSrc) (vb : R5) (o : Strand) (s : State) : plainOut s (vmerge d vd va vb o s) :=
  plainOut_withSrc _ _ _ _ fun _ _ => plainOut_retV _ _ _ _

theorem plainOut_mmas (qa qb : MSrc) (acc : BitVec 12) (t z g f : Bool) (o : Strand) (s : State) :
    plainOut s (sylMmas qa qb acc t z g f o s) := by
  unfold sylMmas
  split
  · exact plainOut_frz _ _
  · exact plainOut_takePlace _ _ _

theorem plainOut_mzero (acc : BitVec 12) (o : Strand) (s : State) : plainOut s (sylMzero acc o s) := by
  unfold sylMzero
  split
  · exact plainOut_frz _ _
  · exact plainOut_takePlace _ _ _

theorem plainOut_mtab (b a : Bool) (o : Strand) (s : State) : plainOut s (sylMtab b a o s) := by
  unfold sylMtab
  split
  · exact plainOut_frz _ _
  · exact plainOut_takePlace _ _ _

theorem plainOut_vqpush (q : Q4) (va : R5) (o : Strand) (s : State) : plainOut s (sylVqpush q va o s) := by
  unfold sylVqpush
  split
  · exact plainOut_frz _ _
  · split
    · exact Or.inl rfl
    · trivial

theorem plainOut_vtsum (vd : R5) (va : VSrc) (vb : R5) (k : K3) (w : Fw) (o : Strand) (s : State) : plainOut s (sylVtsum vd va vb k w o s) :=
  plainOut_withSrc _ _ _ _ fun _ _ => plainOut_trapOr _ _ _ _ _ _ (plainOut_retV _ _ _ _)

theorem plainOut_vred (vd : R5) (va : VSrc) (kind : RedKind) (k : K3) (ew : Ew) (o : Strand) (s : State) :
    plainOut s (sylVred vd va kind k ew o s) :=
  plainOut_withSrc _ _ _ _ fun _ _ => plainOut_trapOr _ _ _ _ _ _ (plainOut_retV _ _ _ _)

theorem plainOut_vscan (vd : R5) (va : VSrc) (kind : RedKind) (k : K3) (ew : Ew) (o : Strand) (s : State) :
    plainOut s (sylVscan vd va kind k ew o s) :=
  plainOut_withSrc _ _ _ _ fun _ _ => plainOut_trapOr _ _ _ _ _ _ (plainOut_retV _ _ _ _)

theorem plainOut_vcvt (vd va : R5) (src dst : Fmt) (rm : Rm) (sat : Bool) (k : K3) (o : Strand) (s : State) :
    plainOut s (sylVcvt vd va src dst rm sat k o s) := plainOut_trapOr _ _ _ _ _ _ (plainOut_retConv _ _ _ _ _ _ _)

/-- Every syllable of the vector slot answers plainly. -/
theorem plainOut_of_b : ∀ (i : Instr) (f : Syl), sylOf i = some f → (bundlePair i).1 = .anop → ∀ o s, plainOut s (f o s) := by
  intro i f h hb o s
  cases i
  case anop => cases h; exact Or.inl rfl
  case vnop => cases h; exact Or.inl rfl
  case kand => cases h; exact Or.inl rfl
  case kor => cases h; exact Or.inl rfl
  case kxor => cases h; exact Or.inl rfl
  case knot => cases h; exact Or.inl rfl
  case kmov => cases h; exact Or.inl rfl
  case vadd | vaddSat | vsubVector | vsubSat | vmul | vmulh | vand | vor | vxor | vandn | vsll | vsrl | vsra | vmin | vmax | vminu
      | vmaxu =>
    cases h; exact plainOut_vint2 _ _ _ _ _ _ _ _
  case vabs | vpopc | vfkey =>
    cases h; exact plainOut_vint1 _ _ _ _ _ _ _
  case vsel => cases h; exact plainOut_withSrc _ _ _ _ fun _ _ => plainOut_retV _ _ _ _
  case vcmpEq | vcmpNe | vcmpLt | vcmpLe | vcmpLtu | vcmpLeu =>
    cases h; exact plainOut_vcmp _ _ _ _ _ _ _ _
  case vmadd => cases h; exact plainOut_retV _ _ _ _
  case vfadd | vfsub | vfmul | vfdiv | vfmin | vfmax =>
    cases h; exact plainOut_vfp2 _ _ _ _ _ _ _ _
  case vfsqrt | vfrcp | vfrsq | vfexp2 | vflog2 =>
    cases h; exact plainOut_vfp1 _ _ _ _ _ _ _
  case vtsum => cases h; exact plainOut_vtsum _ _ _ _ _ _ _
  case vfcmpEq | vfcmpLt | vfcmpLe | vfcmpUn =>
    cases h; exact plainOut_vfcmp _ _ _ _ _ _ _ _
  case vfsgnCp | vfsgnNeg | vfsgnXor =>
    cases h; exact plainOut_vsgn _ _ _ _ _ _ _ _
  case vfclass => cases h; exact plainOut_withSrc _ _ _ _ fun _ _ => plainOut_retV _ _ _ _
  case vfma | vfnma =>
    cases h; exact plainOut_vfma _ _ _ _ _ _ _ _ _
  case vcvt => cases h; exact plainOut_vcvt _ _ _ _ _ _ _ _ _
  case venc | vencS =>
    cases h; exact plainOut_venc _ _ _ _ _ _ _ _ _ _
  case vdec | vdecS =>
    cases h; exact plainOut_vdec _ _ _ _ _ _ _ _ _ _
  case vperm => cases h; exact plainOut_withSrc _ _ _ _ fun _ _ => plainOut_retV _ _ _ _
  case vbcast => cases h; exact plainOut_retV _ _ _ _
  case vext => cases h; exact plainOut_withSrc _ _ _ _ fun _ _ => plainOut_retG _ _ _ _
  case vins => cases h; exact Or.inl rfl
  case vslideUp => cases h; exact plainOut_withSrc _ _ _ _ fun _ _ => plainOut_retV _ _ _ _
  case vslideDn => cases h; exact plainOut_withSrc _ _ _ _ fun _ _ => plainOut_retV _ _ _ _
  case vred => cases h; exact plainOut_vred _ _ _ _ _ _ _
  case vscan => cases h; exact plainOut_vscan _ _ _ _ _ _ _
  case vcmprs => cases h; exact plainOut_withSrc _ _ _ _ fun _ _ => plainOut_retV _ _ _ _
  case vsortA | vsortD =>
    cases h; exact plainOut_vsort _ _ _ _ _
  case vmergeA | vmergeD =>
    cases h; exact plainOut_vmerge _ _ _ _ _ _
  case mmas => cases h; exact plainOut_mmas _ _ _ _ _ _ _ _ _
  case mzero => cases h; exact plainOut_mzero _ _ _
  case mtab => cases h; exact plainOut_mtab _ _ _ _
  case vqpush => cases h; exact plainOut_vqpush _ _ _ _
  all_goals (cases hb)

/-- Beside an idle A syllable a bundle is its B syllable alone (05 R142). -/
theorem runPair_anop (f : Syl) (s : State) (hf : ∀ o s, plainOut s (f o s)) : runPair .anop sylAnop f s = runSyl true f s := by
  unfold runPair runSyl
  refine if_congr Iff.rfl rfl ?_
  unfold pairOut State.finish
  generalize s.begin = t
  have h := hf t.me t
  cases hx : f t.me t with
  | ok s1 c =>
    rw [hx] at h
    rcases h with rfl | ⟨g, rfl⟩ | ⟨g, rfl⟩ <;> simp [sylAnop, hx, applyPair, completeBoth, State.complete]
  | freeze s1 r qa =>
    rw [hx] at h
    have h : s1 = t := h
    subst h
    simp [sylAnop, hx, applyPair]
  | park s1 p => simp [sylAnop, hx, applyPair]

/-- An instruction of a slot that runs its syllable is the bundle that holds it beside an idle one. -/
def isBundle (i : Instr) (s : State) : Prop := exec i s = .next (runBundle (bundlePair i).1 (bundlePair i).2 s)

/-- `exec` of a syllable is the bundle that holds it beside an idle one. -/
theorem exec_isBundle (i : Instr) (h : (sylOf i).isSome = true) (s : State) : isBundle i s := by
  have ha : ∀ (f : Syl), sylOf i = some f → (bundlePair i) = (i, .vnop) → exec i s = issueA f s → isBundle i s := by
    intro f hf hp he
    rw [isBundle, he, hp, issueA, ← runPair_vnop i f s sylVnop fun _ _ => rfl]
    simp only [runBundle, hf]
    rfl
  have hb : ∀ (f : Syl), sylOf i = some f → (bundlePair i) = (.anop, i) → exec i s = issueB f s → isBundle i s := by
    intro f hf hp he
    rw [isBundle, he, hp, issueB, ← runPair_anop f s (plainOut_of_b i f hf (by rw [hp]))]
    simp only [runBundle, hf]
    rfl
  cases i
  case add | sub | mul | mulh | mulhu | div | divu | rem | remu | and | or | xor | andn | orn | sll | srl | sra | rol | ror | min
      | max | minu | maxu | slt | sltu | seq | sne | clz | ctz | popc | brev | bswap | sel | adds | addi | andi | ori | xori
      | slli | srli | srai | slti | sltui | lui | lit | lith | addpc | extr | extru | insr | beq | bne | blt | bge | bltu | bgeu
      | j | wcall | ldb | ldbu | ldh | ldhu | ldw | ldwu | ldd | stb | sth | stw | std | vld | vst | vlds | vsts | vgath | vscat
      | vldb | vldt | pf | cflush | xswap | vmap | vmapRel | vunmap | vdraftNew | vdraftJoin | vpub | vdone | vlatest | vsub
      | vunsub | vretain | vdrop | lrw | sch | rls | amo | acas | ured | uredv | odecl | ofree | fenceAcq | fenceLl | fenceRel
      | fenceFull | sqwait | sqinc | sqrd | qpush | qpop | qstat | qpushc | msg | spawn | join | steal | taskw | texit | launch
      | vtrig | gang | ungang | bar | bara | barw | nret | wait | yield | mfs | mts | ecall | brk | trmark | halt | frdReg
      | frdState | fwrReg | fwrState | frdv | fwrv | frq | fresRetry | fresSkip | fresRedirect | fkillAbandon | fkillCount
      | capxfer | capdrop | uexit | cxrd | cxwr | anop | jl | jlr | wret | repRegister | repImmediate =>
    exact ha _ rfl rfl rfl
  case vnop | kand | kor | kxor | knot | kmov | vadd | vaddSat | vsubVector | vsubSat | vmul | vmulh | vand | vor | vxor | vandn
      | vsll | vsrl | vsra | vmin | vmax | vminu | vmaxu | vabs | vpopc | vsel | vcmpEq | vcmpNe | vcmpLt | vcmpLe | vcmpLtu
      | vcmpLeu | vmadd | vfadd | vfsub | vfmul | vfdiv | vfmin | vfmax | vfsqrt | vfrcp | vfrsq | vfexp2 | vflog2 | vtsum
      | vfcmpEq | vfcmpLt | vfcmpLe | vfcmpUn | vfsgnCp | vfsgnNeg | vfsgnXor | vfclass | vfma | vfnma | vcvt | venc | vdec
      | vencS | vdecS | vfkey | vperm | vbcast | vext | vins | vslideUp | vslideDn | vred | vscan | vcmprs | vsortA | vsortD
      | vmergeA | vmergeD | mmas | mzero | mtab | vqpush =>
    exact hb _ rfl rfl rfl
  all_goals exact (Bool.false_ne_true h).elim

end Sys2Proof.Machine
end

