-- ==== Sys2Proof/Laws/Encoding.lean ====
section
/-! SUPPORT. Fields of joined fields, and the two bundles that `encode` writes: what a round-trip proof cites instead of
unfolding the decoder's tables. -/

namespace Sys2Proof

theorem cat_lt {x k y n : Nat} (hk : k ≤ n) (hy : y < 2 ^ k) (hx : x < 2 ^ (n - k)) : cat x k y < 2 ^ n := by
  obtain ⟨d, rfl⟩ := Nat.exists_eq_add_of_le hk
  rw [Nat.add_sub_cancel_left] at hx
  have : (x + 1) * 2 ^ k ≤ 2 ^ d * 2 ^ k := Nat.mul_le_mul_right _ hx
  rw [cat, Nat.pow_add, Nat.mul_comm (2 ^ k)]
  rw [Nat.succ_mul] at this
  omega

@[simp] theorem fld_cat_lo {x k y lo len : Nat} (h : lo + len ≤ k) : fld (cat x k y) lo len = fld y lo len := by
  obtain ⟨d, rfl⟩ := Nat.exists_eq_add_of_le h
  have e : cat x (lo + len + d) y = y + 2 ^ lo * (2 ^ len * (x * 2 ^ d)) := by simp only [cat, Nat.pow_add]; ring
  rw [fld, e, Nat.add_mul_div_left _ _ (by positivity), Nat.add_mul_mod_self_left, fld]

@[simp] theorem fld_cat_hi {x k y lo len : Nat} (hy : y < 2 ^ k) (h : k ≤ lo) : fld (cat x k y) lo len = fld x (lo - k) len := by
  obtain ⟨d, rfl⟩ := Nat.exists_eq_add_of_le h
  rw [fld, cat, Nat.pow_add, ← Nat.div_div_eq_div_mul, Nat.add_comm, Nat.add_mul_div_right _ _ (by positivity), Nat.div_eq_of_lt hy,
    Nat.zero_add, Nat.add_sub_cancel_left, fld]

theorem fld_zero_iff {w lo len k : Nat} (h : k ≤ len) :
    fld w lo len = 0 ↔ fld w lo k = 0 ∧ fld w (lo + k) (len - k) = 0 := by
  obtain ⟨d, rfl⟩ := Nat.exists_eq_add_of_le h
  simp only [fld, Nat.add_sub_cancel_left, Nat.pow_add]
  rw [← Nat.div_div_eq_div_mul, Nat.mod_mul]
  have : 0 < 2 ^ k := by positivity
  constructor
  · intro e
    constructor
    · omega
    · rcases Nat.eq_zero_or_pos (w / 2 ^ lo / 2 ^ k % 2 ^ d) with h | h
      · exact h
      · have := Nat.mul_pos this h; omega
  · rintro ⟨a, b⟩; rw [a, b]; simp

@[simp] theorem fld_self {x len : Nat} (h : x < 2 ^ len) : fld x 0 len = x := by
  rw [fld, Nat.pow_zero, Nat.div_one, Nat.mod_eq_of_lt h]

@[simp] theorem fld_small {x lo len : Nat} (h : x < 2 ^ lo) : fld x lo len = 0 := by
  rw [fld, Nat.div_eq_of_lt h, Nat.zero_mod]

theorem fld_ne_zero {w lo len v : Nat} (h : fld w lo len = v) (hv : v ≠ 0) (hk : lo + len ≤ 32) : fld w 0 32 ≠ 0 := by
  intro e
  obtain ⟨-, e⟩ := (fld_zero_iff (show lo ≤ 32 by omega)).1 e
  obtain ⟨e, -⟩ := (fld_zero_iff (show len ≤ 32 - lo by omega)).1 e
  exact hv (h ▸ by simpa using e)

theorem decodeA_low {w x : Nat} (h : fld w 0 32 ≠ 0) (m : fld w 25 6 < 0x18) : decodeA w x = decodeA1 w x := by
  rw [decodeA, if_neg h, if_pos m]

theorem decodeA_high {w x : Nat} (h : fld w 0 32 ≠ 0) (m : ¬fld w 25 6 < 0x18) : decodeA w x = decodeA2 w x := by
  rw [decodeA, if_neg h, if_neg m]

@[simp] theorem cat_zero {k y : Nat} : cat 0 k y = y := by simp [cat]

/-! Codes fit their fields and read back. -/

theorem b2n_lt (b : Bool) : b2n b < 2 := by cases b <;> decide
theorem rqCode_lt (q : Rq) : q.code < 4 := by cases q <;> decide
theorem ewCode_lt (q : Ew) : q.code < 4 := by cases q <;> decide
theorem fwCode_lt (q : Fw) : q.code < 2 := by cases q <;> decide
theorem rmCode_lt (q : Rm) : q.code < 8 := by cases q <;> decide
theorem fmtCode_lt (q : Fmt) : q.code < 16 := by cases q <;> decide
theorem redCode_lt (q : RedKind) : q.code < 16 := by cases q <;> decide
theorem amoCode_lt (q : AmoOp) : q.code < 16 := by cases q <;> decide
theorem classCode_lt (q : TileClass) : q.code < 4 := by cases q <;> decide
@[simp] theorem b2n_eq_one (b : Bool) : b2n b = 1 ↔ b = true := by cases b <;> decide
@[simp] theorem b2n_eq_zero (b : Bool) : b2n b = 0 ↔ b = false := by cases b <;> decide
@[simp] theorem rqOf_code (q : Rq) : rqOf q.code = q := by cases q <;> rfl
@[simp] theorem ewOf_code (q : Ew) : ewOf q.code = q := by cases q <;> rfl
@[simp] theorem rmOf_code (q : Rm) : rmOf q.code = some q := by cases q <;> rfl
@[simp] theorem fmtOf_code (q : Fmt) : fmtOf q.code = some q := by cases q <;> rfl
@[simp] theorem redOf_code (q : RedKind) : redOf q.code = some q := by cases q <;> rfl
@[simp] theorem amoOf_code (q : AmoOp) : amoOf q.code = some q := by cases q <;> rfl
@[simp] theorem classOf_code (q : TileClass) : classOf q.code = some q := by cases q <;> rfl

@[simp] theorem b2n_false : b2n false = 0 := rfl
@[simp] theorem b2n_true : b2n true = 1 := rfl
@[simp] theorem scopeOf_code (q : Scope) : scopeOf q.code = some q := by cases q <;> rfl
theorem scopeCode_lt (q : Scope) : q.code < 8 := by cases q <;> decide
@[simp] theorem annKind_none {n} : annKind n none = 0 := rfl
@[simp] theorem annKind_some {n s} : annKind n (some s) = n := rfl
@[simp] theorem annScope_none : annScope none = 0 := rfl
@[simp] theorem annScope_some {s} : annScope (some s) = s.code := rfl
@[simp] theorem vsrcCode_reg {r} : (VSrc.reg r).code = r.toNat := rfl
@[simp] theorem vsrcCode_que {q} : (VSrc.que q).code = q.toNat := rfl
@[simp] theorem vsrcQa_reg {r} : (VSrc.reg r).qa = 0 := rfl
@[simp] theorem vsrcQa_que {q} : (VSrc.que q).qa = 1 := rfl
@[simp] theorem msrcBits_que {q} : (MSrc.que q).bits = q.toNat := rfl
@[simp] theorem msrcBits_regs {g} : (MSrc.regs g).bits = cat 1 4 g.toNat := rfl

@[simp] theorem fw_code (q : Fw) : (if q.code = 1 then Fw.f64 else Fw.f32) = q := by cases q <;> rfl
@[simp] theorem cat_12 : cat 6 1 0 = 12 := rfl
@[simp] theorem cat_13 : cat 6 1 1 = 13 := rfl
theorem fld_even {x : Nat} (h : x % 2 = 0) : fld x 0 1 = 0 := by simp [fld, h]
theorem fld_cat_zero {x k y lo len : Nat} (hk : lo ≤ k) (hl : k < lo + len) (e : fld (cat x k y) lo len = 0) (hy : y < 2 ^ k) (hx : x < 2 ^ (lo + len - k)) : x = 0 := by
  obtain ⟨-, e⟩ := (fld_zero_iff (show k - lo ≤ len by omega)).1 e
  rw [fld_cat_hi hy (by omega), show lo + (k - lo) - k = 0 by omega, show len - (k - lo) = lo + len - k by omega, fld_self hx] at e
  exact e
theorem r5_0 : (0 : R5).toNat = 0 := rfl
theorem r5_1 : (1 : R5).toNat = 1 := rfl
theorem r5_2 : (2 : R5).toNat = 2 := rfl
theorem r5_3 : (3 : R5).toNat = 3 := rfl
theorem r5_4 : (4 : R5).toNat = 4 := rfl
theorem k3_0 : (0 : K3).toNat = 0 := rfl

/-! The formats as joined fields. -/

@[simp] theorem aW_eq {m d a x} : aW m d a x = cat m 25 (cat d.toNat 20 (cat a.toNat 15 x)) := rfl
@[simp] theorem aR_eq {m d a b x} : aR m d a b x = aW m d a (cat b.toNat 10 x) := rfl
@[simp] theorem aI_eq {m d a i} : aI m d a i = cat i.lbit 31 (aW m d a i.field) := rfl
@[simp] theorem aM_eq {m d a q i} : aM m d a q i = cat i.lbit 31 (aW m d a (cat q.code 13 i.field)) := rfl
@[simp] theorem aV_eq {l v b q o x} : aV l v b q o x = cat l 31 (aW 0x23 v b (cat q.code 13 (cat o 9 x))) := rfl
@[simp] theorem bV_eq {m d a b k e f} :
    bV m d a b k e f = cat m 26 (cat d 21 (cat a.code 16 (cat b 11 (cat k.toNat 8 (cat e 6 (cat a.qa 5 f)))))) := rfl
@[simp] theorem bV4_eq {m d a b c k e} : bV4 m d a b c k e =
    cat m 26 (cat d.toNat 21 (cat a.toNat 16 (cat b.toNat 11 (cat c.toNat 6 (cat k.toNat 3 (cat e 1 0)))))) := rfl
@[simp] theorem bC_eq {m d a s t r x k y} : bC m d a s t r x k y =
    cat m 26 (cat d.toNat 21 (cat a.toNat 16 (cat s 12 (cat t 8 (cat r 5 (cat (b2n x) 4 (cat k.toNat 1 (b2n y)))))))) := rfl
@[simp] theorem lbit_fld {n} {x : BitVec n} : (Imm.fld x).lbit = 0 := rfl
@[simp] theorem lbit_lit {n} {x : BitVec 32} : (Imm.lit x : Imm n).lbit = 1 := rfl
@[simp] theorem field_fld {n} {x : BitVec n} : (Imm.fld x).field = x.toNat := rfl
@[simp] theorem field_lit {n} {x : BitVec 32} : (Imm.lit x : Imm n).field = 0 := rfl
@[simp] theorem word_fld {n} {x : BitVec n} : (Imm.fld x).word = 0 := rfl
@[simp] theorem word_lit {n} {x : BitVec 32} : (Imm.lit x : Imm n).word = x.toNat := rfl

/-! The two bundles. -/

/-- What the round trip says of one instruction. -/
def roundTrips (i : Instr) : Prop :=
  ∀ aw bw, i.wf = true → encode i = some (aw, bw) →
    aw < 2 ^ 32 ∧ bw < 2 ^ 32 ∧ decodeBundle true true aw bw = .good (bundlePair i).1 (bundlePair i).2

theorem roundTrips_a {i : Instr} {w x : Nat} (he : encode i = some (w, x)) (hp : bundlePair i = (i, .vnop)) (hw : w < 2 ^ 32)
    (hx : x < 2 ^ 32) (hl : fld w 31 1 = 1 ∨ x = 0)
    (hd : i.wf = true → ∀ v, (∀ lo len, fld v lo len = fld w lo len) → decodeA v x = .ins i) : roundTrips i := by
  intro aw bw hi h
  simp only [he, Option.some.injEq, Prod.mk.injEq] at h
  obtain ⟨rfl, rfl⟩ := h
  refine ⟨hw, hx, ?_⟩
  have hb : (if bit w 31 then Dec.ins .vnop else decodeB true x) = .ins .vnop := by
    rcases hl with h | rfl
    · simp [bit, h]
    · split <;> rfl
  have hc : conflict i .vnop = false := by simp [conflict, writesB]
  simp [decodeBundle, hd hi w (fun _ _ => rfl), hb, hc, hp]

theorem roundTrips_b {i : Instr} {w : Nat} (he : encode i = some (anopWord, w)) (hp : bundlePair i = (.anop, i)) (hw : w < 2 ^ 32)
    (hd : i.wf = true → ∀ v, (∀ lo len, fld v lo len = fld w lo len) → decodeB true v = .ins i) : roundTrips i := by
  intro aw bw hi h
  simp only [he, Option.some.injEq, Prod.mk.injEq] at h
  obtain ⟨rfl, rfl⟩ := h
  refine ⟨by decide, hw, ?_⟩
  have ha : decodeA anopWord w = .ins .anop := rfl
  have hb : (if bit anopWord 31 then Dec.ins .vnop else decodeB true w) = .ins i := (if_neg (by decide)).trans (hd hi w fun _ _ => rfl)
  have hc : conflict .anop i = false := rfl
  simp [decodeBundle, ha, hb, hc, hp, needsCox]

/-! The small helpers of the decoder, for simp. -/

@[simp] theorem selOk_eq {w : Nat} : selOk w = (z w 6 6 && (!bit w 5 || z w 3 2)) := rfl
@[simp] theorem decAnn_eq {w kind : Nat} {mbz : Bool} {f : Option Scope → Instr} : decAnn w kind mbz f =
    if fld w 13 2 = 0 then mk (mbz && z w 10 3) (f none)
  else if fld w 13 2 = kind then
    match scopeOf (fld w 10 3) with
    | none => .fault Cause.illegalFn
    | some s => mk mbz (f (some s))
  else .fault Cause.illegalFn := rfl
@[simp] theorem noLit_eq {l : Bool} {d : Dec} : noLit l d =
    match d with
  | .fault c => .fault c
  | d => if l then .fault Cause.literalMisuse else d := rfl
@[simp] theorem needLit_eq {l : Bool} {d : Dec} : needLit l d =
    match d with
  | .fault c => .fault c
  | d => if l then d else .fault Cause.literalMisuse := rfl
@[simp] theorem arr_eq {w : Nat} {f : R5 → R5 → R5 → Instr} : arr w f = f (r5 w 20) (r5 w 15) (r5 w 10) := rfl
@[simp] theorem immOk_eq {n lo w : Nat} : immOk n lo w = (!bit w 31 || decide (fld w lo n = 0)) := rfl
@[simp] theorem immOf_eq {n lo : Nat} {w lit : Nat} : immOf n lo w lit = if bit w 31 then .lit (BitVec.ofNat 32 lit) else .fld (BitVec.ofNat n (fld w lo n)) := rfl
@[simp] theorem mk_eq {mbz : Bool} {i : Instr} : mk mbz i = if mbz then .ins i else .fault Cause.fieldNonzero := rfl
@[simp] theorem mkChk_eq {mbz ok : Bool} {i : Instr} : mkChk mbz ok i = if mbz then (if ok then .ins i else .late Cause.illegalOperand) else .fault Cause.fieldNonzero := rfl
@[simp] theorem z_eq {w lo len : Nat} : z w lo len = decide (fld w lo len = 0) := rfl
@[simp] theorem bit_eq {w lo : Nat} : bit w lo = decide (fld w lo 1 = 1) := rfl
@[simp] theorem r5_eq {w lo : Nat} : r5 w lo = BitVec.ofNat 5 (fld w lo 5) := rfl
@[simp] theorem k3_eq {w lo : Nat} : k3 w lo = BitVec.ofNat 3 (fld w lo 3) := rfl
@[simp] theorem msrcOf_eq {w lo : Nat} : msrcOf w lo = if bit w (lo + 4) then .regs (BitVec.ofNat 2 (fld w lo 2)) else .que (BitVec.ofNat 4 (fld w lo 4)) := rfl
@[simp] theorem msrcOk_eq {w lo : Nat} : msrcOk w lo = (!bit w (lo + 4) || z w (lo + 2) 2) := rfl
@[simp] theorem bv_eq {w : Nat} {f : R5 → VSrc → R5 → K3 → Ew → Instr} : bv w f = mk (vsrcOk w) (f (r5 w 21) (vsrcOf w) (r5 w 11) (k3 w 8) (ewOf (fld w 6 2))) := rfl
@[simp] theorem bu_eq {w : Nat} {f : R5 → VSrc → K3 → Ew → Instr} : bu w f = mk (vsrcOk w && z w 11 5) (f (r5 w 21) (vsrcOf w) (k3 w 8) (ewOf (fld w 6 2))) := rfl
@[simp] theorem bk_eq {w : Nat} {f : K3 → VSrc → R5 → K3 → Ew → Instr} : bk w f = mk (vsrcOk w && z w 24 2) (f (k3 w 21) (vsrcOf w) (r5 w 11) (k3 w 8) (ewOf (fld w 6 2))) := rfl
@[simp] theorem bf_eq {w : Nat} {f : R5 → VSrc → R5 → K3 → Fw → Instr} : bf w f = mkChk (vsrcOk w) (bit w 7) (f (r5 w 21) (vsrcOf w) (r5 w 11) (k3 w 8) (fwOf w)) := rfl
@[simp] theorem bfu_eq {w : Nat} {f : R5 → VSrc → K3 → Fw → Instr} : bfu w f = mkChk (vsrcOk w && z w 11 5) (bit w 7) (f (r5 w 21) (vsrcOf w) (k3 w 8) (fwOf w)) := rfl
@[simp] theorem bfk_eq {w : Nat} {f : K3 → VSrc → R5 → K3 → Fw → Instr} : bfk w f = mkChk (vsrcOk w && z w 24 2) (bit w 7) (f (k3 w 21) (vsrcOf w) (r5 w 11) (k3 w 8) (fwOf w)) := rfl
@[simp] theorem vsrcOk_eq {w : Nat} : vsrcOk w = (!bit w 5 || z w 20 1) := rfl
@[simp] theorem vsrcOf_eq {w : Nat} : vsrcOf w = if bit w 5 then .que (BitVec.ofNat 4 (fld w 16 4)) else .reg (r5 w 16) := rfl
@[simp] theorem fwOf_eq {w : Nat} : fwOf w = if bit w 6 then .f64 else .f32 := rfl
@[simp] theorem decRed_eq {w : Nat} {f : R5 → VSrc → RedKind → K3 → Ew → Instr} : decRed w f =
    if vsrcOk w then
    match redOf (fld w 11 5) with
    | some kd =>
      if redOk kd (ewOf (fld w 6 2)) then .ins (f (r5 w 21) (vsrcOf w) kd (k3 w 8) (ewOf (fld w 6 2)))
      else .late Cause.illegalOperand
    | none => .late Cause.illegalOperand
  else .fault Cause.fieldNonzero := rfl
@[simp] theorem e64Ok_eq {w : Nat} : e64Ok w = decide (fld w 6 2 = 3) := rfl

end Sys2Proof
end

