-- ==== Sys2Proof/Laws/Events.lean ====
section
/-! SUPPORT. An event of the agenda is the constructor of Instr that has its name, and what one step can do is one of a few things. -/

namespace Sys2Proof.Machine

open Sys2Proof

/-- The constructor of Instr that an event runs. -/
noncomputable def Ev.instr : Ev → Instr
  | .gangForm leader => .gangForm leader
  | .gangCommit leader => .gangCommit leader
  | .noticeEntry key => .noticeEntry key
  | .gangNoticeEntry leader => .gangNoticeEntry leader
  | .windowSpill key => .windowSpill key
  | .windowRefill key => .windowRefill key
  | .remoteAccessComplete key => .remoteAccessComplete key
  | .homeAnswer key => .homeAnswer key
  | .meshWordArrival src q => .meshWordArrival src q
  | .messageDelivery src => .messageDelivery src
  | .dropNotice src q => .dropNotice src q
  | .arrivalNotice key x => .arrivalNotice key x
  | .reservationHandoff addr => .reservationHandoff addr
  | .enqueueResend key => .enqueueResend key
  | .countedMessageResend key slice => .countedMessageResend key slice
  | .releaseQueryAnswer key => .releaseQueryAnswer key
  | .sequenceCounterIncrement file idx inc => .sequenceCounterIncrement file idx inc
  | .objectRequest cluster pa req => .objectRequest cluster pa req
  | .collectRequest pa cluster => .collectRequest pa cluster
  | .mergeFold pa => .mergeFold pa
  | .partialEviction cluster line => .partialEviction cluster line
  | .silentEviction cluster line => .silentEviction cluster line
  | .invalidationReceive cluster line rcl => .invalidationReceive cluster line rcl
  | .versionPublish ver => .versionPublish ver
  | .rackStart ver => .rackStart ver
  | .rackComplete ver => .rackComplete ver
  | .floatComplete ver => .floatComplete ver
  | .taskDispatch uid => .taskDispatch uid
  | .dispatchRetry uid => .dispatchRetry uid
  | .stealRound key => .stealRound key
  | .matrixOperandStage core => .matrixOperandStage core
  | .matrixStepStart core => .matrixStepStart core
  | .matrixStepRetire core => .matrixStepRetire core
  | .tfetch uid => .tfetch uid
  | .tcopy uid => .tcopy uid
  | .tfill uid => .tfill uid
  | .treduce uid => .treduce uid
  | .tpost uid => .tpost uid
  | .tnote uid => .tnote uid
  | .tfloat uid => .tfloat uid
  | .track uid => .track uid
  | .commandStart uid => .commandStart uid
  | .commandComplete uid => .commandComplete uid
  | .combiningHoldExpiry uid => .combiningHoldExpiry uid
  | .collectiveChunkFold uid chunk => .collectiveChunkFold uid chunk
  | .umpireSpawn key => .umpireSpawn key
  | .umpirePoolTimeout key => .umpirePoolTimeout key
  | .strokeSlotReclaim core => .strokeSlotReclaim core
  | .strokeSlotLend core => .strokeSlotLend core
  | .launchRecordSeal ctx queue => .launchRecordSeal ctx queue
  | .dispatcherStep => .dispatcherStep
  | .launchWaitHolds uid => .launchWaitHolds uid
  | .classAgeing uid => .classAgeing uid
  | .rectangleReserve uid => .rectangleReserve uid
  | .localMemoryZeroed core => .localMemoryZeroed core
  | .swapOut key => .swapOut key
  | .strandRestore key => .strandRestore key
  | .launchEnd uid => .launchEnd uid
  | .commandAccept mbx => .commandAccept mbx
  | .eventRingDrain mbx => .eventRingDrain mbx
  | .ctxCreate c => .ctxCreate c
  | .ctxDestroy c => .ctxDestroy c
  | .namespaceCreate c => .namespaceCreate c
  | .map c => .map c
  | .unmap c => .unmap c
  | .pteRepair c => .pteRepair c
  | .frameKindSet c => .frameKindSet c
  | .frameMigrate c => .frameMigrate c
  | .carve c => .carve c
  | .tierConfig c => .tierConfig c
  | .launchWindowConfig c => .launchWindowConfig c
  | .queueCreate c => .queueCreate c
  | .queuePriority c => .queuePriority c
  | .umpireTableSet c => .umpireTableSet c
  | .preempt c => .preempt c
  | .checkpoint c => .checkpoint c
  | .checkpointPhaseEnd => .checkpointPhaseEnd
  | .restore c => .restore c
  | .traceStart c => .traceStart c
  | .traceStop c => .traceStop c
  | .sampleConfig c => .sampleConfig c
  | .blackboxRead c => .blackboxRead c
  | .rasQuery c => .rasQuery c
  | .linkService c => .linkService c
  | .pairingSet c => .pairingSet c
  | .partitionReplay c => .partitionReplay c
  | .fwPatchLoad c => .fwPatchLoad c
  | .attest c => .attest c
  | .resetWarm c => .resetWarm c
  | .powerSet c => .powerSet c
  | .capResolve c => .capResolve c
  | .powerOn => .powerOn
  | .coldReset => .coldReset
  | .mailboxEnable mbx => .mailboxEnable mbx
  | .configSpaceWrite off x => .configSpaceWrite off x
  | .companionAccess wr addr bytes => .companionAccess wr addr bytes
  | .igvosPortDown p => .igvosPortDown p
  | .powerSample watts => .powerSample watts
  | .thermalLimit mhz => .thermalLimit mhz
  | .linkHold l => .linkHold l
  | .linkRetrain l => .linkRetrain l
  | .linkResume l => .linkResume l
  | .linkTakeDown l => .linkTakeDown l
  | .linkTrain l => .linkTrain l
  | .holdDrained l => .holdDrained l
  | .holdTimeout l => .holdTimeout l
  | .laneTestDone l bad badSpare => .laneTestDone l bad badSpare
  | .flitCrcRetry l => .flitCrcRetry l
  | .errorWindowClose => .errorWindowClose
  | .linkServiceRoutine l => .linkServiceRoutine l
  | .flezilForward rank dst x => .flezilForward rank dst x
  | .flezilPortDown p => .flezilPortDown p
  | .patrolScrub key unit uncorrectable => .patrolScrub key unit uncorrectable
  | .samplePulse => .samplePulse
  | .debugStop core => .debugStop core
  | .debugStep key => .debugStep key
  | .debugResume core => .debugResume core
  | .debugAccess key wr what x => .debugAccess key wr what x
  | .illegalOpcode cause bsyl => .illegalOpcode cause bsyl
  | .fetchLineRefill core => .fetchLineRefill core
  | .ownedLineWriteBack cluster line => .ownedLineWriteBack cluster line
  | .frameMigrateCopyDone => .frameMigrateCopyDone
  | .areaWriteBackComplete core => .areaWriteBackComplete core
  | .powerLoss => .powerLoss
  | .igvosPortUp p => .igvosPortUp p
  | .debugArm core on => .debugArm core on

/-- An event in flight does what `exec` says of the constructor that has its name. -/
theorem Ev.run_eq (e : Ev) (s : State) : e.run s = exec e.instr s := by cases e <;> rfl

/-- What is noted after an outcome: the state with the conditions that came to hold, or the stop itself. -/
theorem noted_next {x : Out} {t : State} (h : noted x = .next t) : ∃ u, x = .next u ∧ t = u.noteConds.retryAgain := by
  unfold noted at h
  split at h
  · cases h; exact ⟨_, rfl, rfl⟩
  · exact absurd h (by rename_i hx; exact hx t)

/-- What one step of a package with power can be, before what came to hold is noted: an event in flight, the wake of a parked strand, a
strand's turn, a waiting command, an event that follows by itself and does something, or the next cycle. -/
theorem step_cases {s t : State} (hp : s.power = true) (h : step s = .next t) : ∃ u, t = u.noteConds.retryAgain ∧
    ((∃ e l, s.agenda = e :: l ∧ exec e.instr { s with agenda := l } = .next u) ∨
    (s.agenda = [] ∧ nextWake s = some u) ∨
    (s.agenda = [] ∧ nextWake s = none ∧ ∃ o, nextStrand s = some o ∧ turnOf o s = .next u) ∨
    (s.agenda = [] ∧ nextWake s = none ∧ nextStrand s = none ∧ ∃ e, firstStartable s [] s.waiting = some e ∧
      exec e.instr { s with waiting := s.waiting.erase e } = .next u) ∨
    (s.agenda = [] ∧ nextWake s = none ∧ nextStrand s = none ∧ ∃ e, nextEvent s = some e ∧ exec e.instr s = .next u) ∨
    (s.agenda = [] ∧ nextWake s = none ∧ nextStrand s = none ∧ u = s.idle)) := by
  unfold step at h
  rw [if_pos hp] at h
  unfold State.advance at h
  obtain ⟨u, hu, rfl⟩ := noted_next h
  clear h
  refine ⟨u, rfl, ?_⟩
  unfold State.happen at hu
  split at hu
  · rename_i e l he
    exact .inl ⟨e, l, he, by rw [← Ev.run_eq]; exact hu⟩
  · rename_i he
    split at hu
    · rename_i w hw
      cases hu
      exact .inr (.inl ⟨he, hw⟩)
    · rename_i hw
      split at hu
      · rename_i o ho
        exact .inr (.inr (.inl ⟨he, hw, o, ho, hu⟩))
      · rename_i ho
        split at hu
        · rename_i e hf
          exact .inr (.inr (.inr (.inl ⟨he, hw, ho, e, hf, by rw [← Ev.run_eq]; exact hu⟩)))
        · split at hu
          · rename_i e hn
            exact .inr (.inr (.inr (.inr (.inl ⟨he, hw, ho, e, hn, by rw [← Ev.run_eq]; exact hu⟩))))
          · cases hu; exact .inr (.inr (.inr (.inr (.inr ⟨he, hw, ho, rfl⟩))))

/-- A package without power only drops what is offered, until POWER_ON. -/
theorem step_powerless {s t : State} (hp : s.power = false) (h : step s = .next t) :
    ∃ e l, s.agenda = e :: l ∧ (t = { s with agenda := l } ∨ exec .powerOn { s with agenda := l } = .next t) := by
  unfold step at h
  rw [if_neg (by simp [hp])] at h
  unfold State.powerless at h
  split at h
  · rename_i l he
    exact ⟨_, l, he, .inr h⟩
  · rename_i e l _ he
    cases h
    exact ⟨e, l, he, .inl rfl⟩
  · cases h

end Sys2Proof.Machine
end

