-- ==== Sys2Proof/Laws/Memory.lean ====
section
/-! SUPPORT. Memory: what reads give after writes, and that every operation on memory keeps its canonical form. -/

namespace Sys2Proof.Machine

open Sys2Proof

/-! ## Sorted lists of cells -/

theorem above_cons (a k : Nat) (b : Byte) (t : List Host.Cell) : above a ((k, b) :: t) = decide (a < k) := rfl

/-- The head, the order and the rest of a canonical list. -/
theorem wf_cons (k : Nat) (b : Byte) (t : List Host.Cell) :
    Memory.wf ((k, b) :: t) = true ↔ b ≠ 0 ∧ above k t = true ∧ Memory.wf t = true := by
  simp [Memory.wf, and_assoc]

theorem above_trans {a b : Nat} (h : a < b) : ∀ {t : List Host.Cell}, above b t = true → above a t = true
  | [], _ => rfl
  | (k, _) :: _, h' => by
    simp only [above, decide_eq_true_eq] at h' ⊢
    omega

/-- Every cell of a canonical list lies above what its head lies above. -/
theorem above_mem {a : Nat} : ∀ {t : List Host.Cell}, above a t = true → Memory.wf t = true → ∀ c ∈ t, a < c.1
  | [], _, _, c, hc => absurd hc (List.not_mem_nil)
  | (k, b) :: t, h, w, c, hc => by
    have hk : a < k := by simpa [above] using h
    obtain ⟨_, h2, h3⟩ := (wf_cons k b t).1 w
    rcases List.mem_cons.1 hc with rfl | hc
    · exact hk
    · exact Nat.lt_trans hk (above_mem h2 h3 c hc)

/-- A list with no cell at or below an address reads 0 there. -/
theorem mget_below : ∀ {m : List Host.Cell} {a : Nat}, (∀ c ∈ m, a < c.1) → mget m a = 0
  | [], _, _ => rfl
  | (k, b) :: t, a, h => by
    have : a < k := h (k, b) (by simp)
    simp [mget, Nat.ne_of_lt this, this]

/-! ## One byte -/

/-- A byte reads back, and every other byte as before. -/
theorem mget_mset : ∀ {m : List Host.Cell} {k : Nat} {b : Byte} (a : Nat), Memory.wf m = true →
    mget (mset m k b) a = if a = k then b else mget m a
  | [], k, b, a, _ => by
    unfold mset
    split
    · rename_i h; subst h; simp [mget]
    · by_cases h : a = k
      · simp [mget, h]
      · simp [mget, h]
  | (j, c) :: t, k, b, a, w => by
    obtain ⟨h1, h2, h3⟩ := (wf_cons j c t).1 w
    unfold mset
    by_cases hkj : k = j
    · subst hkj
      by_cases hb : b = 0#8
      · subst hb
        by_cases ha : a = k
        · subst ha
          simp [mget_below (above_mem h2 h3)]
        · by_cases hl : a < k
          · have : mget t a = 0 := mget_below (fun c hc => Nat.lt_trans hl (above_mem h2 h3 c hc))
            simp [ha, mget, hl, this]
          · simp [ha, mget, hl]
      · by_cases ha : a = k
        · simp [hb, ha, mget]
        · simp [hb, ha, mget]
    · by_cases hl : k < j
      · by_cases hb : b = 0#8
        · subst hb
          by_cases ha : a = k
          · subst ha; simp [hkj, hl, mget]
          · simp [hkj, hl, ha]
        · by_cases ha : a = k
          · subst ha; simp [hkj, hl, hb, mget]
          · by_cases hl2 : a < k
            · have h5 : a < j := by omega
              have h6 : a ≠ j := by omega
              simp [hkj, hl, hb, mget, ha, hl2, h5, h6]
            · simp [hkj, hl, hb, mget, ha, hl2]
      · simp only [hkj, hl, if_false]
        by_cases haj : a = j
        · subst haj
          have : a ≠ k := fun h => hkj h.symm
          simp [mget, this]
        · by_cases hal : a < j
          · have : a ≠ k := by omega
            simp [mget, haj, hal, this]
          · simp [mget, haj, hal, mget_mset a h3]

theorem above_mset {a k : Nat} {b : Byte} : ∀ {m : List Host.Cell}, a < k → above a m = true → Memory.wf m = true →
    above a (mset m k b) = true
  | [], h, _, _ => by
    unfold mset
    split
    · rfl
    · simpa [above] using h
  | (j, c) :: t, h, h', w => by
    obtain ⟨_, h2, h3⟩ := (wf_cons j c t).1 w
    have hj : a < j := by simpa [above] using h'
    unfold mset
    split
    · split
      · exact above_trans hj h2
      · simpa [above] using hj
    · split
      · split
        · exact h'
        · simpa [above] using h
      · simpa [above] using hj

/-- A write of one byte keeps the canonical form. -/
theorem wf_mset {k : Nat} {b : Byte} : ∀ {m : List Host.Cell}, Memory.wf m = true → Memory.wf (mset m k b) = true
  | [], _ => by
    unfold mset
    split
    · rfl
    · rename_i h; exact (wf_cons _ _ _).2 ⟨h, rfl, rfl⟩
  | (j, c) :: t, w => by
    obtain ⟨h1, h2, h3⟩ := (wf_cons j c t).1 w
    unfold mset
    split
    · split
      · exact h3
      · rename_i h; exact (wf_cons _ _ _).2 ⟨h, h2, h3⟩
    · split
      · split
        · exact w
        · rename_i h4 h5
          exact (wf_cons _ _ _).2 ⟨h5, by simpa [above] using h4, w⟩
      · rename_i h4 h5
        exact (wf_cons _ _ _).2 ⟨h1, above_mset (by omega) h2 h3, wf_mset h3⟩

/-! ## Runs of bytes -/

/-- A write of a run keeps the canonical form. -/
theorem wf_msetN : ∀ {bs : List Byte} {m : List Host.Cell} {k : Nat}, Memory.wf m = true → Memory.wf (msetN m k bs) = true
  | [], _, _, w => w
  | b :: t, m, k, w => wf_msetN (bs := t) (m := mset m k b) (wf_mset w)

/-- Outside a written run every byte reads as before. -/
theorem mget_msetN_out : ∀ {bs : List Byte} {m : List Host.Cell} {k : Nat} (a : Nat), Memory.wf m = true →
    (a < k ∨ k + bs.length ≤ a) → mget (msetN m k bs) a = mget m a
  | [], _, _, _, _, _ => rfl
  | b :: t, m, k, a, w, h => by
    simp only [List.length_cons] at h
    rw [msetN, mget_msetN_out a (wf_mset w) (by omega), mget_mset a w, if_neg (by omega)]

/-- A written run reads back. -/
theorem mget_msetN_in : ∀ {bs : List Byte} {m : List Host.Cell} {k : Nat} (i : Nat), Memory.wf m = true → i < bs.length →
    mget (msetN m k bs) (k + i) = bs.getD i 0
  | b :: t, m, k, 0, w, _ => by
    rw [msetN, mget_msetN_out _ (wf_mset w) (by omega), mget_mset _ w]
    simp
  | b :: t, m, k, i + 1, w, h => by
    simp only [List.length_cons] at h
    have := mget_msetN_in (bs := t) (m := mset m k b) (k := k + 1) i (wf_mset w) (by omega)
    rw [msetN, show k + (i + 1) = k + 1 + i by omega, this]
    simp

/-- Reading a run that was written gives it. -/
theorem mgetN_msetN {bs : List Byte} {m : List Host.Cell} {k : Nat} (w : Memory.wf m = true) : mgetN (msetN m k bs) k bs.length = bs := by
  have key : ∀ (n : Nat) (l : List Byte) (a : Nat), l.length = n → (∀ i < n, mget (msetN m k bs) (a + i) = l.getD i 0) →
      mgetN (msetN m k bs) a n = l := by
    intro n
    induction n with
    | zero => intro l a hl _; simp [mgetN, List.length_eq_zero_iff.1 hl]
    | succ n ih =>
      intro l a hl h
      match l, hl with
      | x :: t, hl =>
        simp only [List.length_cons, Nat.add_right_cancel_iff] at hl
        have h0 := h 0 (by omega)
        simp at h0
        rw [mgetN, h0, ih t (a + 1) hl]
        intro i hi
        have := h (i + 1) (by omega)
        rw [show a + 1 + i = a + (i + 1) by omega, this]
        simp
  exact key _ bs k rfl fun i hi => mget_msetN_in i w hi

theorem above_filter {a : Nat} {p : Host.Cell → Bool} : ∀ {m : List Host.Cell}, above a m = true → Memory.wf m = true →
    above a (m.filter p) = true
  | [], _, _ => rfl
  | (k, b) :: t, h, w => by
    obtain ⟨_, h2, h3⟩ := (wf_cons k b t).1 w
    have hk : a < k := by simpa [above] using h
    rw [List.filter_cons]
    split
    · simpa [above] using hk
    · exact above_filter (above_trans hk h2) h3

/-- Dropping cells keeps the canonical form. -/
theorem wf_filter {p : Host.Cell → Bool} : ∀ {m : List Host.Cell}, Memory.wf m = true → Memory.wf (m.filter p) = true
  | [], _ => rfl
  | (k, b) :: t, w => by
    obtain ⟨h1, h2, h3⟩ := (wf_cons k b t).1 w
    rw [List.filter_cons]
    split
    · exact (wf_cons _ _ _).2 ⟨h1, above_filter h2 h3, wf_filter h3⟩
    · exact wf_filter h3

/-- What a memory reads once the cells that fail a test of their address are dropped. -/
theorem mget_filter {p : Nat → Bool} : ∀ {m : List Host.Cell} (a : Nat), Memory.wf m = true →
    mget (m.filter fun c => p c.1) a = if p a = true then mget m a else 0
  | [], a, _ => by simp [mget]
  | (k, b) :: t, a, w => by
    obtain ⟨h1, h2, h3⟩ := (wf_cons k b t).1 w
    rw [List.filter_cons]
    by_cases hp : p k = true
    · rw [if_pos hp]
      by_cases ha : a = k
      · subst ha; simp [mget, hp]
      · by_cases hl : a < k
        · simp [mget, ha, hl]
        · simp [mget, ha, hl, mget_filter a h3]
    · rw [if_neg hp, mget_filter a h3]
      by_cases ha : a = k
      · subst ha; simp [hp]
      · by_cases hl : a < k
        · have : mget t a = 0 := mget_below fun c hc => Nat.lt_trans hl (above_mem h2 h3 c hc)
          simp [mget, ha, hl, this]
        · simp [mget, ha, hl]

/-! ## The operations of the machine -/

/-- A store at a place changes the memory by the run of bytes it stores, or not at all. -/
theorem State.put_mem (s : State) (l : Loc) (bs : List Byte) :
    (s.put l bs).mem = match l with
      | .mem k => msetN s.mem k bs
      | .tile _ _ => s.mem := by
  cases l with
  | mem k =>
    unfold State.put State.touchRams
    simp only
    split <;> rfl
  | tile v o => rfl

/-- A store keeps the canonical form. -/
theorem State.put_memWf {s : State} (l : Loc) (bs : List Byte) (h : s.memWf) : (s.put l bs).memWf := by
  unfold State.memWf
  rw [State.put_mem]
  cases l with
  | mem k => exact wf_msetN h
  | tile v o => exact h

theorem State.putNat_memWf {s : State} (l : Loc) (n x : Nat) (h : s.memWf) : (s.putNat l n x).memWf := State.put_memWf l _ h

theorem State.setWord_memWf {s : State} (k : Nat) (x : Word) (h : s.memWf) : (s.setWord k x).memWf := State.putNat_memWf _ _ _ h

/-- A fold of operations that keep the canonical form keeps it. -/
theorem foldl_memWf {α : Type} (f : State → α → State) (hf : ∀ s x, s.memWf → (f s x).memWf) :
    ∀ (l : List α) (s : State), s.memWf → (l.foldl f s).memWf
  | [], _, h => h
  | _ :: t, s, h => foldl_memWf f hf t _ (hf s _ h)

theorem State.putMask_memWf : ∀ (n : Nat) {s : State} (l : Loc) (bs : List (Option Byte)), s.memWf → (s.putMask l bs n).memWf
  | 0, _, _, _, h => h
  | n + 1, s, l, bs, h => by
    unfold State.putMask
    refine State.putMask_memWf n _ _ ?_
    split
    · exact State.put_memWf _ _ h
    · refine foldl_memWf _ (fun s x h => ?_) _ _ h
      split
      · exact State.put_memWf _ _ h
      · exact h

theorem State.putKeep_memWf {s : State} (pa : Nat) (bs : List Byte) (h : s.memWf) : (s.putKeep pa bs).memWf := wf_msetN h

theorem State.zeroRange_memWf {s : State} (a n : Nat) (h : s.memWf) : (s.zeroRange a n).memWf := wf_filter h

theorem State.zeroLocal_memWf {s : State} (core : Nat) (h : s.memWf) : (s.zeroLocal core).memWf := wf_filter h

theorem State.keepMem_memWf {s : State} (p : Nat → Bool) (h : s.memWf) : (s.keepMem p).memWf := wf_filter h

theorem State.writeEntry_memWf {s : State} (a e : Nat) (h : s.memWf) : (s.writeEntry a e).memWf := State.put_memWf _ _ h

/-- A black-box record keeps the canonical form. -/
theorem State.blackBox_memWf {s : State} (die typ code who ctx : Nat) (d : Word) (h : s.memWf) : (s.blackBox die typ code who ctx d).memWf := by
  unfold State.blackBox
  extract_lets d0 sev seq slot at0 bytes s1
  have h1 : s1.memWf := State.put_memWf (.mem at0) bytes h
  unfold State.memWf
  rw [State.setRas_mem]
  exact h1

/-- Bytes of memory read at a place after a store there. -/
theorem State.bytes_put {s : State} (k : Nat) (bs : List Byte) (h : s.memWf) : (s.put (.mem k) bs).bytes (.mem k) bs.length = bs := by
  have key : ∀ (t : State) (n a : Nat), t.bytes (.mem a) n = mgetN t.mem a n := by
    intro t n
    induction n with
    | zero => intro a; rfl
    | succ n ih =>
      intro a
      rw [State.bytes, mgetN]
      show mget t.mem a :: t.bytes (.mem (a + 1)) n = _
      rw [ih]
  rw [key, State.put_mem]
  exact mgetN_msetN h

/-- Outside a store every byte reads as before. -/
theorem State.put_outside {s : State} (k : Nat) (bs : List Byte) (h : s.memWf) : sameMemOutside s (s.put (.mem k) bs) k bs.length := by
  intro a ha
  rw [State.put_mem]
  exact mget_msetN_out a h ha

end Sys2Proof.Machine
end

