-- ==== Sys2Proof/Laws/PerInstr.lean ====
section
/-! SUPPORT. Family RoundTrip: for each constructor, decoding what `encode` writes gives the instruction back in its own slot. -/

set_option linter.unusedSimpArgs false
set_option Elab.async false

namespace Sys2Proof.Laws

/-- Decoding the encoding of i gives i (05 R142-R163); vacuous for the part's own steps, which have no encoding. -/
def RoundTrip.Statement (i : Instr) : Prop :=
  ∀ aw bw, i.wf = true → encode i = some (aw, bw) →
    aw < 2 ^ 32 ∧ bw < 2 ^ 32 ∧ decodeBundle true true aw bw = .good (bundlePair i).1 (bundlePair i).2

theorem RoundTrip.of_none {i : Instr} (h : encode i = none) : RoundTrip.Statement i := fun _ _ _ e => by
  rw [h] at e
  cases e

theorem RoundTrip.add (d a b : R5) (sat : Bool) : RoundTrip.Statement (.add d a b sat) := by
  have := b2n_lt sat
  rcases sat with _ | _
  all_goals
    refine roundTrips_a rfl rfl (by simp only [aR_eq, aW_eq, b2n_false, b2n_true, r5_0, r5_1, r5_2, r5_3, r5_4, k3_0, cat]; omega) (by decide) (.inr rfl) fun wf w hF => ?_
    have m : fld w 25 6 = 0x0 := by simp (disch := first | decide | omega | (simp only [cat]; omega)) [hF]
    have h : fld w 0 6 = 0 := by simp (disch := first | decide | omega | (simp only [cat]; omega)) [hF]
    have nz : fld w 0 32 ≠ 0 := by
      intro e
      rw [hF, fld_self (by simp only [aR_eq, aW_eq, b2n_false, b2n_true, cat]; omega)] at e
      simp only [aR_eq, aW_eq, b2n_false, b2n_true, cat] at e
      first
        | omega
        | have hd : d = 0 := BitVec.eq_of_toNat_eq (by simp; omega)
          have ha : a = 0 := BitVec.eq_of_toNat_eq (by simp; omega)
          have hb : b = 0 := BitVec.eq_of_toNat_eq (by simp; omega)
          subst hd ha hb
          revert wf; decide
    rw [decodeA_low nz (by rw [m]; decide)]
    simp (disch := first | decide | omega | (simp only [cat]; omega)) [decodeA1, decInt, m, h, hF]

theorem RoundTrip.sub (d a b : R5) (sat : Bool) : RoundTrip.Statement (.sub d a b sat) := by
  have := b2n_lt sat
  refine roundTrips_a rfl rfl (by simp only [aR_eq, aW_eq, b2n_false, b2n_true, r5_0, r5_1, r5_2, r5_3, r5_4, k3_0, cat]; omega) (by decide) (.inr rfl) fun wf w hF => ?_
  have m : fld w 25 6 = 0x0 := by simp (disch := first | decide | omega | (simp only [cat]; omega)) [hF]
  have h : fld w 0 6 = 1 := by simp (disch := first | decide | omega | (simp only [cat]; omega)) [hF]
  have nz : fld w 0 32 ≠ 0 := fld_ne_zero h (by decide) (by decide)
  rw [decodeA_low nz (by rw [m]; decide)]
  simp (disch := first | decide | omega | (simp only [cat]; omega)) [decodeA1, decInt, m, h, hF]

theorem RoundTrip.mul (d a b : R5) (sat : Bool) : RoundTrip.Statement (.mul d a b sat) := by
  have := b2n_lt sat
  refine roundTrips_a rfl rfl (by simp only [aR_eq, aW_eq, b2n_false, b2n_true, r5_0, r5_1, r5_2, r5_3, r5_4, k3_0, cat]; omega) (by decide) (.inr rfl) fun wf w hF => ?_
  have m : fld w 25 6 = 0x0 := by simp (disch := first | decide | omega | (simp only [cat]; omega)) [hF]
  have h : fld w 0 6 = 2 := by simp (disch := first | decide | omega | (simp only [cat]; omega)) [hF]
  have nz : fld w 0 32 ≠ 0 := fld_ne_zero h (by decide) (by decide)
  rw [decodeA_low nz (by rw [m]; decide)]
  simp (disch := first | decide | omega | (simp only [cat]; omega)) [decodeA1, decInt, m, h, hF]

theorem RoundTrip.mulh (d a b : R5) : RoundTrip.Statement (.mulh d a b) := by
  refine roundTrips_a rfl rfl (by simp only [aR_eq, aW_eq, b2n_false, b2n_true, r5_0, r5_1, r5_2, r5_3, r5_4, k3_0, cat]; omega) (by decide) (.inr rfl) fun wf w hF => ?_
  have m : fld w 25 6 = 0x0 := by simp (disch := first | decide | omega | (simp only [cat]; omega)) [hF]
  have h : fld w 0 6 = 3 := by simp (disch := first | decide | omega | (simp only [cat]; omega)) [hF]
  have nz : fld w 0 32 ≠ 0 := fld_ne_zero h (by decide) (by decide)
  rw [decodeA_low nz (by rw [m]; decide)]
  simp (disch := first | decide | omega | (simp only [cat]; omega)) [decodeA1, decInt, m, h, hF]

theorem RoundTrip.mulhu (d a b : R5) : RoundTrip.Statement (.mulhu d a b) := by
  refine roundTrips_a rfl rfl (by simp only [aR_eq, aW_eq, b2n_false, b2n_true, r5_0, r5_1, r5_2, r5_3, r5_4, k3_0, cat]; omega) (by decide) (.inr rfl) fun wf w hF => ?_
  have m : fld w 25 6 = 0x0 := by simp (disch := first | decide | omega | (simp only [cat]; omega)) [hF]
  have h : fld w 0 6 = 4 := by simp (disch := first | decide | omega | (simp only [cat]; omega)) [hF]
  have nz : fld w 0 32 ≠ 0 := fld_ne_zero h (by decide) (by decide)
  rw [decodeA_low nz (by rw [m]; decide)]
  simp (disch := first | decide | omega | (simp only [cat]; omega)) [decodeA1, decInt, m, h, hF]

theorem RoundTrip.div (d a b : R5) : RoundTrip.Statement (.div d a b) := by
  refine roundTrips_a rfl rfl (by simp only [aR_eq, aW_eq, b2n_false, b2n_true, r5_0, r5_1, r5_2, r5_3, r5_4, k3_0, cat]; omega) (by decide) (.inr rfl) fun wf w hF => ?_
  have m : fld w 25 6 = 0x0 := by simp (disch := first | decide | omega | (simp only [cat]; omega)) [hF]
  have h : fld w 0 6 = 5 := by simp (disch := first | decide | omega | (simp only [cat]; omega)) [hF]
  have nz : fld w 0 32 ≠ 0 := fld_ne_zero h (by decide) (by decide)
  rw [decodeA_low nz (by rw [m]; decide)]
  simp (disch := first | decide | omega | (simp only [cat]; omega)) [decodeA1, decInt, m, h, hF]

theorem RoundTrip.divu (d a b : R5) : RoundTrip.Statement (.divu d a b) := by
  refine roundTrips_a rfl rfl (by simp only [aR_eq, aW_eq, b2n_false, b2n_true, r5_0, r5_1, r5_2, r5_3, r5_4, k3_0, cat]; omega) (by decide) (.inr rfl) fun wf w hF => ?_
  have m : fld w 25 6 = 0x0 := by simp (disch := first | decide | omega | (simp only [cat]; omega)) [hF]
  have h : fld w 0 6 = 6 := by simp (disch := first | decide | omega | (simp only [cat]; omega)) [hF]
  have nz : fld w 0 32 ≠ 0 := fld_ne_zero h (by decide) (by decide)
  rw [decodeA_low nz (by rw [m]; decide)]
  simp (disch := first | decide | omega | (simp only [cat]; omega)) [decodeA1, decInt, m, h, hF]

theorem RoundTrip.rem (d a b : R5) : RoundTrip.Statement (.rem d a b) := by
  refine roundTrips_a rfl rfl (by simp only [aR_eq, aW_eq, b2n_false, b2n_true, r5_0, r5_1, r5_2, r5_3, r5_4, k3_0, cat]; omega) (by decide) (.inr rfl) fun wf w hF => ?_
  have m : fld w 25 6 = 0x0 := by simp (disch := first | decide | omega | (simp only [cat]; omega)) [hF]
  have h : fld w 0 6 = 7 := by simp (disch := first | decide | omega | (simp only [cat]; omega)) [hF]
  have nz : fld w 0 32 ≠ 0 := fld_ne_zero h (by decide) (by decide)
  rw [decodeA_low nz (by rw [m]; decide)]
  simp (disch := first | decide | omega | (simp only [cat]; omega)) [decodeA1, decInt, m, h, hF]

theorem RoundTrip.remu (d a b : R5) : RoundTrip.Statement (.remu d a b) := by
  refine roundTrips_a rfl rfl (by simp only [aR_eq, aW_eq, b2n_false, b2n_true, r5_0, r5_1, r5_2, r5_3, r5_4, k3_0, cat]; omega) (by decide) (.inr rfl) fun wf w hF => ?_
  have m : fld w 25 6 = 0x0 := by simp (disch := first | decide | omega | (simp only [cat]; omega)) [hF]
  have h : fld w 0 6 = 8 := by simp (disch := first | decide | omega | (simp only [cat]; omega)) [hF]
  have nz : fld w 0 32 ≠ 0 := fld_ne_zero h (by decide) (by decide)
  rw [decodeA_low nz (by rw [m]; decide)]
  simp (disch := first | decide | omega | (simp only [cat]; omega)) [decodeA1, decInt, m, h, hF]

theorem RoundTrip.and (d a b : R5) : RoundTrip.Statement (.and d a b) := by
  refine roundTrips_a rfl rfl (by simp only [aR_eq, aW_eq, b2n_false, b2n_true, r5_0, r5_1, r5_2, r5_3, r5_4, k3_0, cat]; omega) (by decide) (.inr rfl) fun wf w hF => ?_
  have m : fld w 25 6 = 0x0 := by simp (disch := first | decide | omega | (simp only [cat]; omega)) [hF]
  have h : fld w 0 6 = 9 := by simp (disch := first | decide | omega | (simp only [cat]; omega)) [hF]
  have nz : fld w 0 32 ≠ 0 := fld_ne_zero h (by decide) (by decide)
  rw [decodeA_low nz (by rw [m]; decide)]
  simp (disch := first | decide | omega | (simp only [cat]; omega)) [decodeA1, decInt, m, h, hF]

theorem RoundTrip.or (d a b : R5) : RoundTrip.Statement (.or d a b) := by
  refine roundTrips_a rfl rfl (by simp only [aR_eq, aW_eq, b2n_false, b2n_true, r5_0, r5_1, r5_2, r5_3, r5_4, k3_0, cat]; omega) (by decide) (.inr rfl) fun wf w hF => ?_
  have m : fld w 25 6 = 0x0 := by simp (disch := first | decide | omega | (simp only [cat]; omega)) [hF]
  have h : fld w 0 6 = 10 := by simp (disch := first | decide | omega | (simp only [cat]; omega)) [hF]
  have nz : fld w 0 32 ≠ 0 := fld_ne_zero h (by decide) (by decide)
  rw [decodeA_low nz (by rw [m]; decide)]
  simp (disch := first | decide | omega | (simp only [cat]; omega)) [decodeA1, decInt, m, h, hF]

theorem RoundTrip.xor (d a b : R5) : RoundTrip.Statement (.xor d a b) := by
  refine roundTrips_a rfl rfl (by simp only [aR_eq, aW_eq, b2n_false, b2n_true, r5_0, r5_1, r5_2, r5_3, r5_4, k3_0, cat]; omega) (by decide) (.inr rfl) fun wf w hF => ?_
  have m : fld w 25 6 = 0x0 := by simp (disch := first | decide | omega | (simp only [cat]; omega)) [hF]
  have h : fld w 0 6 = 11 := by simp (disch := first | decide | omega | (simp only [cat]; omega)) [hF]
  have nz : fld w 0 32 ≠ 0 := fld_ne_zero h (by decide) (by decide)
  rw [decodeA_low nz (by rw [m]; decide)]
  simp (disch := first | decide | omega | (simp only [cat]; omega)) [decodeA1, decInt, m, h, hF]

theorem RoundTrip.andn (d a b : R5) : RoundTrip.Statement (.andn d a b) := by
  refine roundTrips_a rfl rfl (by simp only [aR_eq, aW_eq, b2n_false, b2n_true, r5_0, r5_1, r5_2, r5_3, r5_4, k3_0, cat]; omega) (by decide) (.inr rfl) fun wf w hF => ?_
  have m : fld w 25 6 = 0x0 := by simp (disch := first | decide | omega | (simp only [cat]; omega)) [hF]
  have h : fld w 0 6 = 12 := by simp (disch := first | decide | omega | (simp only [cat]; omega)) [hF]
  have nz : fld w 0 32 ≠ 0 := fld_ne_zero h (by decide) (by decide)
  rw [decodeA_low nz (by rw [m]; decide)]
  simp (disch := first | decide | omega | (simp only [cat]; omega)) [decodeA1, decInt, m, h, hF]

theorem RoundTrip.orn (d a b : R5) : RoundTrip.Statement (.orn d a b) := by
  refine roundTrips_a rfl rfl (by simp only [aR_eq, aW_eq, b2n_false, b2n_true, r5_0, r5_1, r5_2, r5_3, r5_4, k3_0, cat]; omega) (by decide) (.inr rfl) fun wf w hF => ?_
  have m : fld w 25 6 = 0x0 := by simp (disch := first | decide | omega | (simp only [cat]; omega)) [hF]
  have h : fld w 0 6 = 13 := by simp (disch := first | decide | omega | (simp only [cat]; omega)) [hF]
  have nz : fld w 0 32 ≠ 0 := fld_ne_zero h (by decide) (by decide)
  rw [decodeA_low nz (by rw [m]; decide)]
  simp (disch := first | decide | omega | (simp only [cat]; omega)) [decodeA1, decInt, m, h, hF]

theorem RoundTrip.sll (d a b : R5) : RoundTrip.Statement (.sll d a b) := by
  refine roundTrips_a rfl rfl (by simp only [aR_eq, aW_eq, b2n_false, b2n_true, r5_0, r5_1, r5_2, r5_3, r5_4, k3_0, cat]; omega) (by decide) (.inr rfl) fun wf w hF => ?_
  have m : fld w 25 6 = 0x0 := by simp (disch := first | decide | omega | (simp only [cat]; omega)) [hF]
  have h : fld w 0 6 = 14 := by simp (disch := first | decide | omega | (simp only [cat]; omega)) [hF]
  have nz : fld w 0 32 ≠ 0 := fld_ne_zero h (by decide) (by decide)
  rw [decodeA_low nz (by rw [m]; decide)]
  simp (disch := first | decide | omega | (simp only [cat]; omega)) [decodeA1, decInt, m, h, hF]

theorem RoundTrip.srl (d a b : R5) : RoundTrip.Statement (.srl d a b) := by
  refine roundTrips_a rfl rfl (by simp only [aR_eq, aW_eq, b2n_false, b2n_true, r5_0, r5_1, r5_2, r5_3, r5_4, k3_0, cat]; omega) (by decide) (.inr rfl) fun wf w hF => ?_
  have m : fld w 25 6 = 0x0 := by simp (disch := first | decide | omega | (simp only [cat]; omega)) [hF]
  have h : fld w 0 6 = 15 := by simp (disch := first | decide | omega | (simp only [cat]; omega)) [hF]
  have nz : fld w 0 32 ≠ 0 := fld_ne_zero h (by decide) (by decide)
  rw [decodeA_low nz (by rw [m]; decide)]
  simp (disch := first | decide | omega | (simp only [cat]; omega)) [decodeA1, decInt, m, h, hF]

theorem RoundTrip.sra (d a b : R5) : RoundTrip.Statement (.sra d a b) := by
  refine roundTrips_a rfl rfl (by simp only [aR_eq, aW_eq, b2n_false, b2n_true, r5_0, r5_1, r5_2, r5_3, r5_4, k3_0, cat]; omega) (by decide) (.inr rfl) fun wf w hF => ?_
  have m : fld w 25 6 = 0x0 := by simp (disch := first | decide | omega | (simp only [cat]; omega)) [hF]
  have h : fld w 0 6 = 16 := by simp (disch := first | decide | omega | (simp only [cat]; omega)) [hF]
  have nz : fld w 0 32 ≠ 0 := fld_ne_zero h (by decide) (by decide)
  rw [decodeA_low nz (by rw [m]; decide)]
  simp (disch := first | decide | omega | (simp only [cat]; omega)) [decodeA1, decInt, m, h, hF]

theorem RoundTrip.rol (d a b : R5) : RoundTrip.Statement (.rol d a b) := by
  refine roundTrips_a rfl rfl (by simp only [aR_eq, aW_eq, b2n_false, b2n_true, r5_0, r5_1, r5_2, r5_3, r5_4, k3_0, cat]; omega) (by decide) (.inr rfl) fun wf w hF => ?_
  have m : fld w 25 6 = 0x0 := by simp (disch := first | decide | omega | (simp only [cat]; omega)) [hF]
  have h : fld w 0 6 = 17 := by simp (disch := first | decide | omega | (simp only [cat]; omega)) [hF]
  have nz : fld w 0 32 ≠ 0 := fld_ne_zero h (by decide) (by decide)
  rw [decodeA_low nz (by rw [m]; decide)]
  simp (disch := first | decide | omega | (simp only [cat]; omega)) [decodeA1, decInt, m, h, hF]

theorem RoundTrip.ror (d a b : R5) : RoundTrip.Statement (.ror d a b) := by
  refine roundTrips_a rfl rfl (by simp only [aR_eq, aW_eq, b2n_false, b2n_true, r5_0, r5_1, r5_2, r5_3, r5_4, k3_0, cat]; omega) (by decide) (.inr rfl) fun wf w hF => ?_
  have m : fld w 25 6 = 0x0 := by simp (disch := first | decide | omega | (simp only [cat]; omega)) [hF]
  have h : fld w 0 6 = 18 := by simp (disch := first | decide | omega | (simp only [cat]; omega)) [hF]
  have nz : fld w 0 32 ≠ 0 := fld_ne_zero h (by decide) (by decide)
  rw [decodeA_low nz (by rw [m]; decide)]
  simp (disch := first | decide | omega | (simp only [cat]; omega)) [decodeA1, decInt, m, h, hF]

theorem RoundTrip.min (d a b : R5) : RoundTrip.Statement (.min d a b) := by
  refine roundTrips_a rfl rfl (by simp only [aR_eq, aW_eq, b2n_false, b2n_true, r5_0, r5_1, r5_2, r5_3, r5_4, k3_0, cat]; omega) (by decide) (.inr rfl) fun wf w hF => ?_
  have m : fld w 25 6 = 0x0 := by simp (disch := first | decide | omega | (simp only [cat]; omega)) [hF]
  have h : fld w 0 6 = 19 := by simp (disch := first | decide | omega | (simp only [cat]; omega)) [hF]
  have nz : fld w 0 32 ≠ 0 := fld_ne_zero h (by decide) (by decide)
  rw [decodeA_low nz (by rw [m]; decide)]
  simp (disch := first | decide | omega | (simp only [cat]; omega)) [decodeA1, decInt, m, h, hF]

theorem RoundTrip.max (d a b : R5) : RoundTrip.Statement (.max d a b) := by
  refine roundTrips_a rfl rfl (by simp only [aR_eq, aW_eq, b2n_false, b2n_true, r5_0, r5_1, r5_2, r5_3, r5_4, k3_0, cat]; omega) (by decide) (.inr rfl) fun wf w hF => ?_
  have m : fld w 25 6 = 0x0 := by simp (disch := first | decide | omega | (simp only [cat]; omega)) [hF]
  have h : fld w 0 6 = 20 := by simp (disch := first | decide | omega | (simp only [cat]; omega)) [hF]
  have nz : fld w 0 32 ≠ 0 := fld_ne_zero h (by decide) (by decide)
  rw [decodeA_low nz (by rw [m]; decide)]
  simp (disch := first | decide | omega | (simp only [cat]; omega)) [decodeA1, decInt, m, h, hF]

theorem RoundTrip.minu (d a b : R5) : RoundTrip.Statement (.minu d a b) := by
  refine roundTrips_a rfl rfl (by simp only [aR_eq, aW_eq, b2n_false, b2n_true, r5_0, r5_1, r5_2, r5_3, r5_4, k3_0, cat]; omega) (by decide) (.inr rfl) fun wf w hF => ?_
  have m : fld w 25 6 = 0x0 := by simp (disch := first | decide | omega | (simp only [cat]; omega)) [hF]
  have h : fld w 0 6 = 21 := by simp (disch := first | decide | omega | (simp only [cat]; omega)) [hF]
  have nz : fld w 0 32 ≠ 0 := fld_ne_zero h (by decide) (by decide)
  rw [decodeA_low nz (by rw [m]; decide)]
  simp (disch := first | decide | omega | (simp only [cat]; omega)) [decodeA1, decInt, m, h, hF]

theorem RoundTrip.maxu (d a b : R5) : RoundTrip.Statement (.maxu d a b) := by
  refine roundTrips_a rfl rfl (by simp only [aR_eq, aW_eq, b2n_false, b2n_true, r5_0, r5_1, r5_2, r5_3, r5_4, k3_0, cat]; omega) (by decide) (.inr rfl) fun wf w hF => ?_
  have m : fld w 25 6 = 0x0 := by simp (disch := first | decide | omega | (simp only [cat]; omega)) [hF]
  have h : fld w 0 6 = 22 := by simp (disch := first | decide | omega | (simp only [cat]; omega)) [hF]
  have nz : fld w 0 32 ≠ 0 := fld_ne_zero h (by decide) (by decide)
  rw [decodeA_low nz (by rw [m]; decide)]
  simp (disch := first | decide | omega | (simp only [cat]; omega)) [decodeA1, decInt, m, h, hF]

theorem RoundTrip.slt (d a b : R5) : RoundTrip.Statement (.slt d a b) := by
  refine roundTrips_a rfl rfl (by simp only [aR_eq, aW_eq, b2n_false, b2n_true, r5_0, r5_1, r5_2, r5_3, r5_4, k3_0, cat]; omega) (by decide) (.inr rfl) fun wf w hF => ?_
  have m : fld w 25 6 = 0x0 := by simp (disch := first | decide | omega | (simp only [cat]; omega)) [hF]
  have h : fld w 0 6 = 23 := by simp (disch := first | decide | omega | (simp only [cat]; omega)) [hF]
  have nz : fld w 0 32 ≠ 0 := fld_ne_zero h (by decide) (by decide)
  rw [decodeA_low nz (by rw [m]; decide)]
  simp (disch := first | decide | omega | (simp only [cat]; omega)) [decodeA1, decInt, m, h, hF]

theorem RoundTrip.sltu (d a b : R5) : RoundTrip.Statement (.sltu d a b) := by
  refine roundTrips_a rfl rfl (by simp only [aR_eq, aW_eq, b2n_false, b2n_true, r5_0, r5_1, r5_2, r5_3, r5_4, k3_0, cat]; omega) (by decide) (.inr rfl) fun wf w hF => ?_
  have m : fld w 25 6 = 0x0 := by simp (disch := first | decide | omega | (simp only [cat]; omega)) [hF]
  have h : fld w 0 6 = 24 := by simp (disch := first | decide | omega | (simp only [cat]; omega)) [hF]
  have nz : fld w 0 32 ≠ 0 := fld_ne_zero h (by decide) (by decide)
  rw [decodeA_low nz (by rw [m]; decide)]
  simp (disch := first | decide | omega | (simp only [cat]; omega)) [decodeA1, decInt, m, h, hF]

theorem RoundTrip.seq (d a b : R5) : RoundTrip.Statement (.seq d a b) := by
  refine roundTrips_a rfl rfl (by simp only [aR_eq, aW_eq, b2n_false, b2n_true, r5_0, r5_1, r5_2, r5_3, r5_4, k3_0, cat]; omega) (by decide) (.inr rfl) fun wf w hF => ?_
  have m : fld w 25 6 = 0x0 := by simp (disch := first | decide | omega | (simp only [cat]; omega)) [hF]
  have h : fld w 0 6 = 25 := by simp (disch := first | decide | omega | (simp only [cat]; omega)) [hF]
  have nz : fld w 0 32 ≠ 0 := fld_ne_zero h (by decide) (by decide)
  rw [decodeA_low nz (by rw [m]; decide)]
  simp (disch := first | decide | omega | (simp only [cat]; omega)) [decodeA1, decInt, m, h, hF]

theorem RoundTrip.sne (d a b : R5) : RoundTrip.Statement (.sne d a b) := by
  refine roundTrips_a rfl rfl (by simp only [aR_eq, aW_eq, b2n_false, b2n_true, r5_0, r5_1, r5_2, r5_3, r5_4, k3_0, cat]; omega) (by decide) (.inr rfl) fun wf w hF => ?_
  have m : fld w 25 6 = 0x0 := by simp (disch := first | decide | omega | (simp only [cat]; omega)) [hF]
  have h : fld w 0 6 = 26 := by simp (disch := first | decide | omega | (simp only [cat]; omega)) [hF]
  have nz : fld w 0 32 ≠ 0 := fld_ne_zero h (by decide) (by decide)
  rw [decodeA_low nz (by rw [m]; decide)]
  simp (disch := first | decide | omega | (simp only [cat]; omega)) [decodeA1, decInt, m, h, hF]

theorem RoundTrip.clz (d a : R5) : RoundTrip.Statement (.clz d a) := by
  refine roundTrips_a rfl rfl (by simp only [aR_eq, aW_eq, b2n_false, b2n_true, r5_0, r5_1, r5_2, r5_3, r5_4, k3_0, cat]; omega) (by decide) (.inr rfl) fun wf w hF => ?_
  have m : fld w 25 6 = 0x1 := by simp (disch := first | decide | omega | (simp only [cat]; omega)) [hF]
  have h : fld w 0 6 = 0 := by simp (disch := first | decide | omega | (simp only [cat]; omega)) [hF]
  have nz : fld w 0 32 ≠ 0 := fld_ne_zero m (by decide) (by decide)
  rw [decodeA_low nz (by rw [m]; decide)]
  simp (disch := first | decide | omega | (simp only [cat]; omega)) [decodeA1, decBit, m, h, hF]

theorem RoundTrip.ctz (d a : R5) : RoundTrip.Statement (.ctz d a) := by
  refine roundTrips_a rfl rfl (by simp only [aR_eq, aW_eq, b2n_false, b2n_true, r5_0, r5_1, r5_2, r5_3, r5_4, k3_0, cat]; omega) (by decide) (.inr rfl) fun wf w hF => ?_
  have m : fld w 25 6 = 0x1 := by simp (disch := first | decide | omega | (simp only [cat]; omega)) [hF]
  have h : fld w 0 6 = 1 := by simp (disch := first | decide | omega | (simp only [cat]; omega)) [hF]
  have nz : fld w 0 32 ≠ 0 := fld_ne_zero m (by decide) (by decide)
  rw [decodeA_low nz (by rw [m]; decide)]
  simp (disch := first | decide | omega | (simp only [cat]; omega)) [decodeA1, decBit, m, h, hF]

theorem RoundTrip.popc (d a : R5) : RoundTrip.Statement (.popc d a) := by
  refine roundTrips_a rfl rfl (by simp only [aR_eq, aW_eq, b2n_false, b2n_true, r5_0, r5_1, r5_2, r5_3, r5_4, k3_0, cat]; omega) (by decide) (.inr rfl) fun wf w hF => ?_
  have m : fld w 25 6 = 0x1 := by simp (disch := first | decide | omega | (simp only [cat]; omega)) [hF]
  have h : fld w 0 6 = 2 := by simp (disch := first | decide | omega | (simp only [cat]; omega)) [hF]
  have nz : fld w 0 32 ≠ 0 := fld_ne_zero m (by decide) (by decide)
  rw [decodeA_low nz (by rw [m]; decide)]
  simp (disch := first | decide | omega | (simp only [cat]; omega)) [decodeA1, decBit, m, h, hF]

theorem RoundTrip.brev (d a : R5) : RoundTrip.Statement (.brev d a) := by
  refine roundTrips_a rfl rfl (by simp only [aR_eq, aW_eq, b2n_false, b2n_true, r5_0, r5_1, r5_2, r5_3, r5_4, k3_0, cat]; omega) (by decide) (.inr rfl) fun wf w hF => ?_
  have m : fld w 25 6 = 0x1 := by simp (disch := first | decide | omega | (simp only [cat]; omega)) [hF]
  have h : fld w 0 6 = 3 := by simp (disch := first | decide | omega | (simp only [cat]; omega)) [hF]
  have nz : fld w 0 32 ≠ 0 := fld_ne_zero m (by decide) (by decide)
  rw [decodeA_low nz (by rw [m]; decide)]
  simp (disch := first | decide | omega | (simp only [cat]; omega)) [decodeA1, decBit, m, h, hF]

theorem RoundTrip.bswap (d a : R5) : RoundTrip.Statement (.bswap d a) := by
  refine roundTrips_a rfl rfl (by simp only [aR_eq, aW_eq, b2n_false, b2n_true, r5_0, r5_1, r5_2, r5_3, r5_4, k3_0, cat]; omega) (by decide) (.inr rfl) fun wf w hF => ?_
  have m : fld w 25 6 = 0x1 := by simp (disch := first | decide | omega | (simp only [cat]; omega)) [hF]
  have h : fld w 0 6 = 4 := by simp (disch := first | decide | omega | (simp only [cat]; omega)) [hF]
  have nz : fld w 0 32 ≠ 0 := fld_ne_zero m (by decide) (by decide)
  rw [decodeA_low nz (by rw [m]; decide)]
  simp (disch := first | decide | omega | (simp only [cat]; omega)) [decodeA1, decBit, m, h, hF]

theorem RoundTrip.sel (d a b : R5) : RoundTrip.Statement (.sel d a b) := by
  refine roundTrips_a rfl rfl (by simp only [aR_eq, aW_eq, b2n_false, b2n_true, r5_0, r5_1, r5_2, r5_3, r5_4, k3_0, cat]; omega) (by decide) (.inr rfl) fun wf w hF => ?_
  have m : fld w 25 6 = 0x1 := by simp (disch := first | decide | omega | (simp only [cat]; omega)) [hF]
  have h : fld w 0 6 = 5 := by simp (disch := first | decide | omega | (simp only [cat]; omega)) [hF]
  have nz : fld w 0 32 ≠ 0 := fld_ne_zero m (by decide) (by decide)
  rw [decodeA_low nz (by rw [m]; decide)]
  simp (disch := first | decide | omega | (simp only [cat]; omega)) [decodeA1, decBit, m, h, hF]

theorem RoundTrip.adds (d a b : R5) (sh : BitVec 2) : RoundTrip.Statement (.adds d a b sh) := by
  refine roundTrips_a rfl rfl (by simp only [aR_eq, aW_eq, b2n_false, b2n_true, r5_0, r5_1, r5_2, r5_3, r5_4, k3_0, cat]; omega) (by decide) (.inr rfl) fun wf w hF => ?_
  have m : fld w 25 6 = 0x1 := by simp (disch := first | decide | omega | (simp only [cat]; omega)) [hF]
  have h : fld w 0 6 = 6 := by simp (disch := first | decide | omega | (simp only [cat]; omega)) [hF]
  have nz : fld w 0 32 ≠ 0 := fld_ne_zero m (by decide) (by decide)
  rw [decodeA_low nz (by rw [m]; decide)]
  simp (disch := first | decide | omega | (simp only [cat]; omega)) [decodeA1, decBit, m, h, hF]

theorem RoundTrip.addi (d a : R5) (imm : Imm 15) : RoundTrip.Statement (.addi d a imm) := by
  rcases imm with imm | imm
  all_goals
    refine roundTrips_a rfl rfl (by simp only [aI_eq, aW_eq, b2n_false, b2n_true, r5_0, r5_1, r5_2, r5_3, r5_4, k3_0, lbit_fld, lbit_lit, field_fld, field_lit, cat]; omega) (by simp only [word_fld, word_lit]; omega) (by simp (disch := first | decide | omega | (simp only [cat]; omega))) fun wf w hF => ?_
    have m : fld w 25 6 = 0x2 := by simp (disch := first | decide | omega | (simp only [cat]; omega)) [hF]
    have nz : fld w 0 32 ≠ 0 := fld_ne_zero m (by decide) (by decide)
    rw [decodeA_low nz (by rw [m]; decide)]
    simp (disch := first | decide | omega | (simp only [cat]; omega)) [decodeA1, decImm, m, hF]

theorem RoundTrip.andi (d a : R5) (imm : Imm 15) : RoundTrip.Statement (.andi d a imm) := by
  rcases imm with imm | imm
  all_goals
    refine roundTrips_a rfl rfl (by simp only [aI_eq, aW_eq, b2n_false, b2n_true, r5_0, r5_1, r5_2, r5_3, r5_4, k3_0, lbit_fld, lbit_lit, field_fld, field_lit, cat]; omega) (by simp only [word_fld, word_lit]; omega) (by simp (disch := first | decide | omega | (simp only [cat]; omega))) fun wf w hF => ?_
    have m : fld w 25 6 = 0x3 := by simp (disch := first | decide | omega | (simp only [cat]; omega)) [hF]
    have nz : fld w 0 32 ≠ 0 := fld_ne_zero m (by decide) (by decide)
    rw [decodeA_low nz (by rw [m]; decide)]
    simp (disch := first | decide | omega | (simp only [cat]; omega)) [decodeA1, decImm, m, hF]

theorem RoundTrip.ori (d a : R5) (imm : Imm 15) : RoundTrip.Statement (.ori d a imm) := by
  rcases imm with imm | imm
  all_goals
    refine roundTrips_a rfl rfl (by simp only [aI_eq, aW_eq, b2n_false, b2n_true, r5_0, r5_1, r5_2, r5_3, r5_4, k3_0, lbit_fld, lbit_lit, field_fld, field_lit, cat]; omega) (by simp only [word_fld, word_lit]; omega) (by simp (disch := first | decide | omega | (simp only [cat]; omega))) fun wf w hF => ?_
    have m : fld w 25 6 = 0x4 := by simp (disch := first | decide | omega | (simp only [cat]; omega)) [hF]
    have nz : fld w 0 32 ≠ 0 := fld_ne_zero m (by decide) (by decide)
    rw [decodeA_low nz (by rw [m]; decide)]
    simp (disch := first | decide | omega | (simp only [cat]; omega)) [decodeA1, decImm, m, hF]

theorem RoundTrip.xori (d a : R5) (imm : Imm 15) : RoundTrip.Statement (.xori d a imm) := by
  rcases imm with imm | imm
  all_goals
    refine roundTrips_a rfl rfl (by simp only [aI_eq, aW_eq, b2n_false, b2n_true, r5_0, r5_1, r5_2, r5_3, r5_4, k3_0, lbit_fld, lbit_lit, field_fld, field_lit, cat]; omega) (by simp only [word_fld, word_lit]; omega) (by simp (disch := first | decide | omega | (simp only [cat]; omega))) fun wf w hF => ?_
    have m : fld w 25 6 = 0x5 := by simp (disch := first | decide | omega | (simp only [cat]; omega)) [hF]
    have nz : fld w 0 32 ≠ 0 := fld_ne_zero m (by decide) (by decide)
    rw [decodeA_low nz (by rw [m]; decide)]
    simp (disch := first | decide | omega | (simp only [cat]; omega)) [decodeA1, decImm, m, hF]

theorem RoundTrip.slli (d a : R5) (sh : BitVec 6) : RoundTrip.Statement (.slli d a sh) := by
  refine roundTrips_a rfl rfl (by simp only [aW_eq, b2n_false, b2n_true, r5_0, r5_1, r5_2, r5_3, r5_4, k3_0, cat]; omega) (by decide) (.inr rfl) fun wf w hF => ?_
  have m : fld w 25 6 = 0x6 := by simp (disch := first | decide | omega | (simp only [cat]; omega)) [hF]
  have h : fld w 6 2 = 0 := by simp (disch := first | decide | omega | (simp only [cat]; omega)) [hF]
  have nz : fld w 0 32 ≠ 0 := fld_ne_zero m (by decide) (by decide)
  rw [decodeA_low nz (by rw [m]; decide)]
  simp (disch := first | decide | omega | (simp only [cat]; omega)) [decodeA1, decShift, m, h, hF]

theorem RoundTrip.srli (d a : R5) (sh : BitVec 6) : RoundTrip.Statement (.srli d a sh) := by
  refine roundTrips_a rfl rfl (by simp only [aW_eq, b2n_false, b2n_true, r5_0, r5_1, r5_2, r5_3, r5_4, k3_0, cat]; omega) (by decide) (.inr rfl) fun wf w hF => ?_
  have m : fld w 25 6 = 0x6 := by simp (disch := first | decide | omega | (simp only [cat]; omega)) [hF]
  have h : fld w 6 2 = 1 := by simp (disch := first | decide | omega | (simp only [cat]; omega)) [hF]
  have nz : fld w 0 32 ≠ 0 := fld_ne_zero m (by decide) (by decide)
  rw [decodeA_low nz (by rw [m]; decide)]
  simp (disch := first | decide | omega | (simp only [cat]; omega)) [decodeA1, decShift, m, h, hF]

theorem RoundTrip.srai (d a : R5) (sh : BitVec 6) : RoundTrip.Statement (.srai d a sh) := by
  refine roundTrips_a rfl rfl (by simp only [aW_eq, b2n_false, b2n_true, r5_0, r5_1, r5_2, r5_3, r5_4, k3_0, cat]; omega) (by decide) (.inr rfl) fun wf w hF => ?_
  have m : fld w 25 6 = 0x6 := by simp (disch := first | decide | omega | (simp only [cat]; omega)) [hF]
  have h : fld w 6 2 = 2 := by simp (disch := first | decide | omega | (simp only [cat]; omega)) [hF]
  have nz : fld w 0 32 ≠ 0 := fld_ne_zero m (by decide) (by decide)
  rw [decodeA_low nz (by rw [m]; decide)]
  simp (disch := first | decide | omega | (simp only [cat]; omega)) [decodeA1, decShift, m, h, hF]

theorem RoundTrip.slti (d a : R5) (imm : Imm 15) : RoundTrip.Statement (.slti d a imm) := by
  rcases imm with imm | imm
  all_goals
    refine roundTrips_a rfl rfl (by simp only [aI_eq, aW_eq, b2n_false, b2n_true, r5_0, r5_1, r5_2, r5_3, r5_4, k3_0, lbit_fld, lbit_lit, field_fld, field_lit, cat]; omega) (by simp only [word_fld, word_lit]; omega) (by simp (disch := first | decide | omega | (simp only [cat]; omega))) fun wf w hF => ?_
    have m : fld w 25 6 = 0x7 := by simp (disch := first | decide | omega | (simp only [cat]; omega)) [hF]
    have nz : fld w 0 32 ≠ 0 := fld_ne_zero m (by decide) (by decide)
    rw [decodeA_low nz (by rw [m]; decide)]
    simp (disch := first | decide | omega | (simp only [cat]; omega)) [decodeA1, decImm, m, hF]

theorem RoundTrip.sltui (d a : R5) (imm : Imm 15) : RoundTrip.Statement (.sltui d a imm) := by
  rcases imm with imm | imm
  all_goals
    refine roundTrips_a rfl rfl (by simp only [aI_eq, aW_eq, b2n_false, b2n_true, r5_0, r5_1, r5_2, r5_3, r5_4, k3_0, lbit_fld, lbit_lit, field_fld, field_lit, cat]; omega) (by simp only [word_fld, word_lit]; omega) (by simp (disch := first | decide | omega | (simp only [cat]; omega))) fun wf w hF => ?_
    have m : fld w 25 6 = 0x8 := by simp (disch := first | decide | omega | (simp only [cat]; omega)) [hF]
    have nz : fld w 0 32 ≠ 0 := fld_ne_zero m (by decide) (by decide)
    rw [decodeA_low nz (by rw [m]; decide)]
    simp (disch := first | decide | omega | (simp only [cat]; omega)) [decodeA1, decImm, m, hF]

theorem RoundTrip.lui (d : R5) (imm : BitVec 15) : RoundTrip.Statement (.lui d imm) := by
  refine roundTrips_a rfl rfl (by simp only [aW_eq, b2n_false, b2n_true, r5_0, r5_1, r5_2, r5_3, r5_4, k3_0, cat]; omega) (by decide) (.inr rfl) fun wf w hF => ?_
  have m : fld w 25 6 = 0x9 := by simp (disch := first | decide | omega | (simp only [cat]; omega)) [hF]
  have h : fld w 15 5 = 0 := by simp (disch := first | decide | omega | (simp only [cat]; omega)) [hF]
  have nz : fld w 0 32 ≠ 0 := fld_ne_zero m (by decide) (by decide)
  rw [decodeA_low nz (by rw [m]; decide)]
  simp (disch := first | decide | omega | (simp only [cat]; omega)) [decodeA1, decConst, m, h, hF]

theorem RoundTrip.lit (d : R5) (x : BitVec 32) : RoundTrip.Statement (.lit d x) := by
  refine roundTrips_a rfl rfl (by simp only [aW_eq, b2n_false, b2n_true, r5_0, r5_1, r5_2, r5_3, r5_4, k3_0, cat]; omega) (by omega) (by simp (disch := first | decide | omega | (simp only [cat]; omega))) fun wf w hF => ?_
  have m : fld w 25 6 = 0x9 := by simp (disch := first | decide | omega | (simp only [cat]; omega)) [hF]
  have h : fld w 15 5 = 1 := by simp (disch := first | decide | omega | (simp only [cat]; omega)) [hF]
  have nz : fld w 0 32 ≠ 0 := fld_ne_zero m (by decide) (by decide)
  rw [decodeA_low nz (by rw [m]; decide)]
  simp (disch := first | decide | omega | (simp only [cat]; omega)) [decodeA1, decConst, m, h, hF]

theorem RoundTrip.lith (d : R5) (x : BitVec 32) : RoundTrip.Statement (.lith d x) := by
  refine roundTrips_a rfl rfl (by simp only [aW_eq, b2n_false, b2n_true, r5_0, r5_1, r5_2, r5_3, r5_4, k3_0, cat]; omega) (by omega) (by simp (disch := first | decide | omega | (simp only [cat]; omega))) fun wf w hF => ?_
  have m : fld w 25 6 = 0x9 := by simp (disch := first | decide | omega | (simp only [cat]; omega)) [hF]
  have h : fld w 15 5 = 2 := by simp (disch := first | decide | omega | (simp only [cat]; omega)) [hF]
  have nz : fld w 0 32 ≠ 0 := fld_ne_zero m (by decide) (by decide)
  rw [decodeA_low nz (by rw [m]; decide)]
  simp (disch := first | decide | omega | (simp only [cat]; omega)) [decodeA1, decConst, m, h, hF]

theorem RoundTrip.addpc (d : R5) (imm : Imm 15) : RoundTrip.Statement (.addpc d imm) := by
  rcases imm with imm | imm
  all_goals
    refine roundTrips_a rfl rfl (by simp only [aI_eq, aW_eq, b2n_false, b2n_true, r5_0, r5_1, r5_2, r5_3, r5_4, k3_0, lbit_fld, lbit_lit, field_fld, field_lit, cat]; omega) (by simp only [word_fld, word_lit]; omega) (by simp (disch := first | decide | omega | (simp only [cat]; omega))) fun wf w hF => ?_
    have m : fld w 25 6 = 0xa := by simp (disch := first | decide | omega | (simp only [cat]; omega)) [hF]
    have nz : fld w 0 32 ≠ 0 := fld_ne_zero m (by decide) (by decide)
    rw [decodeA_low nz (by rw [m]; decide)]
    simp (disch := first | decide | omega | (simp only [cat]; omega)) [decodeA1, m, hF]

theorem RoundTrip.extr (d a : R5) (lenm1 pos : BitVec 6) : RoundTrip.Statement (.extr d a lenm1 pos) := by
  refine roundTrips_a rfl rfl (by simp only [aW_eq, b2n_false, b2n_true, r5_0, r5_1, r5_2, r5_3, r5_4, k3_0, cat]; omega) (by decide) (.inr rfl) fun wf w hF => ?_
  have m : fld w 25 6 = 0xb := by simp (disch := first | decide | omega | (simp only [cat]; omega)) [hF]
  have nz : fld w 0 32 ≠ 0 := fld_ne_zero m (by decide) (by decide)
  rw [decodeA_low nz (by rw [m]; decide)]
  replace wf : extrOk lenm1 pos = true := wf
  try simp at wf
  simp (disch := first | decide | omega | (simp only [cat]; omega)) [decodeA1, decField, wf, m, hF]

theorem RoundTrip.extru (d a : R5) (lenm1 pos : BitVec 6) : RoundTrip.Statement (.extru d a lenm1 pos) := by
  refine roundTrips_a rfl rfl (by simp only [aW_eq, b2n_false, b2n_true, r5_0, r5_1, r5_2, r5_3, r5_4, k3_0, cat]; omega) (by decide) (.inr rfl) fun wf w hF => ?_
  have m : fld w 25 6 = 0xc := by simp (disch := first | decide | omega | (simp only [cat]; omega)) [hF]
  have nz : fld w 0 32 ≠ 0 := fld_ne_zero m (by decide) (by decide)
  rw [decodeA_low nz (by rw [m]; decide)]
  replace wf : extrOk lenm1 pos = true := wf
  try simp at wf
  simp (disch := first | decide | omega | (simp only [cat]; omega)) [decodeA1, decField, wf, m, hF]

theorem RoundTrip.insr (d a : R5) (lenm1 pos : BitVec 6) : RoundTrip.Statement (.insr d a lenm1 pos) := by
  refine roundTrips_a rfl rfl (by simp only [aW_eq, b2n_false, b2n_true, r5_0, r5_1, r5_2, r5_3, r5_4, k3_0, cat]; omega) (by decide) (.inr rfl) fun wf w hF => ?_
  have m : fld w 25 6 = 0xd := by simp (disch := first | decide | omega | (simp only [cat]; omega)) [hF]
  have nz : fld w 0 32 ≠ 0 := fld_ne_zero m (by decide) (by decide)
  rw [decodeA_low nz (by rw [m]; decide)]
  replace wf : extrOk lenm1 pos = true := wf
  try simp at wf
  simp (disch := first | decide | omega | (simp only [cat]; omega)) [decodeA1, decField, wf, m, hF]

theorem RoundTrip.beq (a b : R5) (off : Imm 15) : RoundTrip.Statement (.beq a b off) := by
  rcases off with off | off
  all_goals
    refine roundTrips_a rfl rfl (by simp only [aI_eq, aW_eq, b2n_false, b2n_true, r5_0, r5_1, r5_2, r5_3, r5_4, k3_0, lbit_fld, lbit_lit, field_fld, field_lit, cat]; omega) (by simp only [word_fld, word_lit]; omega) (by simp (disch := first | decide | omega | (simp only [cat]; omega))) fun wf w hF => ?_
    have m : fld w 25 6 = 0x10 := by simp (disch := first | decide | omega | (simp only [cat]; omega)) [hF]
    have nz : fld w 0 32 ≠ 0 := fld_ne_zero m (by decide) (by decide)
    rw [decodeA_low nz (by rw [m]; decide)]
    simp (disch := first | decide | omega | (simp only [cat]; omega)) [decodeA1, decImm, m, hF]

theorem RoundTrip.bne (a b : R5) (off : Imm 15) : RoundTrip.Statement (.bne a b off) := by
  rcases off with off | off
  all_goals
    refine roundTrips_a rfl rfl (by simp only [aI_eq, aW_eq, b2n_false, b2n_true, r5_0, r5_1, r5_2, r5_3, r5_4, k3_0, lbit_fld, lbit_lit, field_fld, field_lit, cat]; omega) (by simp only [word_fld, word_lit]; omega) (by simp (disch := first | decide | omega | (simp only [cat]; omega))) fun wf w hF => ?_
    have m : fld w 25 6 = 0x11 := by simp (disch := first | decide | omega | (simp only [cat]; omega)) [hF]
    have nz : fld w 0 32 ≠ 0 := fld_ne_zero m (by decide) (by decide)
    rw [decodeA_low nz (by rw [m]; decide)]
    simp (disch := first | decide | omega | (simp only [cat]; omega)) [decodeA1, decImm, m, hF]

theorem RoundTrip.blt (a b : R5) (off : Imm 15) : RoundTrip.Statement (.blt a b off) := by
  rcases off with off | off
  all_goals
    refine roundTrips_a rfl rfl (by simp only [aI_eq, aW_eq, b2n_false, b2n_true, r5_0, r5_1, r5_2, r5_3, r5_4, k3_0, lbit_fld, lbit_lit, field_fld, field_lit, cat]; omega) (by simp only [word_fld, word_lit]; omega) (by simp (disch := first | decide | omega | (simp only [cat]; omega))) fun wf w hF => ?_
    have m : fld w 25 6 = 0x12 := by simp (disch := first | decide | omega | (simp only [cat]; omega)) [hF]
    have nz : fld w 0 32 ≠ 0 := fld_ne_zero m (by decide) (by decide)
    rw [decodeA_low nz (by rw [m]; decide)]
    simp (disch := first | decide | omega | (simp only [cat]; omega)) [decodeA1, decImm, m, hF]

theorem RoundTrip.bge (a b : R5) (off : Imm 15) : RoundTrip.Statement (.bge a b off) := by
  rcases off with off | off
  all_goals
    refine roundTrips_a rfl rfl (by simp only [aI_eq, aW_eq, b2n_false, b2n_true, r5_0, r5_1, r5_2, r5_3, r5_4, k3_0, lbit_fld, lbit_lit, field_fld, field_lit, cat]; omega) (by simp only [word_fld, word_lit]; omega) (by simp (disch := first | decide | omega | (simp only [cat]; omega))) fun wf w hF => ?_
    have m : fld w 25 6 = 0x13 := by simp (disch := first | decide | omega | (simp only [cat]; omega)) [hF]
    have nz : fld w 0 32 ≠ 0 := fld_ne_zero m (by decide) (by decide)
    rw [decodeA_low nz (by rw [m]; decide)]
    simp (disch := first | decide | omega | (simp only [cat]; omega)) [decodeA1, decImm, m, hF]

theorem RoundTrip.bltu (a b : R5) (off : Imm 15) : RoundTrip.Statement (.bltu a b off) := by
  rcases off with off | off
  all_goals
    refine roundTrips_a rfl rfl (by simp only [aI_eq, aW_eq, b2n_false, b2n_true, r5_0, r5_1, r5_2, r5_3, r5_4, k3_0, lbit_fld, lbit_lit, field_fld, field_lit, cat]; omega) (by simp only [word_fld, word_lit]; omega) (by simp (disch := first | decide | omega | (simp only [cat]; omega))) fun wf w hF => ?_
    have m : fld w 25 6 = 0x14 := by simp (disch := first | decide | omega | (simp only [cat]; omega)) [hF]
    have nz : fld w 0 32 ≠ 0 := fld_ne_zero m (by decide) (by decide)
    rw [decodeA_low nz (by rw [m]; decide)]
    simp (disch := first | decide | omega | (simp only [cat]; omega)) [decodeA1, decImm, m, hF]

theorem RoundTrip.bgeu (a b : R5) (off : Imm 15) : RoundTrip.Statement (.bgeu a b off) := by
  rcases off with off | off
  all_goals
    refine roundTrips_a rfl rfl (by simp only [aI_eq, aW_eq, b2n_false, b2n_true, r5_0, r5_1, r5_2, r5_3, r5_4, k3_0, lbit_fld, lbit_lit, field_fld, field_lit, cat]; omega) (by simp only [word_fld, word_lit]; omega) (by simp (disch := first | decide | omega | (simp only [cat]; omega))) fun wf w hF => ?_
    have m : fld w 25 6 = 0x15 := by simp (disch := first | decide | omega | (simp only [cat]; omega)) [hF]
    have nz : fld w 0 32 ≠ 0 := fld_ne_zero m (by decide) (by decide)
    rw [decodeA_low nz (by rw [m]; decide)]
    simp (disch := first | decide | omega | (simp only [cat]; omega)) [decodeA1, decImm, m, hF]

theorem RoundTrip.j (off : Imm 25) : RoundTrip.Statement (.j off) := by
  rcases off with off | off
  all_goals
    refine roundTrips_a rfl rfl (by simp only [b2n_false, b2n_true, r5_0, r5_1, r5_2, r5_3, r5_4, k3_0, lbit_fld, lbit_lit, field_fld, field_lit, cat]; omega) (by simp only [word_fld, word_lit]; omega) (by simp (disch := first | decide | omega | (simp only [cat]; omega))) fun wf w hF => ?_
    have m : fld w 25 6 = 0x16 := by simp (disch := first | decide | omega | (simp only [cat]; omega)) [hF]
    have nz : fld w 0 32 ≠ 0 := fld_ne_zero m (by decide) (by decide)
    rw [decodeA_low nz (by rw [m]; decide)]
    simp (disch := first | decide | omega | (simp only [cat]; omega)) [decodeA1, m, hF]

theorem RoundTrip.wcall (off : Imm 25) : RoundTrip.Statement (.wcall off) := by
  rcases off with off | off
  all_goals
    refine roundTrips_a rfl rfl (by simp only [b2n_false, b2n_true, r5_0, r5_1, r5_2, r5_3, r5_4, k3_0, lbit_fld, lbit_lit, field_fld, field_lit, cat]; omega) (by simp only [word_fld, word_lit]; omega) (by simp (disch := first | decide | omega | (simp only [cat]; omega))) fun wf w hF => ?_
    have m : fld w 25 6 = 0x17 := by simp (disch := first | decide | omega | (simp only [cat]; omega)) [hF]
    have nz : fld w 0 32 ≠ 0 := fld_ne_zero m (by decide) (by decide)
    rw [decodeA_low nz (by rw [m]; decide)]
    simp (disch := first | decide | omega | (simp only [cat]; omega)) [decodeA1, m, hF]

theorem RoundTrip.ldb (d base : R5) (rq : Rq) (off : Imm 13) : RoundTrip.Statement (.ldb d base rq off) := by
  have := rqCode_lt rq
  rcases off with off | off
  all_goals
    refine roundTrips_a rfl rfl (by simp only [aM_eq, aW_eq, b2n_false, b2n_true, r5_0, r5_1, r5_2, r5_3, r5_4, k3_0, lbit_fld, lbit_lit, field_fld, field_lit, cat]; omega) (by simp only [word_fld, word_lit]; omega) (by simp (disch := first | decide | omega | (simp only [cat]; omega))) fun wf w hF => ?_
    have m : fld w 25 6 = 0x18 := by simp (disch := first | decide | omega | (simp only [cat]; omega)) [hF]
    have nz : fld w 0 32 ≠ 0 := fld_ne_zero m (by decide) (by decide)
    rw [decodeA_high nz (by rw [m]; decide)]
    simp (disch := first | decide | omega | (simp only [cat]; omega)) [decodeA2, decMem, m, hF]

theorem RoundTrip.ldbu (d base : R5) (rq : Rq) (off : Imm 13) : RoundTrip.Statement (.ldbu d base rq off) := by
  have := rqCode_lt rq
  rcases off with off | off
  all_goals
    refine roundTrips_a rfl rfl (by simp only [aM_eq, aW_eq, b2n_false, b2n_true, r5_0, r5_1, r5_2, r5_3, r5_4, k3_0, lbit_fld, lbit_lit, field_fld, field_lit, cat]; omega) (by simp only [word_fld, word_lit]; omega) (by simp (disch := first | decide | omega | (simp only [cat]; omega))) fun wf w hF => ?_
    have m : fld w 25 6 = 0x19 := by simp (disch := first | decide | omega | (simp only [cat]; omega)) [hF]
    have nz : fld w 0 32 ≠ 0 := fld_ne_zero m (by decide) (by decide)
    rw [decodeA_high nz (by rw [m]; decide)]
    simp (disch := first | decide | omega | (simp only [cat]; omega)) [decodeA2, decMem, m, hF]

theorem RoundTrip.ldh (d base : R5) (rq : Rq) (off : Imm 13) : RoundTrip.Statement (.ldh d base rq off) := by
  have := rqCode_lt rq
  rcases off with off | off
  all_goals
    refine roundTrips_a rfl rfl (by simp only [aM_eq, aW_eq, b2n_false, b2n_true, r5_0, r5_1, r5_2, r5_3, r5_4, k3_0, lbit_fld, lbit_lit, field_fld, field_lit, cat]; omega) (by simp only [word_fld, word_lit]; omega) (by simp (disch := first | decide | omega | (simp only [cat]; omega))) fun wf w hF => ?_
    have m : fld w 25 6 = 0x1a := by simp (disch := first | decide | omega | (simp only [cat]; omega)) [hF]
    have nz : fld w 0 32 ≠ 0 := fld_ne_zero m (by decide) (by decide)
    rw [decodeA_high nz (by rw [m]; decide)]
    simp (disch := first | decide | omega | (simp only [cat]; omega)) [decodeA2, decMem, m, hF]

theorem RoundTrip.ldhu (d base : R5) (rq : Rq) (off : Imm 13) : RoundTrip.Statement (.ldhu d base rq off) := by
  have := rqCode_lt rq
  rcases off with off | off
  all_goals
    refine roundTrips_a rfl rfl (by simp only [aM_eq, aW_eq, b2n_false, b2n_true, r5_0, r5_1, r5_2, r5_3, r5_4, k3_0, lbit_fld, lbit_lit, field_fld, field_lit, cat]; omega) (by simp only [word_fld, word_lit]; omega) (by simp (disch := first | decide | omega | (simp only [cat]; omega))) fun wf w hF => ?_
    have m : fld w 25 6 = 0x1b := by simp (disch := first | decide | omega | (simp only [cat]; omega)) [hF]
    have nz : fld w 0 32 ≠ 0 := fld_ne_zero m (by decide) (by decide)
    rw [decodeA_high nz (by rw [m]; decide)]
    simp (disch := first | decide | omega | (simp only [cat]; omega)) [decodeA2, decMem, m, hF]

theorem RoundTrip.ldw (d base : R5) (rq : Rq) (off : Imm 13) : RoundTrip.Statement (.ldw d base rq off) := by
  have := rqCode_lt rq
  rcases off with off | off
  all_goals
    refine roundTrips_a rfl rfl (by simp only [aM_eq, aW_eq, b2n_false, b2n_true, r5_0, r5_1, r5_2, r5_3, r5_4, k3_0, lbit_fld, lbit_lit, field_fld, field_lit, cat]; omega) (by simp only [word_fld, word_lit]; omega) (by simp (disch := first | decide | omega | (simp only [cat]; omega))) fun wf w hF => ?_
    have m : fld w 25 6 = 0x1c := by simp (disch := first | decide | omega | (simp only [cat]; omega)) [hF]
    have nz : fld w 0 32 ≠ 0 := fld_ne_zero m (by decide) (by decide)
    rw [decodeA_high nz (by rw [m]; decide)]
    simp (disch := first | decide | omega | (simp only [cat]; omega)) [decodeA2, decMem, m, hF]

theorem RoundTrip.ldwu (d base : R5) (rq : Rq) (off : Imm 13) : RoundTrip.Statement (.ldwu d base rq off) := by
  have := rqCode_lt rq
  rcases off with off | off
  all_goals
    refine roundTrips_a rfl rfl (by simp only [aM_eq, aW_eq, b2n_false, b2n_true, r5_0, r5_1, r5_2, r5_3, r5_4, k3_0, lbit_fld, lbit_lit, field_fld, field_lit, cat]; omega) (by simp only [word_fld, word_lit]; omega) (by simp (disch := first | decide | omega | (simp only [cat]; omega))) fun wf w hF => ?_
    have m : fld w 25 6 = 0x1d := by simp (disch := first | decide | omega | (simp only [cat]; omega)) [hF]
    have nz : fld w 0 32 ≠ 0 := fld_ne_zero m (by decide) (by decide)
    rw [decodeA_high nz (by rw [m]; decide)]
    simp (disch := first | decide | omega | (simp only [cat]; omega)) [decodeA2, decMem, m, hF]

theorem RoundTrip.ldd (d base : R5) (rq : Rq) (off : Imm 13) : RoundTrip.Statement (.ldd d base rq off) := by
  have := rqCode_lt rq
  rcases off with off | off
  all_goals
    refine roundTrips_a rfl rfl (by simp only [aM_eq, aW_eq, b2n_false, b2n_true, r5_0, r5_1, r5_2, r5_3, r5_4, k3_0, lbit_fld, lbit_lit, field_fld, field_lit, cat]; omega) (by simp only [word_fld, word_lit]; omega) (by simp (disch := first | decide | omega | (simp only [cat]; omega))) fun wf w hF => ?_
    have m : fld w 25 6 = 0x1e := by simp (disch := first | decide | omega | (simp only [cat]; omega)) [hF]
    have nz : fld w 0 32 ≠ 0 := fld_ne_zero m (by decide) (by decide)
    rw [decodeA_high nz (by rw [m]; decide)]
    simp (disch := first | decide | omega | (simp only [cat]; omega)) [decodeA2, decMem, m, hF]

theorem RoundTrip.stb (s base : R5) (rq : Rq) (off : Imm 13) : RoundTrip.Statement (.stb s base rq off) := by
  have := rqCode_lt rq
  rcases off with off | off
  all_goals
    refine roundTrips_a rfl rfl (by simp only [aM_eq, aW_eq, b2n_false, b2n_true, r5_0, r5_1, r5_2, r5_3, r5_4, k3_0, lbit_fld, lbit_lit, field_fld, field_lit, cat]; omega) (by simp only [word_fld, word_lit]; omega) (by simp (disch := first | decide | omega | (simp only [cat]; omega))) fun wf w hF => ?_
    have m : fld w 25 6 = 0x1f := by simp (disch := first | decide | omega | (simp only [cat]; omega)) [hF]
    have nz : fld w 0 32 ≠ 0 := fld_ne_zero m (by decide) (by decide)
    rw [decodeA_high nz (by rw [m]; decide)]
    simp (disch := first | decide | omega | (simp only [cat]; omega)) [decodeA2, decMem, m, hF]

theorem RoundTrip.sth (s base : R5) (rq : Rq) (off : Imm 13) : RoundTrip.Statement (.sth s base rq off) := by
  have := rqCode_lt rq
  rcases off with off | off
  all_goals
    refine roundTrips_a rfl rfl (by simp only [aM_eq, aW_eq, b2n_false, b2n_true, r5_0, r5_1, r5_2, r5_3, r5_4, k3_0, lbit_fld, lbit_lit, field_fld, field_lit, cat]; omega) (by simp only [word_fld, word_lit]; omega) (by simp (disch := first | decide | omega | (simp only [cat]; omega))) fun wf w hF => ?_
    have m : fld w 25 6 = 0x20 := by simp (disch := first | decide | omega | (simp only [cat]; omega)) [hF]
    have nz : fld w 0 32 ≠ 0 := fld_ne_zero m (by decide) (by decide)
    rw [decodeA_high nz (by rw [m]; decide)]
    simp (disch := first | decide | omega | (simp only [cat]; omega)) [decodeA2, decMem, m, hF]

theorem RoundTrip.stw (s base : R5) (rq : Rq) (off : Imm 13) : RoundTrip.Statement (.stw s base rq off) := by
  have := rqCode_lt rq
  rcases off with off | off
  all_goals
    refine roundTrips_a rfl rfl (by simp only [aM_eq, aW_eq, b2n_false, b2n_true, r5_0, r5_1, r5_2, r5_3, r5_4, k3_0, lbit_fld, lbit_lit, field_fld, field_lit, cat]; omega) (by simp only [word_fld, word_lit]; omega) (by simp (disch := first | decide | omega | (simp only [cat]; omega))) fun wf w hF => ?_
    have m : fld w 25 6 = 0x21 := by simp (disch := first | decide | omega | (simp only [cat]; omega)) [hF]
    have nz : fld w 0 32 ≠ 0 := fld_ne_zero m (by decide) (by decide)
    rw [decodeA_high nz (by rw [m]; decide)]
    simp (disch := first | decide | omega | (simp only [cat]; omega)) [decodeA2, decMem, m, hF]

theorem RoundTrip.std (s base : R5) (rq : Rq) (off : Imm 13) : RoundTrip.Statement (.std s base rq off) := by
  have := rqCode_lt rq
  rcases off with off | off
  all_goals
    refine roundTrips_a rfl rfl (by simp only [aM_eq, aW_eq, b2n_false, b2n_true, r5_0, r5_1, r5_2, r5_3, r5_4, k3_0, lbit_fld, lbit_lit, field_fld, field_lit, cat]; omega) (by simp only [word_fld, word_lit]; omega) (by simp (disch := first | decide | omega | (simp only [cat]; omega))) fun wf w hF => ?_
    have m : fld w 25 6 = 0x22 := by simp (disch := first | decide | omega | (simp only [cat]; omega)) [hF]
    have nz : fld w 0 32 ≠ 0 := fld_ne_zero m (by decide) (by decide)
    rw [decodeA_high nz (by rw [m]; decide)]
    simp (disch := first | decide | omega | (simp only [cat]; omega)) [decodeA2, decMem, m, hF]

theorem RoundTrip.vld (v base : R5) (rq : Rq) (off : Imm 6) (k : K3) : RoundTrip.Statement (.vld v base rq off k) := by
  have := rqCode_lt rq
  rcases off with off | off
  all_goals
    refine roundTrips_a rfl rfl (by simp only [aV_eq, aW_eq, b2n_false, b2n_true, r5_0, r5_1, r5_2, r5_3, r5_4, k3_0, lbit_fld, lbit_lit, field_fld, field_lit, cat]; omega) (by simp only [word_fld, word_lit]; omega) (by simp (disch := first | decide | omega | (simp only [cat]; omega))) fun wf w hF => ?_
    have m : fld w 25 6 = 0x23 := by simp (disch := first | decide | omega | (simp only [cat]; omega)) [hF]
    have h : fld w 9 4 = 0 := by simp (disch := first | decide | omega | (simp only [cat]; omega)) [hF]
    have nz : fld w 0 32 ≠ 0 := fld_ne_zero m (by decide) (by decide)
    rw [decodeA_high nz (by rw [m]; decide)]
    simp (disch := first | decide | omega | (simp only [cat]; omega)) [decodeA2, decVmem, m, h, hF]

theorem RoundTrip.vst (v base : R5) (rq : Rq) (off : Imm 6) (k : K3) : RoundTrip.Statement (.vst v base rq off k) := by
  have := rqCode_lt rq
  rcases off with off | off
  all_goals
    refine roundTrips_a rfl rfl (by simp only [aV_eq, aW_eq, b2n_false, b2n_true, r5_0, r5_1, r5_2, r5_3, r5_4, k3_0, lbit_fld, lbit_lit, field_fld, field_lit, cat]; omega) (by simp only [word_fld, word_lit]; omega) (by simp (disch := first | decide | omega | (simp only [cat]; omega))) fun wf w hF => ?_
    have m : fld w 25 6 = 0x23 := by simp (disch := first | decide | omega | (simp only [cat]; omega)) [hF]
    have h : fld w 9 4 = 1 := by simp (disch := first | decide | omega | (simp only [cat]; omega)) [hF]
    have nz : fld w 0 32 ≠ 0 := fld_ne_zero m (by decide) (by decide)
    rw [decodeA_high nz (by rw [m]; decide)]
    simp (disch := first | decide | omega | (simp only [cat]; omega)) [decodeA2, decVmem, m, h, hF]

theorem RoundTrip.vlds (v base : R5) (rq : Rq) (t : R5) (k : K3) (e : Bool) : RoundTrip.Statement (.vlds v base rq t k e) := by
  have := rqCode_lt rq
  have := b2n_lt e
  refine roundTrips_a rfl rfl (by simp only [aV_eq, aW_eq, b2n_false, b2n_true, r5_0, r5_1, r5_2, r5_3, r5_4, k3_0, cat]; omega) (by decide) (.inr rfl) fun wf w hF => ?_
  have m : fld w 25 6 = 0x23 := by simp (disch := first | decide | omega | (simp only [cat]; omega)) [hF]
  have h : fld w 9 4 = 2 := by simp (disch := first | decide | omega | (simp only [cat]; omega)) [hF]
  have nz : fld w 0 32 ≠ 0 := fld_ne_zero m (by decide) (by decide)
  rw [decodeA_high nz (by rw [m]; decide)]
  simp (disch := first | decide | omega | (simp only [cat]; omega)) [decodeA2, decVmem, m, h, hF]

theorem RoundTrip.vsts (v base : R5) (rq : Rq) (t : R5) (k : K3) (e : Bool) : RoundTrip.Statement (.vsts v base rq t k e) := by
  have := rqCode_lt rq
  have := b2n_lt e
  refine roundTrips_a rfl rfl (by simp only [aV_eq, aW_eq, b2n_false, b2n_true, r5_0, r5_1, r5_2, r5_3, r5_4, k3_0, cat]; omega) (by decide) (.inr rfl) fun wf w hF => ?_
  have m : fld w 25 6 = 0x23 := by simp (disch := first | decide | omega | (simp only [cat]; omega)) [hF]
  have h : fld w 9 4 = 3 := by simp (disch := first | decide | omega | (simp only [cat]; omega)) [hF]
  have nz : fld w 0 32 ≠ 0 := fld_ne_zero m (by decide) (by decide)
  rw [decodeA_high nz (by rw [m]; decide)]
  simp (disch := first | decide | omega | (simp only [cat]; omega)) [decodeA2, decVmem, m, h, hF]

theorem RoundTrip.vgath (v base : R5) (rq : Rq) (vi : R5) (k : K3) (e : Bool) : RoundTrip.Statement (.vgath v base rq vi k e) := by
  have := rqCode_lt rq
  have := b2n_lt e
  refine roundTrips_a rfl rfl (by simp only [aV_eq, aW_eq, b2n_false, b2n_true, r5_0, r5_1, r5_2, r5_3, r5_4, k3_0, cat]; omega) (by decide) (.inr rfl) fun wf w hF => ?_
  have m : fld w 25 6 = 0x23 := by simp (disch := first | decide | omega | (simp only [cat]; omega)) [hF]
  have h : fld w 9 4 = 4 := by simp (disch := first | decide | omega | (simp only [cat]; omega)) [hF]
  have nz : fld w 0 32 ≠ 0 := fld_ne_zero m (by decide) (by decide)
  rw [decodeA_high nz (by rw [m]; decide)]
  simp (disch := first | decide | omega | (simp only [cat]; omega)) [decodeA2, decVmem, m, h, hF]

theorem RoundTrip.vscat (v base : R5) (rq : Rq) (vi : R5) (k : K3) (e : Bool) : RoundTrip.Statement (.vscat v base rq vi k e) := by
  have := rqCode_lt rq
  have := b2n_lt e
  refine roundTrips_a rfl rfl (by simp only [aV_eq, aW_eq, b2n_false, b2n_true, r5_0, r5_1, r5_2, r5_3, r5_4, k3_0, cat]; omega) (by decide) (.inr rfl) fun wf w hF => ?_
  have m : fld w 25 6 = 0x23 := by simp (disch := first | decide | omega | (simp only [cat]; omega)) [hF]
  have h : fld w 9 4 = 5 := by simp (disch := first | decide | omega | (simp only [cat]; omega)) [hF]
  have nz : fld w 0 32 ≠ 0 := fld_ne_zero m (by decide) (by decide)
  rw [decodeA_high nz (by rw [m]; decide)]
  simp (disch := first | decide | omega | (simp only [cat]; omega)) [decodeA2, decVmem, m, h, hF]

theorem RoundTrip.vldb (v base : R5) (rq : Rq) (ew : Ew) (off : Imm 7) : RoundTrip.Statement (.vldb v base rq ew off) := by
  have := rqCode_lt rq
  have := ewCode_lt ew
  rcases off with off | off
  all_goals
    refine roundTrips_a rfl rfl (by simp only [aV_eq, aW_eq, b2n_false, b2n_true, r5_0, r5_1, r5_2, r5_3, r5_4, k3_0, lbit_fld, lbit_lit, field_fld, field_lit, cat]; omega) (by simp only [word_fld, word_lit]; omega) (by simp (disch := first | decide | omega | (simp only [cat]; omega))) fun wf w hF => ?_
    have m : fld w 25 6 = 0x23 := by simp (disch := first | decide | omega | (simp only [cat]; omega)) [hF]
    have h : fld w 9 4 = 6 := by simp (disch := first | decide | omega | (simp only [cat]; omega)) [hF]
    have nz : fld w 0 32 ≠ 0 := fld_ne_zero m (by decide) (by decide)
    rw [decodeA_high nz (by rw [m]; decide)]
    simp (disch := first | decide | omega | (simp only [cat]; omega)) [decodeA2, decVmem, m, h, hF]

theorem RoundTrip.vldt (v base : R5) (rq : Rq) (e : Bool) : RoundTrip.Statement (.vldt v base rq e) := by
  have := rqCode_lt rq
  have := b2n_lt e
  have wfx : (Instr.vldt v base rq e).wf = true → (vldtOk v e) = true := id
  rcases e with _ | _
  all_goals
    refine roundTrips_a rfl rfl (by simp only [aV_eq, aW_eq, b2n_false, b2n_true, r5_0, r5_1, r5_2, r5_3, r5_4, k3_0, cat]; omega) (by decide) (.inr rfl) fun wf w hF => ?_
    have m : fld w 25 6 = 0x23 := by simp (disch := first | decide | omega | (simp only [cat]; omega)) [hF]
    have h : fld w 9 4 = 7 := by simp (disch := first | decide | omega | (simp only [cat]; omega)) [hF]
    have nz : fld w 0 32 ≠ 0 := fld_ne_zero m (by decide) (by decide)
    rw [decodeA_high nz (by rw [m]; decide)]
    replace wf := wfx wf
    try simp at wf
    simp (disch := first | decide | omega | (simp only [cat]; omega)) [decodeA2, decVmem, wf, m, h, hF]

theorem RoundTrip.pf (base : R5) (rq : Rq) (off : Imm 6) : RoundTrip.Statement (.pf base rq off) := by
  have := rqCode_lt rq
  rcases off with off | off
  all_goals
    refine roundTrips_a rfl rfl (by simp only [aV_eq, aW_eq, b2n_false, b2n_true, r5_0, r5_1, r5_2, r5_3, r5_4, k3_0, lbit_fld, lbit_lit, field_fld, field_lit, cat]; omega) (by simp only [word_fld, word_lit]; omega) (by simp (disch := first | decide | omega | (simp only [cat]; omega))) fun wf w hF => ?_
    have m : fld w 25 6 = 0x23 := by simp (disch := first | decide | omega | (simp only [cat]; omega)) [hF]
    have h : fld w 9 4 = 8 := by simp (disch := first | decide | omega | (simp only [cat]; omega)) [hF]
    have nz : fld w 0 32 ≠ 0 := fld_ne_zero m (by decide) (by decide)
    rw [decodeA_high nz (by rw [m]; decide)]
    simp (disch := first | decide | omega | (simp only [cat]; omega)) [decodeA2, decVmem, m, h, hF]

theorem RoundTrip.cflush (base : R5) (rq : Rq) (off : Imm 6) : RoundTrip.Statement (.cflush base rq off) := by
  have := rqCode_lt rq
  rcases off with off | off
  all_goals
    refine roundTrips_a rfl rfl (by simp only [aV_eq, aW_eq, b2n_false, b2n_true, r5_0, r5_1, r5_2, r5_3, r5_4, k3_0, lbit_fld, lbit_lit, field_fld, field_lit, cat]; omega) (by simp only [word_fld, word_lit]; omega) (by simp (disch := first | decide | omega | (simp only [cat]; omega))) fun wf w hF => ?_
    have m : fld w 25 6 = 0x23 := by simp (disch := first | decide | omega | (simp only [cat]; omega)) [hF]
    have h : fld w 9 4 = 9 := by simp (disch := first | decide | omega | (simp only [cat]; omega)) [hF]
    have nz : fld w 0 32 ≠ 0 := fld_ne_zero m (by decide) (by decide)
    rw [decodeA_high nz (by rw [m]; decide)]
    simp (disch := first | decide | omega | (simp only [cat]; omega)) [decodeA2, decVmem, m, h, hF]

theorem RoundTrip.xswap (n base : R5) (rq : Rq) : RoundTrip.Statement (.xswap n base rq) := by
  have := rqCode_lt rq
  refine roundTrips_a rfl rfl (by simp only [aV_eq, aW_eq, b2n_false, b2n_true, r5_0, r5_1, r5_2, r5_3, r5_4, k3_0, cat]; omega) (by decide) (.inr rfl) fun wf w hF => ?_
  have m : fld w 25 6 = 0x23 := by simp (disch := first | decide | omega | (simp only [cat]; omega)) [hF]
  have h : fld w 9 4 = 10 := by simp (disch := first | decide | omega | (simp only [cat]; omega)) [hF]
  have nz : fld w 0 32 ≠ 0 := fld_ne_zero m (by decide) (by decide)
  rw [decodeA_high nz (by rw [m]; decide)]
  simp (disch := first | decide | omega | (simp only [cat]; omega)) [decodeA2, decVmem, m, h, hF]

theorem RoundTrip.vmap (a b : R5) (w : W4) : RoundTrip.Statement (.vmap a b w) := by
  refine roundTrips_a rfl rfl (by simp only [aR_eq, aW_eq, b2n_false, b2n_true, r5_0, r5_1, r5_2, r5_3, r5_4, k3_0, cat]; omega) (by decide) (.inr rfl) fun wf w hF => ?_
  have m : fld w 25 6 = 0x24 := by simp (disch := first | decide | omega | (simp only [cat]; omega)) [hF]
  have h : fld w 4 6 = 0 := by simp (disch := first | decide | omega | (simp only [cat]; omega)) [hF]
  have nz : fld w 0 32 ≠ 0 := fld_ne_zero m (by decide) (by decide)
  rw [decodeA_high nz (by rw [m]; decide)]
  simp (disch := first | decide | omega | (simp only [cat]; omega)) [decodeA2, decVer, m, h, hF]

theorem RoundTrip.vmapRel (a b : R5) (w : W4) : RoundTrip.Statement (.vmapRel a b w) := by
  refine roundTrips_a rfl rfl (by simp only [aR_eq, aW_eq, b2n_false, b2n_true, r5_0, r5_1, r5_2, r5_3, r5_4, k3_0, cat]; omega) (by decide) (.inr rfl) fun wf w hF => ?_
  have m : fld w 25 6 = 0x24 := by simp (disch := first | decide | omega | (simp only [cat]; omega)) [hF]
  have h : fld w 4 6 = 1 := by simp (disch := first | decide | omega | (simp only [cat]; omega)) [hF]
  have nz : fld w 0 32 ≠ 0 := fld_ne_zero m (by decide) (by decide)
  rw [decodeA_high nz (by rw [m]; decide)]
  simp (disch := first | decide | omega | (simp only [cat]; omega)) [decodeA2, decVer, m, h, hF]

theorem RoundTrip.vunmap (w : W4) : RoundTrip.Statement (.vunmap w) := by
  refine roundTrips_a rfl rfl (by simp only [aR_eq, aW_eq, b2n_false, b2n_true, r5_0, r5_1, r5_2, r5_3, r5_4, k3_0, cat]; omega) (by decide) (.inr rfl) fun wf w hF => ?_
  have m : fld w 25 6 = 0x24 := by simp (disch := first | decide | omega | (simp only [cat]; omega)) [hF]
  have h : fld w 4 6 = 2 := by simp (disch := first | decide | omega | (simp only [cat]; omega)) [hF]
  have nz : fld w 0 32 ≠ 0 := fld_ne_zero m (by decide) (by decide)
  rw [decodeA_high nz (by rw [m]; decide)]
  simp (disch := first | decide | omega | (simp only [cat]; omega)) [decodeA2, decVer, m, h, hF]

theorem RoundTrip.vdraftNew (d a : R5) (cls : TileClass) (w : W4) : RoundTrip.Statement (.vdraftNew d a cls w) := by
  have := classCode_lt cls
  refine roundTrips_a rfl rfl (by simp only [aW_eq, b2n_false, b2n_true, r5_0, r5_1, r5_2, r5_3, r5_4, k3_0, cat]; omega) (by decide) (.inr rfl) fun wf w hF => ?_
  have m : fld w 25 6 = 0x24 := by simp (disch := first | decide | omega | (simp only [cat]; omega)) [hF]
  have h : fld w 4 6 = 3 := by simp (disch := first | decide | omega | (simp only [cat]; omega)) [hF]
  have nz : fld w 0 32 ≠ 0 := fld_ne_zero m (by decide) (by decide)
  rw [decodeA_high nz (by rw [m]; decide)]
  simp (disch := first | decide | omega | (simp only [cat]; omega)) [decodeA2, decVer, m, h, hF]

theorem RoundTrip.vdraftJoin (d a : R5) (w : W4) : RoundTrip.Statement (.vdraftJoin d a w) := by
  refine roundTrips_a rfl rfl (by simp only [aR_eq, aW_eq, b2n_false, b2n_true, r5_0, r5_1, r5_2, r5_3, r5_4, k3_0, cat]; omega) (by decide) (.inr rfl) fun wf w hF => ?_
  have m : fld w 25 6 = 0x24 := by simp (disch := first | decide | omega | (simp only [cat]; omega)) [hF]
  have h : fld w 4 6 = 4 := by simp (disch := first | decide | omega | (simp only [cat]; omega)) [hF]
  have nz : fld w 0 32 ≠ 0 := fld_ne_zero m (by decide) (by decide)
  rw [decodeA_high nz (by rw [m]; decide)]
  simp (disch := first | decide | omega | (simp only [cat]; omega)) [decodeA2, decVer, m, h, hF]

theorem RoundTrip.vpub (a : R5) (w : W4) : RoundTrip.Statement (.vpub a w) := by
  refine roundTrips_a rfl rfl (by simp only [aR_eq, aW_eq, b2n_false, b2n_true, r5_0, r5_1, r5_2, r5_3, r5_4, k3_0, cat]; omega) (by decide) (.inr rfl) fun wf w hF => ?_
  have m : fld w 25 6 = 0x24 := by simp (disch := first | decide | omega | (simp only [cat]; omega)) [hF]
  have h : fld w 4 6 = 5 := by simp (disch := first | decide | omega | (simp only [cat]; omega)) [hF]
  have nz : fld w 0 32 ≠ 0 := fld_ne_zero m (by decide) (by decide)
  rw [decodeA_high nz (by rw [m]; decide)]
  simp (disch := first | decide | omega | (simp only [cat]; omega)) [decodeA2, decVer, m, h, hF]

theorem RoundTrip.vdone (w : W4) : RoundTrip.Statement (.vdone w) := by
  refine roundTrips_a rfl rfl (by simp only [aR_eq, aW_eq, b2n_false, b2n_true, r5_0, r5_1, r5_2, r5_3, r5_4, k3_0, cat]; omega) (by decide) (.inr rfl) fun wf w hF => ?_
  have m : fld w 25 6 = 0x24 := by simp (disch := first | decide | omega | (simp only [cat]; omega)) [hF]
  have h : fld w 4 6 = 6 := by simp (disch := first | decide | omega | (simp only [cat]; omega)) [hF]
  have nz : fld w 0 32 ≠ 0 := fld_ne_zero m (by decide) (by decide)
  rw [decodeA_high nz (by rw [m]; decide)]
  simp (disch := first | decide | omega | (simp only [cat]; omega)) [decodeA2, decVer, m, h, hF]

theorem RoundTrip.vlatest (d a : R5) : RoundTrip.Statement (.vlatest d a) := by
  refine roundTrips_a rfl rfl (by simp only [aR_eq, aW_eq, b2n_false, b2n_true, r5_0, r5_1, r5_2, r5_3, r5_4, k3_0, cat]; omega) (by decide) (.inr rfl) fun wf w hF => ?_
  have m : fld w 25 6 = 0x24 := by simp (disch := first | decide | omega | (simp only [cat]; omega)) [hF]
  have h : fld w 4 6 = 7 := by simp (disch := first | decide | omega | (simp only [cat]; omega)) [hF]
  have nz : fld w 0 32 ≠ 0 := fld_ne_zero m (by decide) (by decide)
  rw [decodeA_high nz (by rw [m]; decide)]
  simp (disch := first | decide | omega | (simp only [cat]; omega)) [decodeA2, decVer, m, h, hF]

theorem RoundTrip.vsub (a : R5) (sq : BitVec 8) : RoundTrip.Statement (.vsub a sq) := by
  refine roundTrips_a rfl rfl (by simp only [aW_eq, b2n_false, b2n_true, r5_0, r5_1, r5_2, r5_3, r5_4, k3_0, cat]; omega) (by decide) (.inr rfl) fun wf w hF => ?_
  have m : fld w 25 6 = 0x25 := by simp (disch := first | decide | omega | (simp only [cat]; omega)) [hF]
  have h : fld w 20 5 = 0 := by simp (disch := first | decide | omega | (simp only [cat]; omega)) [hF]
  have nz : fld w 0 32 ≠ 0 := fld_ne_zero m (by decide) (by decide)
  rw [decodeA_high nz (by rw [m]; decide)]
  simp (disch := first | decide | omega | (simp only [cat]; omega)) [decodeA2, decSub, m, h, hF]

theorem RoundTrip.vunsub (a : R5) (sq : BitVec 8) : RoundTrip.Statement (.vunsub a sq) := by
  refine roundTrips_a rfl rfl (by simp only [aW_eq, b2n_false, b2n_true, r5_0, r5_1, r5_2, r5_3, r5_4, k3_0, cat]; omega) (by decide) (.inr rfl) fun wf w hF => ?_
  have m : fld w 25 6 = 0x25 := by simp (disch := first | decide | omega | (simp only [cat]; omega)) [hF]
  have h : fld w 20 5 = 1 := by simp (disch := first | decide | omega | (simp only [cat]; omega)) [hF]
  have nz : fld w 0 32 ≠ 0 := fld_ne_zero m (by decide) (by decide)
  rw [decodeA_high nz (by rw [m]; decide)]
  simp (disch := first | decide | omega | (simp only [cat]; omega)) [decodeA2, decSub, m, h, hF]

theorem RoundTrip.vretain (a : R5) (k : BitVec 4) : RoundTrip.Statement (.vretain a k) := by
  refine roundTrips_a rfl rfl (by simp only [aW_eq, b2n_false, b2n_true, r5_0, r5_1, r5_2, r5_3, r5_4, k3_0, cat]; omega) (by decide) (.inr rfl) fun wf w hF => ?_
  have m : fld w 25 6 = 0x25 := by simp (disch := first | decide | omega | (simp only [cat]; omega)) [hF]
  have h : fld w 20 5 = 2 := by simp (disch := first | decide | omega | (simp only [cat]; omega)) [hF]
  have nz : fld w 0 32 ≠ 0 := fld_ne_zero m (by decide) (by decide)
  rw [decodeA_high nz (by rw [m]; decide)]
  simp (disch := first | decide | omega | (simp only [cat]; omega)) [decodeA2, decSub, m, h, hF]

theorem RoundTrip.vdrop (a : R5) : RoundTrip.Statement (.vdrop a) := by
  refine roundTrips_a rfl rfl (by simp only [aW_eq, b2n_false, b2n_true, r5_0, r5_1, r5_2, r5_3, r5_4, k3_0, cat]; omega) (by decide) (.inr rfl) fun wf w hF => ?_
  have m : fld w 25 6 = 0x25 := by simp (disch := first | decide | omega | (simp only [cat]; omega)) [hF]
  have h : fld w 20 5 = 3 := by simp (disch := first | decide | omega | (simp only [cat]; omega)) [hF]
  have nz : fld w 0 32 ≠ 0 := fld_ne_zero m (by decide) (by decide)
  rw [decodeA_high nz (by rw [m]; decide)]
  simp (disch := first | decide | omega | (simp only [cat]; omega)) [decodeA2, decSub, m, h, hF]

theorem RoundTrip.lrw (d a : R5) (w : Bool) : RoundTrip.Statement (.lrw d a w) := by
  have := b2n_lt w
  refine roundTrips_a rfl rfl (by simp only [aR_eq, aW_eq, b2n_false, b2n_true, r5_0, r5_1, r5_2, r5_3, r5_4, k3_0, cat]; omega) (by decide) (.inr rfl) fun wf w hF => ?_
  have m : fld w 25 6 = 0x28 := by simp (disch := first | decide | omega | (simp only [cat]; omega)) [hF]
  have h : fld w 5 5 = 0 := by simp (disch := first | decide | omega | (simp only [cat]; omega)) [hF]
  have nz : fld w 0 32 ≠ 0 := fld_ne_zero m (by decide) (by decide)
  rw [decodeA_high nz (by rw [m]; decide)]
  simp (disch := first | decide | omega | (simp only [cat]; omega)) [decodeA2, decResv, m, h, hF]

theorem RoundTrip.sch (a b : R5) (w : Bool) : RoundTrip.Statement (.sch a b w) := by
  have := b2n_lt w
  refine roundTrips_a rfl rfl (by simp only [aR_eq, aW_eq, b2n_false, b2n_true, r5_0, r5_1, r5_2, r5_3, r5_4, k3_0, cat]; omega) (by decide) (.inr rfl) fun wf w hF => ?_
  have m : fld w 25 6 = 0x28 := by simp (disch := first | decide | omega | (simp only [cat]; omega)) [hF]
  have h : fld w 5 5 = 1 := by simp (disch := first | decide | omega | (simp only [cat]; omega)) [hF]
  have nz : fld w 0 32 ≠ 0 := fld_ne_zero m (by decide) (by decide)
  rw [decodeA_high nz (by rw [m]; decide)]
  simp (disch := first | decide | omega | (simp only [cat]; omega)) [decodeA2, decResv, m, h, hF]

theorem RoundTrip.rls (a : R5) : RoundTrip.Statement (.rls a) := by
  refine roundTrips_a rfl rfl (by simp only [aR_eq, aW_eq, b2n_false, b2n_true, r5_0, r5_1, r5_2, r5_3, r5_4, k3_0, cat]; omega) (by decide) (.inr rfl) fun wf w hF => ?_
  have m : fld w 25 6 = 0x28 := by simp (disch := first | decide | omega | (simp only [cat]; omega)) [hF]
  have h : fld w 5 5 = 2 := by simp (disch := first | decide | omega | (simp only [cat]; omega)) [hF]
  have nz : fld w 0 32 ≠ 0 := fld_ne_zero m (by decide) (by decide)
  rw [decodeA_high nz (by rw [m]; decide)]
  simp (disch := first | decide | omega | (simp only [cat]; omega)) [decodeA2, decResv, m, h, hF]

theorem RoundTrip.amo (d a b : R5) (w : Bool) (op : AmoOp) : RoundTrip.Statement (.amo d a b w op) := by
  have := b2n_lt w
  have := amoCode_lt op
  refine roundTrips_a rfl rfl (by simp only [aR_eq, aW_eq, b2n_false, b2n_true, r5_0, r5_1, r5_2, r5_3, r5_4, k3_0, cat]; omega) (by decide) (.inr rfl) fun wf w hF => ?_
  have m : fld w 25 6 = 0x28 := by simp (disch := first | decide | omega | (simp only [cat]; omega)) [hF]
  have h : fld w 5 5 = 3 := by simp (disch := first | decide | omega | (simp only [cat]; omega)) [hF]
  have nz : fld w 0 32 ≠ 0 := fld_ne_zero m (by decide) (by decide)
  rw [decodeA_high nz (by rw [m]; decide)]
  simp (disch := first | decide | omega | (simp only [cat]; omega)) [decodeA2, decResv, m, h, hF]

theorem RoundTrip.acas (d a b : R5) (w : Bool) : RoundTrip.Statement (.acas d a b w) := by
  have := b2n_lt w
  refine roundTrips_a rfl rfl (by simp only [aR_eq, aW_eq, b2n_false, b2n_true, r5_0, r5_1, r5_2, r5_3, r5_4, k3_0, cat]; omega) (by decide) (.inr rfl) fun wf w hF => ?_
  have m : fld w 25 6 = 0x28 := by simp (disch := first | decide | omega | (simp only [cat]; omega)) [hF]
  have h : fld w 5 5 = 4 := by simp (disch := first | decide | omega | (simp only [cat]; omega)) [hF]
  have nz : fld w 0 32 ≠ 0 := fld_ne_zero m (by decide) (by decide)
  rw [decodeA_high nz (by rw [m]; decide)]
  simp (disch := first | decide | omega | (simp only [cat]; omega)) [decodeA2, decResv, m, h, hF]

theorem RoundTrip.ured (a b : R5) (tag : BitVec 4) : RoundTrip.Statement (.ured a b tag) := by
  refine roundTrips_a rfl rfl (by simp only [aR_eq, aW_eq, b2n_false, b2n_true, r5_0, r5_1, r5_2, r5_3, r5_4, k3_0, cat]; omega) (by decide) (.inr rfl) fun wf w hF => ?_
  have m : fld w 25 6 = 0x29 := by simp (disch := first | decide | omega | (simp only [cat]; omega)) [hF]
  have h : fld w 7 3 = 0 := by simp (disch := first | decide | omega | (simp only [cat]; omega)) [hF]
  have nz : fld w 0 32 ≠ 0 := fld_ne_zero m (by decide) (by decide)
  rw [decodeA_high nz (by rw [m]; decide)]
  simp (disch := first | decide | omega | (simp only [cat]; omega)) [decodeA2, decUpd, m, h, hF]

theorem RoundTrip.uredv (a v : R5) (k : K3) (tag : BitVec 4) : RoundTrip.Statement (.uredv a v k tag) := by
  refine roundTrips_a rfl rfl (by simp only [aR_eq, aW_eq, b2n_false, b2n_true, r5_0, r5_1, r5_2, r5_3, r5_4, k3_0, cat]; omega) (by decide) (.inr rfl) fun wf w hF => ?_
  have m : fld w 25 6 = 0x29 := by simp (disch := first | decide | omega | (simp only [cat]; omega)) [hF]
  have h : fld w 7 3 = 1 := by simp (disch := first | decide | omega | (simp only [cat]; omega)) [hF]
  have nz : fld w 0 32 ≠ 0 := fld_ne_zero m (by decide) (by decide)
  rw [decodeA_high nz (by rw [m]; decide)]
  simp (disch := first | decide | omega | (simp only [cat]; omega)) [decodeA2, decUpd, m, h, hF]

theorem RoundTrip.odecl (d a : R5) (named lock : Bool) (tag : BitVec 4) : RoundTrip.Statement (.odecl d a named lock tag) := by
  have := b2n_lt named
  have := b2n_lt lock
  have wfx : (Instr.odecl d a named lock tag).wf = true → (named || (!lock && decide (tag = 0))) = true := id
  rcases named with _ | _
  all_goals
    refine roundTrips_a rfl rfl (by simp only [aR_eq, aW_eq, b2n_false, b2n_true, r5_0, r5_1, r5_2, r5_3, r5_4, k3_0, cat]; omega) (by decide) (.inr rfl) fun wf w hF => ?_
    have m : fld w 25 6 = 0x29 := by simp (disch := first | decide | omega | (simp only [cat]; omega)) [hF]
    have h : fld w 7 3 = 2 := by simp (disch := first | decide | omega | (simp only [cat]; omega)) [hF]
    have nz : fld w 0 32 ≠ 0 := fld_ne_zero m (by decide) (by decide)
    rw [decodeA_high nz (by rw [m]; decide)]
    replace wf := wfx wf
    try simp at wf
    simp (disch := first | decide | omega | (simp only [cat]; omega)) [decodeA2, decUpd, wf, m, h, hF]

theorem RoundTrip.ofree (a : R5) : RoundTrip.Statement (.ofree a) := by
  refine roundTrips_a rfl rfl (by simp only [aR_eq, aW_eq, b2n_false, b2n_true, r5_0, r5_1, r5_2, r5_3, r5_4, k3_0, cat]; omega) (by decide) (.inr rfl) fun wf w hF => ?_
  have m : fld w 25 6 = 0x29 := by simp (disch := first | decide | omega | (simp only [cat]; omega)) [hF]
  have h : fld w 7 3 = 3 := by simp (disch := first | decide | omega | (simp only [cat]; omega)) [hF]
  have nz : fld w 0 32 ≠ 0 := fld_ne_zero m (by decide) (by decide)
  rw [decodeA_high nz (by rw [m]; decide)]
  simp (disch := first | decide | omega | (simp only [cat]; omega)) [decodeA2, decUpd, m, h, hF]

theorem RoundTrip.fenceAcq (s : Scope) : RoundTrip.Statement (.fenceAcq s) := by
  have := scopeCode_lt s
  refine roundTrips_a rfl rfl (by simp only [aW_eq, b2n_false, b2n_true, r5_0, r5_1, r5_2, r5_3, r5_4, k3_0, cat]; omega) (by decide) (.inr rfl) fun wf w hF => ?_
  have m : fld w 25 6 = 0x2c := by simp (disch := first | decide | omega | (simp only [cat]; omega)) [hF]
  have nz : fld w 0 32 ≠ 0 := fld_ne_zero m (by decide) (by decide)
  rw [decodeA_high nz (by rw [m]; decide)]
  simp (disch := first | decide | omega | (simp only [cat]; omega)) [decodeA2, decFence, m, hF]

theorem RoundTrip.fenceLl (s : Scope) : RoundTrip.Statement (.fenceLl s) := by
  have := scopeCode_lt s
  refine roundTrips_a rfl rfl (by simp only [aW_eq, b2n_false, b2n_true, r5_0, r5_1, r5_2, r5_3, r5_4, k3_0, cat]; omega) (by decide) (.inr rfl) fun wf w hF => ?_
  have m : fld w 25 6 = 0x2c := by simp (disch := first | decide | omega | (simp only [cat]; omega)) [hF]
  have nz : fld w 0 32 ≠ 0 := fld_ne_zero m (by decide) (by decide)
  rw [decodeA_high nz (by rw [m]; decide)]
  simp (disch := first | decide | omega | (simp only [cat]; omega)) [decodeA2, decFence, m, hF]

theorem RoundTrip.fenceRel (s : Scope) : RoundTrip.Statement (.fenceRel s) := by
  have := scopeCode_lt s
  refine roundTrips_a rfl rfl (by simp only [aW_eq, b2n_false, b2n_true, r5_0, r5_1, r5_2, r5_3, r5_4, k3_0, cat]; omega) (by decide) (.inr rfl) fun wf w hF => ?_
  have m : fld w 25 6 = 0x2c := by simp (disch := first | decide | omega | (simp only [cat]; omega)) [hF]
  have nz : fld w 0 32 ≠ 0 := fld_ne_zero m (by decide) (by decide)
  rw [decodeA_high nz (by rw [m]; decide)]
  simp (disch := first | decide | omega | (simp only [cat]; omega)) [decodeA2, decFence, m, hF]

theorem RoundTrip.fenceFull (s : Scope) : RoundTrip.Statement (.fenceFull s) := by
  have := scopeCode_lt s
  refine roundTrips_a rfl rfl (by simp only [aW_eq, b2n_false, b2n_true, r5_0, r5_1, r5_2, r5_3, r5_4, k3_0, cat]; omega) (by decide) (.inr rfl) fun wf w hF => ?_
  have m : fld w 25 6 = 0x2c := by simp (disch := first | decide | omega | (simp only [cat]; omega)) [hF]
  have nz : fld w 0 32 ≠ 0 := fld_ne_zero m (by decide) (by decide)
  rw [decodeA_high nz (by rw [m]; decide)]
  simp (disch := first | decide | omega | (simp only [cat]; omega)) [decodeA2, decFence, m, hF]

theorem RoundTrip.sqwait (a : R5) (ann : Option Scope) (sq : BitVec 8) : RoundTrip.Statement (.sqwait a ann sq) := by
  rcases ann with _ | ann
  all_goals
    try have := scopeCode_lt ann
    refine roundTrips_a rfl rfl (by simp only [aW_eq, b2n_false, b2n_true, r5_0, r5_1, r5_2, r5_3, r5_4, k3_0, annKind_none, annKind_some, annScope_none, annScope_some, cat]; omega) (by decide) (.inr rfl) fun wf w hF => ?_
    have m : fld w 25 6 = 0x2d := by simp (disch := first | decide | omega | (simp only [cat]; omega)) [hF]
    have h : fld w 8 2 = 0 := by simp (disch := first | decide | omega | (simp only [cat]; omega)) [hF]
    have nz : fld w 0 32 ≠ 0 := fld_ne_zero m (by decide) (by decide)
    rw [decodeA_high nz (by rw [m]; decide)]
    simp (disch := first | decide | omega | (simp only [cat]; omega)) [decodeA2, decSeq, m, h, hF]

theorem RoundTrip.sqinc (inc : BitVec 8) (ann : Option Scope) (sq : BitVec 8) : RoundTrip.Statement (.sqinc inc ann sq) := by
  rcases ann with _ | ann
  all_goals
    try have := scopeCode_lt ann
    refine roundTrips_a rfl rfl (by simp only [b2n_false, b2n_true, r5_0, r5_1, r5_2, r5_3, r5_4, k3_0, annKind_none, annKind_some, annScope_none, annScope_some, cat]; omega) (by decide) (.inr rfl) fun wf w hF => ?_
    have m : fld w 25 6 = 0x2d := by simp (disch := first | decide | omega | (simp only [cat]; omega)) [hF]
    have h : fld w 8 2 = 1 := by simp (disch := first | decide | omega | (simp only [cat]; omega)) [hF]
    have nz : fld w 0 32 ≠ 0 := fld_ne_zero m (by decide) (by decide)
    rw [decodeA_high nz (by rw [m]; decide)]
    simp (disch := first | decide | omega | (simp only [cat]; omega)) [decodeA2, decSeq, m, h, hF]

theorem RoundTrip.sqrd (d : R5) (sq : BitVec 8) : RoundTrip.Statement (.sqrd d sq) := by
  refine roundTrips_a rfl rfl (by simp only [aR_eq, aW_eq, b2n_false, b2n_true, r5_0, r5_1, r5_2, r5_3, r5_4, k3_0, cat]; omega) (by decide) (.inr rfl) fun wf w hF => ?_
  have m : fld w 25 6 = 0x2d := by simp (disch := first | decide | omega | (simp only [cat]; omega)) [hF]
  have h : fld w 8 2 = 2 := by simp (disch := first | decide | omega | (simp only [cat]; omega)) [hF]
  have nz : fld w 0 32 ≠ 0 := fld_ne_zero m (by decide) (by decide)
  rw [decodeA_high nz (by rw [m]; decide)]
  simp (disch := first | decide | omega | (simp only [cat]; omega)) [decodeA2, decSeq, m, h, hF]

theorem RoundTrip.qpush (q : Q4) (a : R5) : RoundTrip.Statement (.qpush q a) := by
  refine roundTrips_a rfl rfl (by simp only [b2n_false, b2n_true, r5_0, r5_1, r5_2, r5_3, r5_4, k3_0, cat]; omega) (by decide) (.inr rfl) fun wf w hF => ?_
  have m : fld w 25 6 = 0x2e := by simp (disch := first | decide | omega | (simp only [cat]; omega)) [hF]
  have h : fld w 4 6 = 0 := by simp (disch := first | decide | omega | (simp only [cat]; omega)) [hF]
  have nz : fld w 0 32 ≠ 0 := fld_ne_zero m (by decide) (by decide)
  rw [decodeA_high nz (by rw [m]; decide)]
  simp (disch := first | decide | omega | (simp only [cat]; omega)) [decodeA2, decQueue, m, h, hF]

theorem RoundTrip.qpop (d : R5) (q : Q4) : RoundTrip.Statement (.qpop d q) := by
  refine roundTrips_a rfl rfl (by simp only [b2n_false, b2n_true, r5_0, r5_1, r5_2, r5_3, r5_4, k3_0, cat]; omega) (by decide) (.inr rfl) fun wf w hF => ?_
  have m : fld w 25 6 = 0x2e := by simp (disch := first | decide | omega | (simp only [cat]; omega)) [hF]
  have h : fld w 4 6 = 1 := by simp (disch := first | decide | omega | (simp only [cat]; omega)) [hF]
  have nz : fld w 0 32 ≠ 0 := fld_ne_zero m (by decide) (by decide)
  rw [decodeA_high nz (by rw [m]; decide)]
  simp (disch := first | decide | omega | (simp only [cat]; omega)) [decodeA2, decQueue, m, h, hF]

theorem RoundTrip.qstat (d : R5) (q : Q4) : RoundTrip.Statement (.qstat d q) := by
  refine roundTrips_a rfl rfl (by simp only [b2n_false, b2n_true, r5_0, r5_1, r5_2, r5_3, r5_4, k3_0, cat]; omega) (by decide) (.inr rfl) fun wf w hF => ?_
  have m : fld w 25 6 = 0x2e := by simp (disch := first | decide | omega | (simp only [cat]; omega)) [hF]
  have h : fld w 4 6 = 2 := by simp (disch := first | decide | omega | (simp only [cat]; omega)) [hF]
  have nz : fld w 0 32 ≠ 0 := fld_ne_zero m (by decide) (by decide)
  rw [decodeA_high nz (by rw [m]; decide)]
  simp (disch := first | decide | omega | (simp only [cat]; omega)) [decodeA2, decQueue, m, h, hF]

theorem RoundTrip.qpushc (v : R5) (h : Bool) : RoundTrip.Statement (.qpushc v h) := by
  have := b2n_lt h
  refine roundTrips_a rfl rfl (by simp only [aR_eq, aW_eq, b2n_false, b2n_true, r5_0, r5_1, r5_2, r5_3, r5_4, k3_0, cat]; omega) (by decide) (.inr rfl) fun wf w hF => ?_
  have m : fld w 25 6 = 0x2e := by simp (disch := first | decide | omega | (simp only [cat]; omega)) [hF]
  have h : fld w 4 6 = 3 := by simp (disch := first | decide | omega | (simp only [cat]; omega)) [hF]
  have nz : fld w 0 32 ≠ 0 := fld_ne_zero m (by decide) (by decide)
  rw [decodeA_high nz (by rw [m]; decide)]
  simp (disch := first | decide | omega | (simp only [cat]; omega)) [decodeA2, decQueue, m, h, hF]

theorem RoundTrip.msg (a b : R5) : RoundTrip.Statement (.msg a b) := by
  refine roundTrips_a rfl rfl (by simp only [aR_eq, aW_eq, b2n_false, b2n_true, r5_0, r5_1, r5_2, r5_3, r5_4, k3_0, cat]; omega) (by decide) (.inr rfl) fun wf w hF => ?_
  have m : fld w 25 6 = 0x2e := by simp (disch := first | decide | omega | (simp only [cat]; omega)) [hF]
  have h : fld w 4 6 = 4 := by simp (disch := first | decide | omega | (simp only [cat]; omega)) [hF]
  have nz : fld w 0 32 ≠ 0 := fld_ne_zero m (by decide) (by decide)
  rw [decodeA_high nz (by rw [m]; decide)]
  simp (disch := first | decide | omega | (simp only [cat]; omega)) [decodeA2, decQueue, m, h, hF]

theorem RoundTrip.spawn (a b : R5) : RoundTrip.Statement (.spawn a b) := by
  refine roundTrips_a rfl rfl (by simp only [aR_eq, aW_eq, b2n_false, b2n_true, r5_0, r5_1, r5_2, r5_3, r5_4, k3_0, cat]; omega) (by decide) (.inr rfl) fun wf w hF => ?_
  have m : fld w 25 6 = 0x30 := by simp (disch := first | decide | omega | (simp only [cat]; omega)) [hF]
  have h : fld w 4 6 = 0 := by simp (disch := first | decide | omega | (simp only [cat]; omega)) [hF]
  have nz : fld w 0 32 ≠ 0 := fld_ne_zero m (by decide) (by decide)
  rw [decodeA_high nz (by rw [m]; decide)]
  simp (disch := first | decide | omega | (simp only [cat]; omega)) [decodeA2, decTask, m, h, hF]

theorem RoundTrip.join (a : R5) : RoundTrip.Statement (.join a) := by
  refine roundTrips_a rfl rfl (by simp only [aR_eq, aW_eq, b2n_false, b2n_true, r5_0, r5_1, r5_2, r5_3, r5_4, k3_0, cat]; omega) (by decide) (.inr rfl) fun wf w hF => ?_
  have m : fld w 25 6 = 0x30 := by simp (disch := first | decide | omega | (simp only [cat]; omega)) [hF]
  have h : fld w 4 6 = 1 := by simp (disch := first | decide | omega | (simp only [cat]; omega)) [hF]
  have nz : fld w 0 32 ≠ 0 := fld_ne_zero m (by decide) (by decide)
  rw [decodeA_high nz (by rw [m]; decide)]
  simp (disch := first | decide | omega | (simp only [cat]; omega)) [decodeA2, decTask, m, h, hF]

theorem RoundTrip.steal (d a : R5) : RoundTrip.Statement (.steal d a) := by
  refine roundTrips_a rfl rfl (by simp only [aR_eq, aW_eq, b2n_false, b2n_true, r5_0, r5_1, r5_2, r5_3, r5_4, k3_0, cat]; omega) (by decide) (.inr rfl) fun wf w hF => ?_
  have m : fld w 25 6 = 0x30 := by simp (disch := first | decide | omega | (simp only [cat]; omega)) [hF]
  have h : fld w 4 6 = 2 := by simp (disch := first | decide | omega | (simp only [cat]; omega)) [hF]
  have nz : fld w 0 32 ≠ 0 := fld_ne_zero m (by decide) (by decide)
  rw [decodeA_high nz (by rw [m]; decide)]
  simp (disch := first | decide | omega | (simp only [cat]; omega)) [decodeA2, decTask, m, h, hF]

theorem RoundTrip.taskw (a : R5) : RoundTrip.Statement (.taskw a) := by
  refine roundTrips_a rfl rfl (by simp only [aR_eq, aW_eq, b2n_false, b2n_true, r5_0, r5_1, r5_2, r5_3, r5_4, k3_0, cat]; omega) (by decide) (.inr rfl) fun wf w hF => ?_
  have m : fld w 25 6 = 0x30 := by simp (disch := first | decide | omega | (simp only [cat]; omega)) [hF]
  have h : fld w 4 6 = 3 := by simp (disch := first | decide | omega | (simp only [cat]; omega)) [hF]
  have nz : fld w 0 32 ≠ 0 := fld_ne_zero m (by decide) (by decide)
  rw [decodeA_high nz (by rw [m]; decide)]
  simp (disch := first | decide | omega | (simp only [cat]; omega)) [decodeA2, decTask, m, h, hF]

theorem RoundTrip.texit : RoundTrip.Statement .texit := by
  refine roundTrips_a rfl rfl (by simp only [aR_eq, aW_eq, b2n_false, b2n_true, r5_0, r5_1, r5_2, r5_3, r5_4, k3_0, cat]; omega) (by decide) (.inr rfl) fun wf w hF => ?_
  have m : fld w 25 6 = 0x30 := by simp (disch := first | decide | omega | (simp only [cat]; omega)) [hF]
  have h : fld w 4 6 = 4 := by simp (disch := first | decide | omega | (simp only [cat]; omega)) [hF]
  have nz : fld w 0 32 ≠ 0 := fld_ne_zero m (by decide) (by decide)
  rw [decodeA_high nz (by rw [m]; decide)]
  simp (disch := first | decide | omega | (simp only [cat]; omega)) [decodeA2, decTask, m, h, hF]

theorem RoundTrip.launch (a : R5) : RoundTrip.Statement (.launch a) := by
  refine roundTrips_a rfl rfl (by simp only [aR_eq, aW_eq, b2n_false, b2n_true, r5_0, r5_1, r5_2, r5_3, r5_4, k3_0, cat]; omega) (by decide) (.inr rfl) fun wf w hF => ?_
  have m : fld w 25 6 = 0x30 := by simp (disch := first | decide | omega | (simp only [cat]; omega)) [hF]
  have h : fld w 4 6 = 5 := by simp (disch := first | decide | omega | (simp only [cat]; omega)) [hF]
  have nz : fld w 0 32 ≠ 0 := fld_ne_zero m (by decide) (by decide)
  rw [decodeA_high nz (by rw [m]; decide)]
  simp (disch := first | decide | omega | (simp only [cat]; omega)) [decodeA2, decTask, m, h, hF]

theorem RoundTrip.vtrig (a b : R5) : RoundTrip.Statement (.vtrig a b) := by
  refine roundTrips_a rfl rfl (by simp only [aR_eq, aW_eq, b2n_false, b2n_true, r5_0, r5_1, r5_2, r5_3, r5_4, k3_0, cat]; omega) (by decide) (.inr rfl) fun wf w hF => ?_
  have m : fld w 25 6 = 0x30 := by simp (disch := first | decide | omega | (simp only [cat]; omega)) [hF]
  have h : fld w 4 6 = 6 := by simp (disch := first | decide | omega | (simp only [cat]; omega)) [hF]
  have nz : fld w 0 32 ≠ 0 := fld_ne_zero m (by decide) (by decide)
  rw [decodeA_high nz (by rw [m]; decide)]
  simp (disch := first | decide | omega | (simp only [cat]; omega)) [decodeA2, decTask, m, h, hF]

theorem RoundTrip.gang (dir : Bool) (nc : BitVec 2) : RoundTrip.Statement (.gang dir nc) := by
  have := b2n_lt dir
  refine roundTrips_a rfl rfl (by simp only [aR_eq, aW_eq, b2n_false, b2n_true, r5_0, r5_1, r5_2, r5_3, r5_4, k3_0, cat]; omega) (by decide) (.inr rfl) fun wf w hF => ?_
  have m : fld w 25 6 = 0x31 := by simp (disch := first | decide | omega | (simp only [cat]; omega)) [hF]
  have h : fld w 4 6 = 0 := by simp (disch := first | decide | omega | (simp only [cat]; omega)) [hF]
  have nz : fld w 0 32 ≠ 0 := fld_ne_zero m (by decide) (by decide)
  rw [decodeA_high nz (by rw [m]; decide)]
  simp (disch := first | decide | omega | (simp only [cat]; omega)) [decodeA2, decGang, m, h, hF]

theorem RoundTrip.ungang : RoundTrip.Statement .ungang := by
  refine roundTrips_a rfl rfl (by simp only [aR_eq, aW_eq, b2n_false, b2n_true, r5_0, r5_1, r5_2, r5_3, r5_4, k3_0, cat]; omega) (by decide) (.inr rfl) fun wf w hF => ?_
  have m : fld w 25 6 = 0x31 := by simp (disch := first | decide | omega | (simp only [cat]; omega)) [hF]
  have h : fld w 4 6 = 1 := by simp (disch := first | decide | omega | (simp only [cat]; omega)) [hF]
  have nz : fld w 0 32 ≠ 0 := fld_ne_zero m (by decide) (by decide)
  rw [decodeA_high nz (by rw [m]; decide)]
  simp (disch := first | decide | omega | (simp only [cat]; omega)) [decodeA2, decGang, m, h, hF]

theorem RoundTrip.bar (d a : R5) (ev : Bool) : RoundTrip.Statement (.bar d a ev) := by
  have := b2n_lt ev
  have wfx : (Instr.bar d a ev).wf = true → (ev || decide (a = 0)) = true := id
  rcases ev with _ | _
  all_goals
    refine roundTrips_a rfl rfl (by simp only [aR_eq, aW_eq, b2n_false, b2n_true, r5_0, r5_1, r5_2, r5_3, r5_4, k3_0, cat]; omega) (by decide) (.inr rfl) fun wf w hF => ?_
    have m : fld w 25 6 = 0x31 := by simp (disch := first | decide | omega | (simp only [cat]; omega)) [hF]
    have h : fld w 4 6 = 2 := by simp (disch := first | decide | omega | (simp only [cat]; omega)) [hF]
    have nz : fld w 0 32 ≠ 0 := fld_ne_zero m (by decide) (by decide)
    rw [decodeA_high nz (by rw [m]; decide)]
    replace wf := wfx wf
    try simp at wf
    simp (disch := first | decide | omega | (simp only [cat]; omega)) [decodeA2, decGang, wf, m, h, hF]

theorem RoundTrip.bara : RoundTrip.Statement .bara := by
  refine roundTrips_a rfl rfl (by simp only [aR_eq, aW_eq, b2n_false, b2n_true, r5_0, r5_1, r5_2, r5_3, r5_4, k3_0, cat]; omega) (by decide) (.inr rfl) fun wf w hF => ?_
  have m : fld w 25 6 = 0x31 := by simp (disch := first | decide | omega | (simp only [cat]; omega)) [hF]
  have h : fld w 4 6 = 3 := by simp (disch := first | decide | omega | (simp only [cat]; omega)) [hF]
  have nz : fld w 0 32 ≠ 0 := fld_ne_zero m (by decide) (by decide)
  rw [decodeA_high nz (by rw [m]; decide)]
  simp (disch := first | decide | omega | (simp only [cat]; omega)) [decodeA2, decGang, m, h, hF]

theorem RoundTrip.barw (d : R5) : RoundTrip.Statement (.barw d) := by
  refine roundTrips_a rfl rfl (by simp only [aR_eq, aW_eq, b2n_false, b2n_true, r5_0, r5_1, r5_2, r5_3, r5_4, k3_0, cat]; omega) (by decide) (.inr rfl) fun wf w hF => ?_
  have m : fld w 25 6 = 0x31 := by simp (disch := first | decide | omega | (simp only [cat]; omega)) [hF]
  have h : fld w 4 6 = 4 := by simp (disch := first | decide | omega | (simp only [cat]; omega)) [hF]
  have nz : fld w 0 32 ≠ 0 := fld_ne_zero m (by decide) (by decide)
  rw [decodeA_high nz (by rw [m]; decide)]
  simp (disch := first | decide | omega | (simp only [cat]; omega)) [decodeA2, decGang, m, h, hF]

theorem RoundTrip.nret : RoundTrip.Statement .nret := by
  refine roundTrips_a rfl rfl (by simp only [aR_eq, aW_eq, b2n_false, b2n_true, r5_0, r5_1, r5_2, r5_3, r5_4, k3_0, cat]; omega) (by decide) (.inr rfl) fun wf w hF => ?_
  have m : fld w 25 6 = 0x32 := by simp (disch := first | decide | omega | (simp only [cat]; omega)) [hF]
  have h : fld w 4 6 = 0 := by simp (disch := first | decide | omega | (simp only [cat]; omega)) [hF]
  have nz : fld w 0 32 ≠ 0 := fld_ne_zero m (by decide) (by decide)
  rw [decodeA_high nz (by rw [m]; decide)]
  simp (disch := first | decide | omega | (simp only [cat]; omega)) [decodeA2, decWait, m, h, hF]

theorem RoundTrip.wait : RoundTrip.Statement .wait := by
  refine roundTrips_a rfl rfl (by simp only [aR_eq, aW_eq, b2n_false, b2n_true, r5_0, r5_1, r5_2, r5_3, r5_4, k3_0, cat]; omega) (by decide) (.inr rfl) fun wf w hF => ?_
  have m : fld w 25 6 = 0x32 := by simp (disch := first | decide | omega | (simp only [cat]; omega)) [hF]
  have h : fld w 4 6 = 1 := by simp (disch := first | decide | omega | (simp only [cat]; omega)) [hF]
  have nz : fld w 0 32 ≠ 0 := fld_ne_zero m (by decide) (by decide)
  rw [decodeA_high nz (by rw [m]; decide)]
  simp (disch := first | decide | omega | (simp only [cat]; omega)) [decodeA2, decWait, m, h, hF]

theorem RoundTrip.yield : RoundTrip.Statement .yield := by
  refine roundTrips_a rfl rfl (by simp only [aR_eq, aW_eq, b2n_false, b2n_true, r5_0, r5_1, r5_2, r5_3, r5_4, k3_0, cat]; omega) (by decide) (.inr rfl) fun wf w hF => ?_
  have m : fld w 25 6 = 0x32 := by simp (disch := first | decide | omega | (simp only [cat]; omega)) [hF]
  have h : fld w 4 6 = 2 := by simp (disch := first | decide | omega | (simp only [cat]; omega)) [hF]
  have nz : fld w 0 32 ≠ 0 := fld_ne_zero m (by decide) (by decide)
  rw [decodeA_high nz (by rw [m]; decide)]
  simp (disch := first | decide | omega | (simp only [cat]; omega)) [decodeA2, decWait, m, h, hF]

theorem RoundTrip.mfs (d : R5) (sel : BitVec 12) : RoundTrip.Statement (.mfs d sel) := by
  refine roundTrips_a rfl rfl (by simp only [aW_eq, b2n_false, b2n_true, r5_0, r5_1, r5_2, r5_3, r5_4, k3_0, cat]; omega) (by decide) (.inr rfl) fun wf w hF => ?_
  have m : fld w 25 6 = 0x34 := by simp (disch := first | decide | omega | (simp only [cat]; omega)) [hF]
  have h : fld w 12 3 = 0 := by simp (disch := first | decide | omega | (simp only [cat]; omega)) [hF]
  have nz : fld w 0 32 ≠ 0 := fld_ne_zero m (by decide) (by decide)
  rw [decodeA_high nz (by rw [m]; decide)]
  simp (disch := first | decide | omega | (simp only [cat]; omega)) [decodeA2, decState, m, h, hF]

theorem RoundTrip.mts (a : R5) (sel : BitVec 12) : RoundTrip.Statement (.mts a sel) := by
  refine roundTrips_a rfl rfl (by simp only [aW_eq, b2n_false, b2n_true, r5_0, r5_1, r5_2, r5_3, r5_4, k3_0, cat]; omega) (by decide) (.inr rfl) fun wf w hF => ?_
  have m : fld w 25 6 = 0x34 := by simp (disch := first | decide | omega | (simp only [cat]; omega)) [hF]
  have h : fld w 12 3 = 1 := by simp (disch := first | decide | omega | (simp only [cat]; omega)) [hF]
  have nz : fld w 0 32 ≠ 0 := fld_ne_zero m (by decide) (by decide)
  rw [decodeA_high nz (by rw [m]; decide)]
  simp (disch := first | decide | omega | (simp only [cat]; omega)) [decodeA2, decState, m, h, hF]

theorem RoundTrip.ecall : RoundTrip.Statement .ecall := by
  refine roundTrips_a rfl rfl (by simp only [aR_eq, aW_eq, b2n_false, b2n_true, r5_0, r5_1, r5_2, r5_3, r5_4, k3_0, cat]; omega) (by decide) (.inr rfl) fun wf w hF => ?_
  have m : fld w 25 6 = 0x35 := by simp (disch := first | decide | omega | (simp only [cat]; omega)) [hF]
  have h : fld w 4 6 = 0 := by simp (disch := first | decide | omega | (simp only [cat]; omega)) [hF]
  have nz : fld w 0 32 ≠ 0 := fld_ne_zero m (by decide) (by decide)
  rw [decodeA_high nz (by rw [m]; decide)]
  simp (disch := first | decide | omega | (simp only [cat]; omega)) [decodeA2, decSys, m, h, hF]

theorem RoundTrip.brk : RoundTrip.Statement .brk := by
  refine roundTrips_a rfl rfl (by simp only [aR_eq, aW_eq, b2n_false, b2n_true, r5_0, r5_1, r5_2, r5_3, r5_4, k3_0, cat]; omega) (by decide) (.inr rfl) fun wf w hF => ?_
  have m : fld w 25 6 = 0x35 := by simp (disch := first | decide | omega | (simp only [cat]; omega)) [hF]
  have h : fld w 4 6 = 1 := by simp (disch := first | decide | omega | (simp only [cat]; omega)) [hF]
  have nz : fld w 0 32 ≠ 0 := fld_ne_zero m (by decide) (by decide)
  rw [decodeA_high nz (by rw [m]; decide)]
  simp (disch := first | decide | omega | (simp only [cat]; omega)) [decodeA2, decSys, m, h, hF]

theorem RoundTrip.trmark (a : R5) : RoundTrip.Statement (.trmark a) := by
  refine roundTrips_a rfl rfl (by simp only [aR_eq, aW_eq, b2n_false, b2n_true, r5_0, r5_1, r5_2, r5_3, r5_4, k3_0, cat]; omega) (by decide) (.inr rfl) fun wf w hF => ?_
  have m : fld w 25 6 = 0x35 := by simp (disch := first | decide | omega | (simp only [cat]; omega)) [hF]
  have h : fld w 4 6 = 2 := by simp (disch := first | decide | omega | (simp only [cat]; omega)) [hF]
  have nz : fld w 0 32 ≠ 0 := fld_ne_zero m (by decide) (by decide)
  rw [decodeA_high nz (by rw [m]; decide)]
  simp (disch := first | decide | omega | (simp only [cat]; omega)) [decodeA2, decSys, m, h, hF]

theorem RoundTrip.halt : RoundTrip.Statement .halt := by
  refine roundTrips_a rfl rfl (by simp only [aR_eq, aW_eq, b2n_false, b2n_true, r5_0, r5_1, r5_2, r5_3, r5_4, k3_0, cat]; omega) (by decide) (.inr rfl) fun wf w hF => ?_
  have m : fld w 25 6 = 0x35 := by simp (disch := first | decide | omega | (simp only [cat]; omega)) [hF]
  have h : fld w 4 6 = 3 := by simp (disch := first | decide | omega | (simp only [cat]; omega)) [hF]
  have nz : fld w 0 32 ≠ 0 := fld_ne_zero m (by decide) (by decide)
  rw [decodeA_high nz (by rw [m]; decide)]
  simp (disch := first | decide | omega | (simp only [cat]; omega)) [decodeA2, decSys, m, h, hF]

theorem RoundTrip.frdReg (d : R5) (cap : BitVec 2) (kreg : Bool) (n : R5) : RoundTrip.Statement (.frdReg d cap kreg n) := by
  have := b2n_lt kreg
  have wfx : (Instr.frdReg d cap kreg n).wf = true → (!kreg || decide (n.toNat < 8)) = true := id
  rcases kreg with _ | _
  all_goals
    refine roundTrips_a rfl rfl (by simp only [b2n_false, b2n_true, r5_0, r5_1, r5_2, r5_3, r5_4, k3_0, cat]; omega) (by decide) (.inr rfl) fun wf w hF => ?_
    have m : fld w 25 6 = 0x36 := by simp (disch := first | decide | omega | (simp only [cat]; omega)) [hF]
    have h : fld w 12 3 = 0 := by simp (disch := first | decide | omega | (simp only [cat]; omega)) [hF]
    have nz : fld w 0 32 ≠ 0 := fld_ne_zero m (by decide) (by decide)
    rw [decodeA_high nz (by rw [m]; decide)]
    replace wf := wfx wf
    try simp at wf
    simp (disch := first | decide | omega | (simp only [cat]; omega)) [decodeA2, decFrozen, wf, m, h, hF]

theorem RoundTrip.frdState (d : R5) (cap : BitVec 2) (sel : BitVec 12) : RoundTrip.Statement (.frdState d cap sel) := by
  refine roundTrips_a rfl rfl (by simp only [b2n_false, b2n_true, r5_0, r5_1, r5_2, r5_3, r5_4, k3_0, cat]; omega) (by decide) (.inr rfl) fun wf w hF => ?_
  have m : fld w 25 6 = 0x36 := by simp (disch := first | decide | omega | (simp only [cat]; omega)) [hF]
  have h : fld w 12 3 = 1 := by simp (disch := first | decide | omega | (simp only [cat]; omega)) [hF]
  have nz : fld w 0 32 ≠ 0 := fld_ne_zero m (by decide) (by decide)
  rw [decodeA_high nz (by rw [m]; decide)]
  simp (disch := first | decide | omega | (simp only [cat]; omega)) [decodeA2, decFrozen, m, h, hF]

theorem RoundTrip.fwrReg (cap : BitVec 2) (a : R5) (kreg : Bool) (n : R5) : RoundTrip.Statement (.fwrReg cap a kreg n) := by
  have := b2n_lt kreg
  have wfx : (Instr.fwrReg cap a kreg n).wf = true → (!kreg || decide (n.toNat < 8)) = true := id
  rcases kreg with _ | _
  all_goals
    refine roundTrips_a rfl rfl (by simp only [b2n_false, b2n_true, r5_0, r5_1, r5_2, r5_3, r5_4, k3_0, cat]; omega) (by decide) (.inr rfl) fun wf w hF => ?_
    have m : fld w 25 6 = 0x36 := by simp (disch := first | decide | omega | (simp only [cat]; omega)) [hF]
    have h : fld w 12 3 = 2 := by simp (disch := first | decide | omega | (simp only [cat]; omega)) [hF]
    have nz : fld w 0 32 ≠ 0 := fld_ne_zero m (by decide) (by decide)
    rw [decodeA_high nz (by rw [m]; decide)]
    replace wf := wfx wf
    try simp at wf
    simp (disch := first | decide | omega | (simp only [cat]; omega)) [decodeA2, decFrozen, wf, m, h, hF]

theorem RoundTrip.fwrState (cap : BitVec 2) (a : R5) (sel : BitVec 12) : RoundTrip.Statement (.fwrState cap a sel) := by
  refine roundTrips_a rfl rfl (by simp only [b2n_false, b2n_true, r5_0, r5_1, r5_2, r5_3, r5_4, k3_0, cat]; omega) (by decide) (.inr rfl) fun wf w hF => ?_
  have m : fld w 25 6 = 0x36 := by simp (disch := first | decide | omega | (simp only [cat]; omega)) [hF]
  have h : fld w 12 3 = 3 := by simp (disch := first | decide | omega | (simp only [cat]; omega)) [hF]
  have nz : fld w 0 32 ≠ 0 := fld_ne_zero m (by decide) (by decide)
  rw [decodeA_high nz (by rw [m]; decide)]
  simp (disch := first | decide | omega | (simp only [cat]; omega)) [decodeA2, decFrozen, m, h, hF]

theorem RoundTrip.frdv (v : R5) (cap : BitVec 2) (n : R5) : RoundTrip.Statement (.frdv v cap n) := by
  refine roundTrips_a rfl rfl (by simp only [b2n_false, b2n_true, r5_0, r5_1, r5_2, r5_3, r5_4, k3_0, cat]; omega) (by decide) (.inr rfl) fun wf w hF => ?_
  have m : fld w 25 6 = 0x36 := by simp (disch := first | decide | omega | (simp only [cat]; omega)) [hF]
  have h : fld w 12 3 = 4 := by simp (disch := first | decide | omega | (simp only [cat]; omega)) [hF]
  have nz : fld w 0 32 ≠ 0 := fld_ne_zero m (by decide) (by decide)
  rw [decodeA_high nz (by rw [m]; decide)]
  simp (disch := first | decide | omega | (simp only [cat]; omega)) [decodeA2, decFrozen, m, h, hF]

theorem RoundTrip.fwrv (cap : BitVec 2) (v n : R5) : RoundTrip.Statement (.fwrv cap v n) := by
  refine roundTrips_a rfl rfl (by simp only [b2n_false, b2n_true, r5_0, r5_1, r5_2, r5_3, r5_4, k3_0, cat]; omega) (by decide) (.inr rfl) fun wf w hF => ?_
  have m : fld w 25 6 = 0x36 := by simp (disch := first | decide | omega | (simp only [cat]; omega)) [hF]
  have h : fld w 12 3 = 5 := by simp (disch := first | decide | omega | (simp only [cat]; omega)) [hF]
  have nz : fld w 0 32 ≠ 0 := fld_ne_zero m (by decide) (by decide)
  rw [decodeA_high nz (by rw [m]; decide)]
  simp (disch := first | decide | omega | (simp only [cat]; omega)) [decodeA2, decFrozen, m, h, hF]

theorem RoundTrip.frq (d : R5) (cap : BitVec 2) (item : BitVec 4) : RoundTrip.Statement (.frq d cap item) := by
  refine roundTrips_a rfl rfl (by simp only [b2n_false, b2n_true, r5_0, r5_1, r5_2, r5_3, r5_4, k3_0, cat]; omega) (by decide) (.inr rfl) fun wf w hF => ?_
  have m : fld w 25 6 = 0x36 := by simp (disch := first | decide | omega | (simp only [cat]; omega)) [hF]
  have h : fld w 12 3 = 6 := by simp (disch := first | decide | omega | (simp only [cat]; omega)) [hF]
  have nz : fld w 0 32 ≠ 0 := fld_ne_zero m (by decide) (by decide)
  rw [decodeA_high nz (by rw [m]; decide)]
  replace wf : decide (item.toNat < 10) = true := wf
  try simp at wf
  simp (disch := first | decide | omega | (simp only [cat]; omega)) [decodeA2, decFrozen, wf, m, h, hF]

theorem RoundTrip.fresRetry (cap : BitVec 2) : RoundTrip.Statement (.fresRetry cap) := by
  refine roundTrips_a rfl rfl (by simp only [aW_eq, b2n_false, b2n_true, r5_0, r5_1, r5_2, r5_3, r5_4, k3_0, cat]; omega) (by decide) (.inr rfl) fun wf w hF => ?_
  have m : fld w 25 6 = 0x37 := by simp (disch := first | decide | omega | (simp only [cat]; omega)) [hF]
  have h : fld w 4 6 = 0 := by simp (disch := first | decide | omega | (simp only [cat]; omega)) [hF]
  have nz : fld w 0 32 ≠ 0 := fld_ne_zero m (by decide) (by decide)
  rw [decodeA_high nz (by rw [m]; decide)]
  simp (disch := first | decide | omega | (simp only [cat]; omega)) [decodeA2, decUmp, m, h, hF]

theorem RoundTrip.fresSkip (cap : BitVec 2) : RoundTrip.Statement (.fresSkip cap) := by
  refine roundTrips_a rfl rfl (by simp only [aW_eq, b2n_false, b2n_true, r5_0, r5_1, r5_2, r5_3, r5_4, k3_0, cat]; omega) (by decide) (.inr rfl) fun wf w hF => ?_
  have m : fld w 25 6 = 0x37 := by simp (disch := first | decide | omega | (simp only [cat]; omega)) [hF]
  have h : fld w 4 6 = 0 := by simp (disch := first | decide | omega | (simp only [cat]; omega)) [hF]
  have nz : fld w 0 32 ≠ 0 := fld_ne_zero m (by decide) (by decide)
  rw [decodeA_high nz (by rw [m]; decide)]
  simp (disch := first | decide | omega | (simp only [cat]; omega)) [decodeA2, decUmp, m, h, hF]

theorem RoundTrip.fresRedirect (a : R5) (cap : BitVec 2) : RoundTrip.Statement (.fresRedirect a cap) := by
  refine roundTrips_a rfl rfl (by simp only [aW_eq, b2n_false, b2n_true, r5_0, r5_1, r5_2, r5_3, r5_4, k3_0, cat]; omega) (by decide) (.inr rfl) fun wf w hF => ?_
  have m : fld w 25 6 = 0x37 := by simp (disch := first | decide | omega | (simp only [cat]; omega)) [hF]
  have h : fld w 4 6 = 0 := by simp (disch := first | decide | omega | (simp only [cat]; omega)) [hF]
  have nz : fld w 0 32 ≠ 0 := fld_ne_zero m (by decide) (by decide)
  rw [decodeA_high nz (by rw [m]; decide)]
  simp (disch := first | decide | omega | (simp only [cat]; omega)) [decodeA2, decUmp, m, h, hF]

theorem RoundTrip.fkillAbandon (cap : BitVec 2) : RoundTrip.Statement (.fkillAbandon cap) := by
  refine roundTrips_a rfl rfl (by simp only [aW_eq, b2n_false, b2n_true, r5_0, r5_1, r5_2, r5_3, r5_4, k3_0, cat]; omega) (by decide) (.inr rfl) fun wf w hF => ?_
  have m : fld w 25 6 = 0x37 := by simp (disch := first | decide | omega | (simp only [cat]; omega)) [hF]
  have h : fld w 4 6 = 1 := by simp (disch := first | decide | omega | (simp only [cat]; omega)) [hF]
  have nz : fld w 0 32 ≠ 0 := fld_ne_zero m (by decide) (by decide)
  rw [decodeA_high nz (by rw [m]; decide)]
  simp (disch := first | decide | omega | (simp only [cat]; omega)) [decodeA2, decUmp, m, h, hF]

theorem RoundTrip.fkillCount (cap : BitVec 2) : RoundTrip.Statement (.fkillCount cap) := by
  refine roundTrips_a rfl rfl (by simp only [aW_eq, b2n_false, b2n_true, r5_0, r5_1, r5_2, r5_3, r5_4, k3_0, cat]; omega) (by decide) (.inr rfl) fun wf w hF => ?_
  have m : fld w 25 6 = 0x37 := by simp (disch := first | decide | omega | (simp only [cat]; omega)) [hF]
  have h : fld w 4 6 = 1 := by simp (disch := first | decide | omega | (simp only [cat]; omega)) [hF]
  have nz : fld w 0 32 ≠ 0 := fld_ne_zero m (by decide) (by decide)
  rw [decodeA_high nz (by rw [m]; decide)]
  simp (disch := first | decide | omega | (simp only [cat]; omega)) [decodeA2, decUmp, m, h, hF]

theorem RoundTrip.capxfer (a : R5) (cap : BitVec 2) : RoundTrip.Statement (.capxfer a cap) := by
  refine roundTrips_a rfl rfl (by simp only [aW_eq, b2n_false, b2n_true, r5_0, r5_1, r5_2, r5_3, r5_4, k3_0, cat]; omega) (by decide) (.inr rfl) fun wf w hF => ?_
  have m : fld w 25 6 = 0x37 := by simp (disch := first | decide | omega | (simp only [cat]; omega)) [hF]
  have h : fld w 4 6 = 2 := by simp (disch := first | decide | omega | (simp only [cat]; omega)) [hF]
  have nz : fld w 0 32 ≠ 0 := fld_ne_zero m (by decide) (by decide)
  rw [decodeA_high nz (by rw [m]; decide)]
  simp (disch := first | decide | omega | (simp only [cat]; omega)) [decodeA2, decUmp, m, h, hF]

theorem RoundTrip.capdrop (cap : BitVec 2) : RoundTrip.Statement (.capdrop cap) := by
  refine roundTrips_a rfl rfl (by simp only [aW_eq, b2n_false, b2n_true, r5_0, r5_1, r5_2, r5_3, r5_4, k3_0, cat]; omega) (by decide) (.inr rfl) fun wf w hF => ?_
  have m : fld w 25 6 = 0x37 := by simp (disch := first | decide | omega | (simp only [cat]; omega)) [hF]
  have h : fld w 4 6 = 3 := by simp (disch := first | decide | omega | (simp only [cat]; omega)) [hF]
  have nz : fld w 0 32 ≠ 0 := fld_ne_zero m (by decide) (by decide)
  rw [decodeA_high nz (by rw [m]; decide)]
  simp (disch := first | decide | omega | (simp only [cat]; omega)) [decodeA2, decUmp, m, h, hF]

theorem RoundTrip.uexit : RoundTrip.Statement .uexit := by
  refine roundTrips_a rfl rfl (by simp only [aW_eq, b2n_false, b2n_true, r5_0, r5_1, r5_2, r5_3, r5_4, k3_0, cat]; omega) (by decide) (.inr rfl) fun wf w hF => ?_
  have m : fld w 25 6 = 0x37 := by simp (disch := first | decide | omega | (simp only [cat]; omega)) [hF]
  have h : fld w 4 6 = 4 := by simp (disch := first | decide | omega | (simp only [cat]; omega)) [hF]
  have nz : fld w 0 32 ≠ 0 := fld_ne_zero m (by decide) (by decide)
  rw [decodeA_high nz (by rw [m]; decide)]
  simp (disch := first | decide | omega | (simp only [cat]; omega)) [decodeA2, decUmp, m, h, hF]

theorem RoundTrip.cxrd (a b : R5) : RoundTrip.Statement (.cxrd a b) := by
  refine roundTrips_a rfl rfl (by simp only [aR_eq, aW_eq, b2n_false, b2n_true, r5_0, r5_1, r5_2, r5_3, r5_4, k3_0, cat]; omega) (by decide) (.inr rfl) fun wf w hF => ?_
  have m : fld w 25 6 = 0x38 := by simp (disch := first | decide | omega | (simp only [cat]; omega)) [hF]
  have nz : fld w 0 32 ≠ 0 := fld_ne_zero m (by decide) (by decide)
  rw [decodeA_high nz (by rw [m]; decide)]
  simp (disch := first | decide | omega | (simp only [cat]; omega)) [decodeA2, m, hF]

theorem RoundTrip.cxwr (a b : R5) : RoundTrip.Statement (.cxwr a b) := by
  refine roundTrips_a rfl rfl (by simp only [aR_eq, aW_eq, b2n_false, b2n_true, r5_0, r5_1, r5_2, r5_3, r5_4, k3_0, cat]; omega) (by decide) (.inr rfl) fun wf w hF => ?_
  have m : fld w 25 6 = 0x39 := by simp (disch := first | decide | omega | (simp only [cat]; omega)) [hF]
  have nz : fld w 0 32 ≠ 0 := fld_ne_zero m (by decide) (by decide)
  rw [decodeA_high nz (by rw [m]; decide)]
  simp (disch := first | decide | omega | (simp only [cat]; omega)) [decodeA2, m, hF]

theorem RoundTrip.anop : RoundTrip.Statement .anop := by
  intro aw bw _ he
  cases he
  decide

theorem RoundTrip.jl (d : R5) (off : Imm 12) : RoundTrip.Statement (.jl d off) := by
  rcases off with off | off
  all_goals
    refine roundTrips_a rfl rfl (by simp only [aW_eq, b2n_false, b2n_true, r5_0, r5_1, r5_2, r5_3, r5_4, k3_0, lbit_fld, lbit_lit, field_fld, field_lit, cat]; omega) (by simp only [word_fld, word_lit]; omega) (by simp (disch := first | decide | omega | (simp only [cat]; omega))) fun wf w hF => ?_
    have m : fld w 25 6 = 0x3f := by simp (disch := first | decide | omega | (simp only [cat]; omega)) [hF]
    have h : fld w 12 3 = 1 := by simp (disch := first | decide | omega | (simp only [cat]; omega)) [hF]
    have nz : fld w 0 32 ≠ 0 := fld_ne_zero m (by decide) (by decide)
    rw [decodeA_high nz (by rw [m]; decide)]
    simp (disch := first | decide | omega | (simp only [cat]; omega)) [decodeA2, decMisc, m, h, hF]

theorem RoundTrip.jlr (d a : R5) (off : Imm 12) : RoundTrip.Statement (.jlr d a off) := by
  rcases off with off | off
  all_goals
    refine roundTrips_a rfl rfl (by simp only [aW_eq, b2n_false, b2n_true, r5_0, r5_1, r5_2, r5_3, r5_4, k3_0, lbit_fld, lbit_lit, field_fld, field_lit, cat]; omega) (by simp only [word_fld, word_lit]; omega) (by simp (disch := first | decide | omega | (simp only [cat]; omega))) fun wf w hF => ?_
    have m : fld w 25 6 = 0x3f := by simp (disch := first | decide | omega | (simp only [cat]; omega)) [hF]
    have h : fld w 12 3 = 2 := by simp (disch := first | decide | omega | (simp only [cat]; omega)) [hF]
    have nz : fld w 0 32 ≠ 0 := fld_ne_zero m (by decide) (by decide)
    rw [decodeA_high nz (by rw [m]; decide)]
    simp (disch := first | decide | omega | (simp only [cat]; omega)) [decodeA2, decMisc, m, h, hF]

theorem RoundTrip.wret : RoundTrip.Statement .wret := by
  refine roundTrips_a rfl rfl (by simp only [aW_eq, b2n_false, b2n_true, r5_0, r5_1, r5_2, r5_3, r5_4, k3_0, cat]; omega) (by decide) (.inr rfl) fun wf w hF => ?_
  have m : fld w 25 6 = 0x3f := by simp (disch := first | decide | omega | (simp only [cat]; omega)) [hF]
  have h : fld w 12 3 = 3 := by simp (disch := first | decide | omega | (simp only [cat]; omega)) [hF]
  have nz : fld w 0 32 ≠ 0 := fld_ne_zero m (by decide) (by decide)
  rw [decodeA_high nz (by rw [m]; decide)]
  simp (disch := first | decide | omega | (simp only [cat]; omega)) [decodeA2, decMisc, m, h, hF]

theorem RoundTrip.repRegister (a : R5) (lenm1 : BitVec 6) : RoundTrip.Statement (.repRegister a lenm1) := by
  refine roundTrips_a rfl rfl (by simp only [aW_eq, b2n_false, b2n_true, r5_0, r5_1, r5_2, r5_3, r5_4, k3_0, cat]; omega) (by decide) (.inr rfl) fun wf w hF => ?_
  have m : fld w 25 6 = 0x3f := by simp (disch := first | decide | omega | (simp only [cat]; omega)) [hF]
  have h : fld w 12 3 = 4 := by simp (disch := first | decide | omega | (simp only [cat]; omega)) [hF]
  have nz : fld w 0 32 ≠ 0 := fld_ne_zero m (by decide) (by decide)
  rw [decodeA_high nz (by rw [m]; decide)]
  simp (disch := first | decide | omega | (simp only [cat]; omega)) [decodeA2, decMisc, m, h, hF]

theorem RoundTrip.repImmediate (count : Imm 10) (lenm1 : BitVec 6) : RoundTrip.Statement (.repImmediate count lenm1) := by
  rcases count with count | count
  all_goals
    refine roundTrips_a rfl rfl (by simp only [b2n_false, b2n_true, r5_0, r5_1, r5_2, r5_3, r5_4, k3_0, lbit_fld, lbit_lit, field_fld, field_lit, cat]; omega) (by simp only [word_fld, word_lit]; omega) (by simp (disch := first | decide | omega | (simp only [cat]; omega))) fun wf w hF => ?_
    have m : fld w 25 6 = 0x3f := by simp (disch := first | decide | omega | (simp only [cat]; omega)) [hF]
    have h : fld w 12 3 = 5 := by simp (disch := first | decide | omega | (simp only [cat]; omega)) [hF]
    have nz : fld w 0 32 ≠ 0 := fld_ne_zero m (by decide) (by decide)
    rw [decodeA_high nz (by rw [m]; decide)]
    simp (disch := first | decide | omega | (simp only [cat]; omega)) [decodeA2, decMisc, m, h, hF]

theorem RoundTrip.vnop : RoundTrip.Statement .vnop := by
  intro aw bw _ he
  cases he
  decide

theorem RoundTrip.kand (kd ka kb : K3) : RoundTrip.Statement (.kand kd ka kb) := by
  refine roundTrips_b rfl rfl (by simp only [b2n_false, b2n_true, r5_0, r5_1, r5_2, r5_3, r5_4, k3_0, cat]; omega) fun wf w hF => ?_
  have m : fld w 26 6 = 0x0 := by simp (disch := first | decide | omega | (simp only [cat]; omega)) [hF]
  have h : fld w 0 5 = 1 := by simp (disch := first | decide | omega | (simp only [cat]; omega)) [hF]
  simp (disch := first | decide | omega | (simp only [cat]; omega)) [decodeB, decMask, m, h, hF]

theorem RoundTrip.kor (kd ka kb : K3) : RoundTrip.Statement (.kor kd ka kb) := by
  refine roundTrips_b rfl rfl (by simp only [b2n_false, b2n_true, r5_0, r5_1, r5_2, r5_3, r5_4, k3_0, cat]; omega) fun wf w hF => ?_
  have m : fld w 26 6 = 0x0 := by simp (disch := first | decide | omega | (simp only [cat]; omega)) [hF]
  have h : fld w 0 5 = 2 := by simp (disch := first | decide | omega | (simp only [cat]; omega)) [hF]
  simp (disch := first | decide | omega | (simp only [cat]; omega)) [decodeB, decMask, m, h, hF]

theorem RoundTrip.kxor (kd ka kb : K3) : RoundTrip.Statement (.kxor kd ka kb) := by
  refine roundTrips_b rfl rfl (by simp only [b2n_false, b2n_true, r5_0, r5_1, r5_2, r5_3, r5_4, k3_0, cat]; omega) fun wf w hF => ?_
  have m : fld w 26 6 = 0x0 := by simp (disch := first | decide | omega | (simp only [cat]; omega)) [hF]
  have h : fld w 0 5 = 3 := by simp (disch := first | decide | omega | (simp only [cat]; omega)) [hF]
  simp (disch := first | decide | omega | (simp only [cat]; omega)) [decodeB, decMask, m, h, hF]

theorem RoundTrip.knot (kd ka : K3) : RoundTrip.Statement (.knot kd ka) := by
  refine roundTrips_b rfl rfl (by simp only [b2n_false, b2n_true, r5_0, r5_1, r5_2, r5_3, r5_4, k3_0, cat]; omega) fun wf w hF => ?_
  have m : fld w 26 6 = 0x0 := by simp (disch := first | decide | omega | (simp only [cat]; omega)) [hF]
  have h : fld w 0 5 = 4 := by simp (disch := first | decide | omega | (simp only [cat]; omega)) [hF]
  simp (disch := first | decide | omega | (simp only [cat]; omega)) [decodeB, decMask, m, h, hF]

theorem RoundTrip.kmov (kd ka : K3) : RoundTrip.Statement (.kmov kd ka) := by
  refine roundTrips_b rfl rfl (by simp only [b2n_false, b2n_true, r5_0, r5_1, r5_2, r5_3, r5_4, k3_0, cat]; omega) fun wf w hF => ?_
  have m : fld w 26 6 = 0x0 := by simp (disch := first | decide | omega | (simp only [cat]; omega)) [hF]
  have h : fld w 0 5 = 5 := by simp (disch := first | decide | omega | (simp only [cat]; omega)) [hF]
  simp (disch := first | decide | omega | (simp only [cat]; omega)) [decodeB, decMask, m, h, hF]

theorem RoundTrip.vadd (vd : R5) (va : VSrc) (vb : R5) (k : K3) (ew : Ew) : RoundTrip.Statement (.vadd vd va vb k ew) := by
  have := ewCode_lt ew
  rcases va with va | va
  all_goals
    refine roundTrips_b rfl rfl (by simp only [bV_eq, b2n_false, b2n_true, r5_0, r5_1, r5_2, r5_3, r5_4, k3_0, vsrcCode_reg, vsrcCode_que, vsrcQa_reg, vsrcQa_que, cat]; omega) fun wf w hF => ?_
    have m : fld w 26 6 = 0x1 := by simp (disch := first | decide | omega | (simp only [cat]; omega)) [hF]
    have h : fld w 0 5 = 0 := by simp (disch := first | decide | omega | (simp only [cat]; omega)) [hF]
    simp (disch := first | decide | omega | (simp only [cat]; omega)) [decodeB, decVint, m, h, hF]

theorem RoundTrip.vaddSat (vd : R5) (va : VSrc) (vb : R5) (k : K3) (ew : Ew) : RoundTrip.Statement (.vaddSat vd va vb k ew) := by
  have := ewCode_lt ew
  rcases va with va | va
  all_goals
    refine roundTrips_b rfl rfl (by simp only [bV_eq, b2n_false, b2n_true, r5_0, r5_1, r5_2, r5_3, r5_4, k3_0, vsrcCode_reg, vsrcCode_que, vsrcQa_reg, vsrcQa_que, cat]; omega) fun wf w hF => ?_
    have m : fld w 26 6 = 0x1 := by simp (disch := first | decide | omega | (simp only [cat]; omega)) [hF]
    have h : fld w 0 5 = 1 := by simp (disch := first | decide | omega | (simp only [cat]; omega)) [hF]
    simp (disch := first | decide | omega | (simp only [cat]; omega)) [decodeB, decVint, m, h, hF]

theorem RoundTrip.vsubVector (vd : R5) (va : VSrc) (vb : R5) (k : K3) (ew : Ew) : RoundTrip.Statement (.vsubVector vd va vb k ew) := by
  have := ewCode_lt ew
  rcases va with va | va
  all_goals
    refine roundTrips_b rfl rfl (by simp only [bV_eq, b2n_false, b2n_true, r5_0, r5_1, r5_2, r5_3, r5_4, k3_0, vsrcCode_reg, vsrcCode_que, vsrcQa_reg, vsrcQa_que, cat]; omega) fun wf w hF => ?_
    have m : fld w 26 6 = 0x1 := by simp (disch := first | decide | omega | (simp only [cat]; omega)) [hF]
    have h : fld w 0 5 = 2 := by simp (disch := first | decide | omega | (simp only [cat]; omega)) [hF]
    simp (disch := first | decide | omega | (simp only [cat]; omega)) [decodeB, decVint, m, h, hF]

theorem RoundTrip.vsubSat (vd : R5) (va : VSrc) (vb : R5) (k : K3) (ew : Ew) : RoundTrip.Statement (.vsubSat vd va vb k ew) := by
  have := ewCode_lt ew
  rcases va with va | va
  all_goals
    refine roundTrips_b rfl rfl (by simp only [bV_eq, b2n_false, b2n_true, r5_0, r5_1, r5_2, r5_3, r5_4, k3_0, vsrcCode_reg, vsrcCode_que, vsrcQa_reg, vsrcQa_que, cat]; omega) fun wf w hF => ?_
    have m : fld w 26 6 = 0x1 := by simp (disch := first | decide | omega | (simp only [cat]; omega)) [hF]
    have h : fld w 0 5 = 3 := by simp (disch := first | decide | omega | (simp only [cat]; omega)) [hF]
    simp (disch := first | decide | omega | (simp only [cat]; omega)) [decodeB, decVint, m, h, hF]

theorem RoundTrip.vmul (vd : R5) (va : VSrc) (vb : R5) (k : K3) (ew : Ew) : RoundTrip.Statement (.vmul vd va vb k ew) := by
  have := ewCode_lt ew
  rcases va with va | va
  all_goals
    refine roundTrips_b rfl rfl (by simp only [bV_eq, b2n_false, b2n_true, r5_0, r5_1, r5_2, r5_3, r5_4, k3_0, vsrcCode_reg, vsrcCode_que, vsrcQa_reg, vsrcQa_que, cat]; omega) fun wf w hF => ?_
    have m : fld w 26 6 = 0x1 := by simp (disch := first | decide | omega | (simp only [cat]; omega)) [hF]
    have h : fld w 0 5 = 4 := by simp (disch := first | decide | omega | (simp only [cat]; omega)) [hF]
    simp (disch := first | decide | omega | (simp only [cat]; omega)) [decodeB, decVint, m, h, hF]

theorem RoundTrip.vmulh (vd : R5) (va : VSrc) (vb : R5) (k : K3) (ew : Ew) : RoundTrip.Statement (.vmulh vd va vb k ew) := by
  have := ewCode_lt ew
  rcases va with va | va
  all_goals
    refine roundTrips_b rfl rfl (by simp only [bV_eq, b2n_false, b2n_true, r5_0, r5_1, r5_2, r5_3, r5_4, k3_0, vsrcCode_reg, vsrcCode_que, vsrcQa_reg, vsrcQa_que, cat]; omega) fun wf w hF => ?_
    have m : fld w 26 6 = 0x1 := by simp (disch := first | decide | omega | (simp only [cat]; omega)) [hF]
    have h : fld w 0 5 = 5 := by simp (disch := first | decide | omega | (simp only [cat]; omega)) [hF]
    simp (disch := first | decide | omega | (simp only [cat]; omega)) [decodeB, decVint, m, h, hF]

theorem RoundTrip.vand (vd : R5) (va : VSrc) (vb : R5) (k : K3) (ew : Ew) : RoundTrip.Statement (.vand vd va vb k ew) := by
  have := ewCode_lt ew
  rcases va with va | va
  all_goals
    refine roundTrips_b rfl rfl (by simp only [bV_eq, b2n_false, b2n_true, r5_0, r5_1, r5_2, r5_3, r5_4, k3_0, vsrcCode_reg, vsrcCode_que, vsrcQa_reg, vsrcQa_que, cat]; omega) fun wf w hF => ?_
    have m : fld w 26 6 = 0x1 := by simp (disch := first | decide | omega | (simp only [cat]; omega)) [hF]
    have h : fld w 0 5 = 6 := by simp (disch := first | decide | omega | (simp only [cat]; omega)) [hF]
    simp (disch := first | decide | omega | (simp only [cat]; omega)) [decodeB, decVint, m, h, hF]

theorem RoundTrip.vor (vd : R5) (va : VSrc) (vb : R5) (k : K3) (ew : Ew) : RoundTrip.Statement (.vor vd va vb k ew) := by
  have := ewCode_lt ew
  rcases va with va | va
  all_goals
    refine roundTrips_b rfl rfl (by simp only [bV_eq, b2n_false, b2n_true, r5_0, r5_1, r5_2, r5_3, r5_4, k3_0, vsrcCode_reg, vsrcCode_que, vsrcQa_reg, vsrcQa_que, cat]; omega) fun wf w hF => ?_
    have m : fld w 26 6 = 0x1 := by simp (disch := first | decide | omega | (simp only [cat]; omega)) [hF]
    have h : fld w 0 5 = 7 := by simp (disch := first | decide | omega | (simp only [cat]; omega)) [hF]
    simp (disch := first | decide | omega | (simp only [cat]; omega)) [decodeB, decVint, m, h, hF]

theorem RoundTrip.vxor (vd : R5) (va : VSrc) (vb : R5) (k : K3) (ew : Ew) : RoundTrip.Statement (.vxor vd va vb k ew) := by
  have := ewCode_lt ew
  rcases va with va | va
  all_goals
    refine roundTrips_b rfl rfl (by simp only [bV_eq, b2n_false, b2n_true, r5_0, r5_1, r5_2, r5_3, r5_4, k3_0, vsrcCode_reg, vsrcCode_que, vsrcQa_reg, vsrcQa_que, cat]; omega) fun wf w hF => ?_
    have m : fld w 26 6 = 0x1 := by simp (disch := first | decide | omega | (simp only [cat]; omega)) [hF]
    have h : fld w 0 5 = 8 := by simp (disch := first | decide | omega | (simp only [cat]; omega)) [hF]
    simp (disch := first | decide | omega | (simp only [cat]; omega)) [decodeB, decVint, m, h, hF]

theorem RoundTrip.vandn (vd : R5) (va : VSrc) (vb : R5) (k : K3) (ew : Ew) : RoundTrip.Statement (.vandn vd va vb k ew) := by
  have := ewCode_lt ew
  rcases va with va | va
  all_goals
    refine roundTrips_b rfl rfl (by simp only [bV_eq, b2n_false, b2n_true, r5_0, r5_1, r5_2, r5_3, r5_4, k3_0, vsrcCode_reg, vsrcCode_que, vsrcQa_reg, vsrcQa_que, cat]; omega) fun wf w hF => ?_
    have m : fld w 26 6 = 0x1 := by simp (disch := first | decide | omega | (simp only [cat]; omega)) [hF]
    have h : fld w 0 5 = 9 := by simp (disch := first | decide | omega | (simp only [cat]; omega)) [hF]
    simp (disch := first | decide | omega | (simp only [cat]; omega)) [decodeB, decVint, m, h, hF]

theorem RoundTrip.vsll (vd : R5) (va : VSrc) (vb : R5) (k : K3) (ew : Ew) : RoundTrip.Statement (.vsll vd va vb k ew) := by
  have := ewCode_lt ew
  rcases va with va | va
  all_goals
    refine roundTrips_b rfl rfl (by simp only [bV_eq, b2n_false, b2n_true, r5_0, r5_1, r5_2, r5_3, r5_4, k3_0, vsrcCode_reg, vsrcCode_que, vsrcQa_reg, vsrcQa_que, cat]; omega) fun wf w hF => ?_
    have m : fld w 26 6 = 0x1 := by simp (disch := first | decide | omega | (simp only [cat]; omega)) [hF]
    have h : fld w 0 5 = 10 := by simp (disch := first | decide | omega | (simp only [cat]; omega)) [hF]
    simp (disch := first | decide | omega | (simp only [cat]; omega)) [decodeB, decVint, m, h, hF]

theorem RoundTrip.vsrl (vd : R5) (va : VSrc) (vb : R5) (k : K3) (ew : Ew) : RoundTrip.Statement (.vsrl vd va vb k ew) := by
  have := ewCode_lt ew
  rcases va with va | va
  all_goals
    refine roundTrips_b rfl rfl (by simp only [bV_eq, b2n_false, b2n_true, r5_0, r5_1, r5_2, r5_3, r5_4, k3_0, vsrcCode_reg, vsrcCode_que, vsrcQa_reg, vsrcQa_que, cat]; omega) fun wf w hF => ?_
    have m : fld w 26 6 = 0x1 := by simp (disch := first | decide | omega | (simp only [cat]; omega)) [hF]
    have h : fld w 0 5 = 11 := by simp (disch := first | decide | omega | (simp only [cat]; omega)) [hF]
    simp (disch := first | decide | omega | (simp only [cat]; omega)) [decodeB, decVint, m, h, hF]

theorem RoundTrip.vsra (vd : R5) (va : VSrc) (vb : R5) (k : K3) (ew : Ew) : RoundTrip.Statement (.vsra vd va vb k ew) := by
  have := ewCode_lt ew
  rcases va with va | va
  all_goals
    refine roundTrips_b rfl rfl (by simp only [bV_eq, b2n_false, b2n_true, r5_0, r5_1, r5_2, r5_3, r5_4, k3_0, vsrcCode_reg, vsrcCode_que, vsrcQa_reg, vsrcQa_que, cat]; omega) fun wf w hF => ?_
    have m : fld w 26 6 = 0x1 := by simp (disch := first | decide | omega | (simp only [cat]; omega)) [hF]
    have h : fld w 0 5 = 12 := by simp (disch := first | decide | omega | (simp only [cat]; omega)) [hF]
    simp (disch := first | decide | omega | (simp only [cat]; omega)) [decodeB, decVint, m, h, hF]

theorem RoundTrip.vmin (vd : R5) (va : VSrc) (vb : R5) (k : K3) (ew : Ew) : RoundTrip.Statement (.vmin vd va vb k ew) := by
  have := ewCode_lt ew
  rcases va with va | va
  all_goals
    refine roundTrips_b rfl rfl (by simp only [bV_eq, b2n_false, b2n_true, r5_0, r5_1, r5_2, r5_3, r5_4, k3_0, vsrcCode_reg, vsrcCode_que, vsrcQa_reg, vsrcQa_que, cat]; omega) fun wf w hF => ?_
    have m : fld w 26 6 = 0x1 := by simp (disch := first | decide | omega | (simp only [cat]; omega)) [hF]
    have h : fld w 0 5 = 13 := by simp (disch := first | decide | omega | (simp only [cat]; omega)) [hF]
    simp (disch := first | decide | omega | (simp only [cat]; omega)) [decodeB, decVint, m, h, hF]

theorem RoundTrip.vmax (vd : R5) (va : VSrc) (vb : R5) (k : K3) (ew : Ew) : RoundTrip.Statement (.vmax vd va vb k ew) := by
  have := ewCode_lt ew
  rcases va with va | va
  all_goals
    refine roundTrips_b rfl rfl (by simp only [bV_eq, b2n_false, b2n_true, r5_0, r5_1, r5_2, r5_3, r5_4, k3_0, vsrcCode_reg, vsrcCode_que, vsrcQa_reg, vsrcQa_que, cat]; omega) fun wf w hF => ?_
    have m : fld w 26 6 = 0x1 := by simp (disch := first | decide | omega | (simp only [cat]; omega)) [hF]
    have h : fld w 0 5 = 14 := by simp (disch := first | decide | omega | (simp only [cat]; omega)) [hF]
    simp (disch := first | decide | omega | (simp only [cat]; omega)) [decodeB, decVint, m, h, hF]

theorem RoundTrip.vminu (vd : R5) (va : VSrc) (vb : R5) (k : K3) (ew : Ew) : RoundTrip.Statement (.vminu vd va vb k ew) := by
  have := ewCode_lt ew
  rcases va with va | va
  all_goals
    refine roundTrips_b rfl rfl (by simp only [bV_eq, b2n_false, b2n_true, r5_0, r5_1, r5_2, r5_3, r5_4, k3_0, vsrcCode_reg, vsrcCode_que, vsrcQa_reg, vsrcQa_que, cat]; omega) fun wf w hF => ?_
    have m : fld w 26 6 = 0x1 := by simp (disch := first | decide | omega | (simp only [cat]; omega)) [hF]
    have h : fld w 0 5 = 15 := by simp (disch := first | decide | omega | (simp only [cat]; omega)) [hF]
    simp (disch := first | decide | omega | (simp only [cat]; omega)) [decodeB, decVint, m, h, hF]

theorem RoundTrip.vmaxu (vd : R5) (va : VSrc) (vb : R5) (k : K3) (ew : Ew) : RoundTrip.Statement (.vmaxu vd va vb k ew) := by
  have := ewCode_lt ew
  rcases va with va | va
  all_goals
    refine roundTrips_b rfl rfl (by simp only [bV_eq, b2n_false, b2n_true, r5_0, r5_1, r5_2, r5_3, r5_4, k3_0, vsrcCode_reg, vsrcCode_que, vsrcQa_reg, vsrcQa_que, cat]; omega) fun wf w hF => ?_
    have m : fld w 26 6 = 0x1 := by simp (disch := first | decide | omega | (simp only [cat]; omega)) [hF]
    have h : fld w 0 5 = 16 := by simp (disch := first | decide | omega | (simp only [cat]; omega)) [hF]
    simp (disch := first | decide | omega | (simp only [cat]; omega)) [decodeB, decVint, m, h, hF]

theorem RoundTrip.vabs (vd : R5) (va : VSrc) (k : K3) (ew : Ew) : RoundTrip.Statement (.vabs vd va k ew) := by
  have := ewCode_lt ew
  rcases va with va | va
  all_goals
    refine roundTrips_b rfl rfl (by simp only [bV_eq, b2n_false, b2n_true, r5_0, r5_1, r5_2, r5_3, r5_4, k3_0, vsrcCode_reg, vsrcCode_que, vsrcQa_reg, vsrcQa_que, cat]; omega) fun wf w hF => ?_
    have m : fld w 26 6 = 0x1 := by simp (disch := first | decide | omega | (simp only [cat]; omega)) [hF]
    have h : fld w 0 5 = 17 := by simp (disch := first | decide | omega | (simp only [cat]; omega)) [hF]
    simp (disch := first | decide | omega | (simp only [cat]; omega)) [decodeB, decVint, m, h, hF]

theorem RoundTrip.vpopc (vd : R5) (va : VSrc) (k : K3) (ew : Ew) : RoundTrip.Statement (.vpopc vd va k ew) := by
  have := ewCode_lt ew
  rcases va with va | va
  all_goals
    refine roundTrips_b rfl rfl (by simp only [bV_eq, b2n_false, b2n_true, r5_0, r5_1, r5_2, r5_3, r5_4, k3_0, vsrcCode_reg, vsrcCode_que, vsrcQa_reg, vsrcQa_que, cat]; omega) fun wf w hF => ?_
    have m : fld w 26 6 = 0x1 := by simp (disch := first | decide | omega | (simp only [cat]; omega)) [hF]
    have h : fld w 0 5 = 18 := by simp (disch := first | decide | omega | (simp only [cat]; omega)) [hF]
    simp (disch := first | decide | omega | (simp only [cat]; omega)) [decodeB, decVint, m, h, hF]

theorem RoundTrip.vsel (vd : R5) (va : VSrc) (vb : R5) (k : K3) (ew : Ew) : RoundTrip.Statement (.vsel vd va vb k ew) := by
  have := ewCode_lt ew
  rcases va with va | va
  all_goals
    refine roundTrips_b rfl rfl (by simp only [bV_eq, b2n_false, b2n_true, r5_0, r5_1, r5_2, r5_3, r5_4, k3_0, vsrcCode_reg, vsrcCode_que, vsrcQa_reg, vsrcQa_que, cat]; omega) fun wf w hF => ?_
    have m : fld w 26 6 = 0x1 := by simp (disch := first | decide | omega | (simp only [cat]; omega)) [hF]
    have h : fld w 0 5 = 19 := by simp (disch := first | decide | omega | (simp only [cat]; omega)) [hF]
    simp (disch := first | decide | omega | (simp only [cat]; omega)) [decodeB, decVint, m, h, hF]

theorem RoundTrip.vcmpEq (kd : K3) (va : VSrc) (vb : R5) (k : K3) (ew : Ew) : RoundTrip.Statement (.vcmpEq kd va vb k ew) := by
  have := ewCode_lt ew
  rcases va with va | va
  all_goals
    refine roundTrips_b rfl rfl (by simp only [bV_eq, b2n_false, b2n_true, r5_0, r5_1, r5_2, r5_3, r5_4, k3_0, vsrcCode_reg, vsrcCode_que, vsrcQa_reg, vsrcQa_que, cat]; omega) fun wf w hF => ?_
    have m : fld w 26 6 = 0x1 := by simp (disch := first | decide | omega | (simp only [cat]; omega)) [hF]
    have h : fld w 0 5 = 20 := by simp (disch := first | decide | omega | (simp only [cat]; omega)) [hF]
    simp (disch := first | decide | omega | (simp only [cat]; omega)) [decodeB, decVint, m, h, hF]

theorem RoundTrip.vcmpNe (kd : K3) (va : VSrc) (vb : R5) (k : K3) (ew : Ew) : RoundTrip.Statement (.vcmpNe kd va vb k ew) := by
  have := ewCode_lt ew
  rcases va with va | va
  all_goals
    refine roundTrips_b rfl rfl (by simp only [bV_eq, b2n_false, b2n_true, r5_0, r5_1, r5_2, r5_3, r5_4, k3_0, vsrcCode_reg, vsrcCode_que, vsrcQa_reg, vsrcQa_que, cat]; omega) fun wf w hF => ?_
    have m : fld w 26 6 = 0x1 := by simp (disch := first | decide | omega | (simp only [cat]; omega)) [hF]
    have h : fld w 0 5 = 21 := by simp (disch := first | decide | omega | (simp only [cat]; omega)) [hF]
    simp (disch := first | decide | omega | (simp only [cat]; omega)) [decodeB, decVint, m, h, hF]

theorem RoundTrip.vcmpLt (kd : K3) (va : VSrc) (vb : R5) (k : K3) (ew : Ew) : RoundTrip.Statement (.vcmpLt kd va vb k ew) := by
  have := ewCode_lt ew
  rcases va with va | va
  all_goals
    refine roundTrips_b rfl rfl (by simp only [bV_eq, b2n_false, b2n_true, r5_0, r5_1, r5_2, r5_3, r5_4, k3_0, vsrcCode_reg, vsrcCode_que, vsrcQa_reg, vsrcQa_que, cat]; omega) fun wf w hF => ?_
    have m : fld w 26 6 = 0x1 := by simp (disch := first | decide | omega | (simp only [cat]; omega)) [hF]
    have h : fld w 0 5 = 22 := by simp (disch := first | decide | omega | (simp only [cat]; omega)) [hF]
    simp (disch := first | decide | omega | (simp only [cat]; omega)) [decodeB, decVint, m, h, hF]

theorem RoundTrip.vcmpLe (kd : K3) (va : VSrc) (vb : R5) (k : K3) (ew : Ew) : RoundTrip.Statement (.vcmpLe kd va vb k ew) := by
  have := ewCode_lt ew
  rcases va with va | va
  all_goals
    refine roundTrips_b rfl rfl (by simp only [bV_eq, b2n_false, b2n_true, r5_0, r5_1, r5_2, r5_3, r5_4, k3_0, vsrcCode_reg, vsrcCode_que, vsrcQa_reg, vsrcQa_que, cat]; omega) fun wf w hF => ?_
    have m : fld w 26 6 = 0x1 := by simp (disch := first | decide | omega | (simp only [cat]; omega)) [hF]
    have h : fld w 0 5 = 23 := by simp (disch := first | decide | omega | (simp only [cat]; omega)) [hF]
    simp (disch := first | decide | omega | (simp only [cat]; omega)) [decodeB, decVint, m, h, hF]

theorem RoundTrip.vcmpLtu (kd : K3) (va : VSrc) (vb : R5) (k : K3) (ew : Ew) : RoundTrip.Statement (.vcmpLtu kd va vb k ew) := by
  have := ewCode_lt ew
  rcases va with va | va
  all_goals
    refine roundTrips_b rfl rfl (by simp only [bV_eq, b2n_false, b2n_true, r5_0, r5_1, r5_2, r5_3, r5_4, k3_0, vsrcCode_reg, vsrcCode_que, vsrcQa_reg, vsrcQa_que, cat]; omega) fun wf w hF => ?_
    have m : fld w 26 6 = 0x1 := by simp (disch := first | decide | omega | (simp only [cat]; omega)) [hF]
    have h : fld w 0 5 = 24 := by simp (disch := first | decide | omega | (simp only [cat]; omega)) [hF]
    simp (disch := first | decide | omega | (simp only [cat]; omega)) [decodeB, decVint, m, h, hF]

theorem RoundTrip.vcmpLeu (kd : K3) (va : VSrc) (vb : R5) (k : K3) (ew : Ew) : RoundTrip.Statement (.vcmpLeu kd va vb k ew) := by
  have := ewCode_lt ew
  rcases va with va | va
  all_goals
    refine roundTrips_b rfl rfl (by simp only [bV_eq, b2n_false, b2n_true, r5_0, r5_1, r5_2, r5_3, r5_4, k3_0, vsrcCode_reg, vsrcCode_que, vsrcQa_reg, vsrcQa_que, cat]; omega) fun wf w hF => ?_
    have m : fld w 26 6 = 0x1 := by simp (disch := first | decide | omega | (simp only [cat]; omega)) [hF]
    have h : fld w 0 5 = 25 := by simp (disch := first | decide | omega | (simp only [cat]; omega)) [hF]
    simp (disch := first | decide | omega | (simp only [cat]; omega)) [decodeB, decVint, m, h, hF]

theorem RoundTrip.vmadd (vd va vb vc : R5) (k : K3) (ew : Ew) : RoundTrip.Statement (.vmadd vd va vb vc k ew) := by
  have := ewCode_lt ew
  refine roundTrips_b rfl rfl (by simp only [bV4_eq, b2n_false, b2n_true, r5_0, r5_1, r5_2, r5_3, r5_4, k3_0, cat]; omega) fun wf w hF => ?_
  have m : fld w 26 6 = 0x2 := by simp (disch := first | decide | omega | (simp only [cat]; omega)) [hF]
  simp (disch := first | decide | omega | (simp only [cat]; omega)) [decodeB, decV4, m, hF]

theorem RoundTrip.vfadd (vd : R5) (va : VSrc) (vb : R5) (k : K3) (w : Fw) : RoundTrip.Statement (.vfadd vd va vb k w) := by
  have := fwCode_lt w
  rcases va with va | va
  all_goals
    refine roundTrips_b rfl rfl (by simp only [bV_eq, b2n_false, b2n_true, r5_0, r5_1, r5_2, r5_3, r5_4, k3_0, vsrcCode_reg, vsrcCode_que, vsrcQa_reg, vsrcQa_que, cat]; omega) fun wf w hF => ?_
    have m : fld w 26 6 = 0x10 := by simp (disch := first | decide | omega | (simp only [cat]; omega)) [hF]
    have h : fld w 0 5 = 0 := by simp (disch := first | decide | omega | (simp only [cat]; omega)) [hF]
    simp (disch := first | decide | omega | (simp only [cat]; omega)) [decodeB, decVfp, m, h, hF]

theorem RoundTrip.vfsub (vd : R5) (va : VSrc) (vb : R5) (k : K3) (w : Fw) : RoundTrip.Statement (.vfsub vd va vb k w) := by
  have := fwCode_lt w
  rcases va with va | va
  all_goals
    refine roundTrips_b rfl rfl (by simp only [bV_eq, b2n_false, b2n_true, r5_0, r5_1, r5_2, r5_3, r5_4, k3_0, vsrcCode_reg, vsrcCode_que, vsrcQa_reg, vsrcQa_que, cat]; omega) fun wf w hF => ?_
    have m : fld w 26 6 = 0x10 := by simp (disch := first | decide | omega | (simp only [cat]; omega)) [hF]
    have h : fld w 0 5 = 1 := by simp (disch := first | decide | omega | (simp only [cat]; omega)) [hF]
    simp (disch := first | decide | omega | (simp only [cat]; omega)) [decodeB, decVfp, m, h, hF]

theorem RoundTrip.vfmul (vd : R5) (va : VSrc) (vb : R5) (k : K3) (w : Fw) : RoundTrip.Statement (.vfmul vd va vb k w) := by
  have := fwCode_lt w
  rcases va with va | va
  all_goals
    refine roundTrips_b rfl rfl (by simp only [bV_eq, b2n_false, b2n_true, r5_0, r5_1, r5_2, r5_3, r5_4, k3_0, vsrcCode_reg, vsrcCode_que, vsrcQa_reg, vsrcQa_que, cat]; omega) fun wf w hF => ?_
    have m : fld w 26 6 = 0x10 := by simp (disch := first | decide | omega | (simp only [cat]; omega)) [hF]
    have h : fld w 0 5 = 2 := by simp (disch := first | decide | omega | (simp only [cat]; omega)) [hF]
    simp (disch := first | decide | omega | (simp only [cat]; omega)) [decodeB, decVfp, m, h, hF]

theorem RoundTrip.vfdiv (vd : R5) (va : VSrc) (vb : R5) (k : K3) (w : Fw) : RoundTrip.Statement (.vfdiv vd va vb k w) := by
  have := fwCode_lt w
  rcases va with va | va
  all_goals
    refine roundTrips_b rfl rfl (by simp only [bV_eq, b2n_false, b2n_true, r5_0, r5_1, r5_2, r5_3, r5_4, k3_0, vsrcCode_reg, vsrcCode_que, vsrcQa_reg, vsrcQa_que, cat]; omega) fun wf w hF => ?_
    have m : fld w 26 6 = 0x10 := by simp (disch := first | decide | omega | (simp only [cat]; omega)) [hF]
    have h : fld w 0 5 = 3 := by simp (disch := first | decide | omega | (simp only [cat]; omega)) [hF]
    simp (disch := first | decide | omega | (simp only [cat]; omega)) [decodeB, decVfp, m, h, hF]

theorem RoundTrip.vfmin (vd : R5) (va : VSrc) (vb : R5) (k : K3) (w : Fw) : RoundTrip.Statement (.vfmin vd va vb k w) := by
  have := fwCode_lt w
  rcases va with va | va
  all_goals
    refine roundTrips_b rfl rfl (by simp only [bV_eq, b2n_false, b2n_true, r5_0, r5_1, r5_2, r5_3, r5_4, k3_0, vsrcCode_reg, vsrcCode_que, vsrcQa_reg, vsrcQa_que, cat]; omega) fun wf w hF => ?_
    have m : fld w 26 6 = 0x10 := by simp (disch := first | decide | omega | (simp only [cat]; omega)) [hF]
    have h : fld w 0 5 = 4 := by simp (disch := first | decide | omega | (simp only [cat]; omega)) [hF]
    simp (disch := first | decide | omega | (simp only [cat]; omega)) [decodeB, decVfp, m, h, hF]

theorem RoundTrip.vfmax (vd : R5) (va : VSrc) (vb : R5) (k : K3) (w : Fw) : RoundTrip.Statement (.vfmax vd va vb k w) := by
  have := fwCode_lt w
  rcases va with va | va
  all_goals
    refine roundTrips_b rfl rfl (by simp only [bV_eq, b2n_false, b2n_true, r5_0, r5_1, r5_2, r5_3, r5_4, k3_0, vsrcCode_reg, vsrcCode_que, vsrcQa_reg, vsrcQa_que, cat]; omega) fun wf w hF => ?_
    have m : fld w 26 6 = 0x10 := by simp (disch := first | decide | omega | (simp only [cat]; omega)) [hF]
    have h : fld w 0 5 = 5 := by simp (disch := first | decide | omega | (simp only [cat]; omega)) [hF]
    simp (disch := first | decide | omega | (simp only [cat]; omega)) [decodeB, decVfp, m, h, hF]

theorem RoundTrip.vfsqrt (vd : R5) (va : VSrc) (k : K3) (w : Fw) : RoundTrip.Statement (.vfsqrt vd va k w) := by
  have := fwCode_lt w
  rcases va with va | va
  all_goals
    refine roundTrips_b rfl rfl (by simp only [bV_eq, b2n_false, b2n_true, r5_0, r5_1, r5_2, r5_3, r5_4, k3_0, vsrcCode_reg, vsrcCode_que, vsrcQa_reg, vsrcQa_que, cat]; omega) fun wf w hF => ?_
    have m : fld w 26 6 = 0x10 := by simp (disch := first | decide | omega | (simp only [cat]; omega)) [hF]
    have h : fld w 0 5 = 6 := by simp (disch := first | decide | omega | (simp only [cat]; omega)) [hF]
    simp (disch := first | decide | omega | (simp only [cat]; omega)) [decodeB, decVfp, m, h, hF]

theorem RoundTrip.vfrcp (vd : R5) (va : VSrc) (k : K3) (w : Fw) : RoundTrip.Statement (.vfrcp vd va k w) := by
  have := fwCode_lt w
  rcases va with va | va
  all_goals
    refine roundTrips_b rfl rfl (by simp only [bV_eq, b2n_false, b2n_true, r5_0, r5_1, r5_2, r5_3, r5_4, k3_0, vsrcCode_reg, vsrcCode_que, vsrcQa_reg, vsrcQa_que, cat]; omega) fun wf w hF => ?_
    have m : fld w 26 6 = 0x10 := by simp (disch := first | decide | omega | (simp only [cat]; omega)) [hF]
    have h : fld w 0 5 = 7 := by simp (disch := first | decide | omega | (simp only [cat]; omega)) [hF]
    simp (disch := first | decide | omega | (simp only [cat]; omega)) [decodeB, decVfp, m, h, hF]

theorem RoundTrip.vfrsq (vd : R5) (va : VSrc) (k : K3) (w : Fw) : RoundTrip.Statement (.vfrsq vd va k w) := by
  have := fwCode_lt w
  rcases va with va | va
  all_goals
    refine roundTrips_b rfl rfl (by simp only [bV_eq, b2n_false, b2n_true, r5_0, r5_1, r5_2, r5_3, r5_4, k3_0, vsrcCode_reg, vsrcCode_que, vsrcQa_reg, vsrcQa_que, cat]; omega) fun wf w hF => ?_
    have m : fld w 26 6 = 0x10 := by simp (disch := first | decide | omega | (simp only [cat]; omega)) [hF]
    have h : fld w 0 5 = 8 := by simp (disch := first | decide | omega | (simp only [cat]; omega)) [hF]
    simp (disch := first | decide | omega | (simp only [cat]; omega)) [decodeB, decVfp, m, h, hF]

theorem RoundTrip.vfexp2 (vd : R5) (va : VSrc) (k : K3) (w : Fw) : RoundTrip.Statement (.vfexp2 vd va k w) := by
  have := fwCode_lt w
  rcases va with va | va
  all_goals
    refine roundTrips_b rfl rfl (by simp only [bV_eq, b2n_false, b2n_true, r5_0, r5_1, r5_2, r5_3, r5_4, k3_0, vsrcCode_reg, vsrcCode_que, vsrcQa_reg, vsrcQa_que, cat]; omega) fun wf w hF => ?_
    have m : fld w 26 6 = 0x10 := by simp (disch := first | decide | omega | (simp only [cat]; omega)) [hF]
    have h : fld w 0 5 = 9 := by simp (disch := first | decide | omega | (simp only [cat]; omega)) [hF]
    simp (disch := first | decide | omega | (simp only [cat]; omega)) [decodeB, decVfp, m, h, hF]

theorem RoundTrip.vflog2 (vd : R5) (va : VSrc) (k : K3) (w : Fw) : RoundTrip.Statement (.vflog2 vd va k w) := by
  have := fwCode_lt w
  rcases va with va | va
  all_goals
    refine roundTrips_b rfl rfl (by simp only [bV_eq, b2n_false, b2n_true, r5_0, r5_1, r5_2, r5_3, r5_4, k3_0, vsrcCode_reg, vsrcCode_que, vsrcQa_reg, vsrcQa_que, cat]; omega) fun wf w hF => ?_
    have m : fld w 26 6 = 0x10 := by simp (disch := first | decide | omega | (simp only [cat]; omega)) [hF]
    have h : fld w 0 5 = 10 := by simp (disch := first | decide | omega | (simp only [cat]; omega)) [hF]
    simp (disch := first | decide | omega | (simp only [cat]; omega)) [decodeB, decVfp, m, h, hF]

theorem RoundTrip.vtsum (vd : R5) (va : VSrc) (vb : R5) (k : K3) (w : Fw) : RoundTrip.Statement (.vtsum vd va vb k w) := by
  have := fwCode_lt w
  rcases va with va | va
  all_goals
    refine roundTrips_b rfl rfl (by simp only [bV_eq, b2n_false, b2n_true, r5_0, r5_1, r5_2, r5_3, r5_4, k3_0, vsrcCode_reg, vsrcCode_que, vsrcQa_reg, vsrcQa_que, cat]; omega) fun wf w hF => ?_
    have m : fld w 26 6 = 0x10 := by simp (disch := first | decide | omega | (simp only [cat]; omega)) [hF]
    have h : fld w 0 5 = 11 := by simp (disch := first | decide | omega | (simp only [cat]; omega)) [hF]
    replace wf : decide (vd.toNat % 2 = 0) = true := wf
    try simp at wf
    replace wf := fld_even wf
    simp (disch := first | decide | omega | (simp only [cat]; omega)) [decodeB, decVfp, wf, m, h, hF]

theorem RoundTrip.vfcmpEq (kd : K3) (va : VSrc) (vb : R5) (k : K3) (w : Fw) : RoundTrip.Statement (.vfcmpEq kd va vb k w) := by
  have := fwCode_lt w
  rcases va with va | va
  all_goals
    refine roundTrips_b rfl rfl (by simp only [bV_eq, b2n_false, b2n_true, r5_0, r5_1, r5_2, r5_3, r5_4, k3_0, vsrcCode_reg, vsrcCode_que, vsrcQa_reg, vsrcQa_que, cat]; omega) fun wf w hF => ?_
    have m : fld w 26 6 = 0x10 := by simp (disch := first | decide | omega | (simp only [cat]; omega)) [hF]
    have h : fld w 0 5 = 12 := by simp (disch := first | decide | omega | (simp only [cat]; omega)) [hF]
    simp (disch := first | decide | omega | (simp only [cat]; omega)) [decodeB, decVfp, m, h, hF]

theorem RoundTrip.vfcmpLt (kd : K3) (va : VSrc) (vb : R5) (k : K3) (w : Fw) : RoundTrip.Statement (.vfcmpLt kd va vb k w) := by
  have := fwCode_lt w
  rcases va with va | va
  all_goals
    refine roundTrips_b rfl rfl (by simp only [bV_eq, b2n_false, b2n_true, r5_0, r5_1, r5_2, r5_3, r5_4, k3_0, vsrcCode_reg, vsrcCode_que, vsrcQa_reg, vsrcQa_que, cat]; omega) fun wf w hF => ?_
    have m : fld w 26 6 = 0x10 := by simp (disch := first | decide | omega | (simp only [cat]; omega)) [hF]
    have h : fld w 0 5 = 13 := by simp (disch := first | decide | omega | (simp only [cat]; omega)) [hF]
    simp (disch := first | decide | omega | (simp only [cat]; omega)) [decodeB, decVfp, m, h, hF]

theorem RoundTrip.vfcmpLe (kd : K3) (va : VSrc) (vb : R5) (k : K3) (w : Fw) : RoundTrip.Statement (.vfcmpLe kd va vb k w) := by
  have := fwCode_lt w
  rcases va with va | va
  all_goals
    refine roundTrips_b rfl rfl (by simp only [bV_eq, b2n_false, b2n_true, r5_0, r5_1, r5_2, r5_3, r5_4, k3_0, vsrcCode_reg, vsrcCode_que, vsrcQa_reg, vsrcQa_que, cat]; omega) fun wf w hF => ?_
    have m : fld w 26 6 = 0x10 := by simp (disch := first | decide | omega | (simp only [cat]; omega)) [hF]
    have h : fld w 0 5 = 14 := by simp (disch := first | decide | omega | (simp only [cat]; omega)) [hF]
    simp (disch := first | decide | omega | (simp only [cat]; omega)) [decodeB, decVfp, m, h, hF]

theorem RoundTrip.vfcmpUn (kd : K3) (va : VSrc) (vb : R5) (k : K3) (w : Fw) : RoundTrip.Statement (.vfcmpUn kd va vb k w) := by
  have := fwCode_lt w
  rcases va with va | va
  all_goals
    refine roundTrips_b rfl rfl (by simp only [bV_eq, b2n_false, b2n_true, r5_0, r5_1, r5_2, r5_3, r5_4, k3_0, vsrcCode_reg, vsrcCode_que, vsrcQa_reg, vsrcQa_que, cat]; omega) fun wf w hF => ?_
    have m : fld w 26 6 = 0x10 := by simp (disch := first | decide | omega | (simp only [cat]; omega)) [hF]
    have h : fld w 0 5 = 15 := by simp (disch := first | decide | omega | (simp only [cat]; omega)) [hF]
    simp (disch := first | decide | omega | (simp only [cat]; omega)) [decodeB, decVfp, m, h, hF]

theorem RoundTrip.vfsgnCp (vd : R5) (va : VSrc) (vb : R5) (k : K3) (w : Fw) : RoundTrip.Statement (.vfsgnCp vd va vb k w) := by
  have := fwCode_lt w
  rcases va with va | va
  all_goals
    refine roundTrips_b rfl rfl (by simp only [bV_eq, b2n_false, b2n_true, r5_0, r5_1, r5_2, r5_3, r5_4, k3_0, vsrcCode_reg, vsrcCode_que, vsrcQa_reg, vsrcQa_que, cat]; omega) fun wf w hF => ?_
    have m : fld w 26 6 = 0x10 := by simp (disch := first | decide | omega | (simp only [cat]; omega)) [hF]
    have h : fld w 0 5 = 16 := by simp (disch := first | decide | omega | (simp only [cat]; omega)) [hF]
    simp (disch := first | decide | omega | (simp only [cat]; omega)) [decodeB, decVfp, m, h, hF]

theorem RoundTrip.vfsgnNeg (vd : R5) (va : VSrc) (vb : R5) (k : K3) (w : Fw) : RoundTrip.Statement (.vfsgnNeg vd va vb k w) := by
  have := fwCode_lt w
  rcases va with va | va
  all_goals
    refine roundTrips_b rfl rfl (by simp only [bV_eq, b2n_false, b2n_true, r5_0, r5_1, r5_2, r5_3, r5_4, k3_0, vsrcCode_reg, vsrcCode_que, vsrcQa_reg, vsrcQa_que, cat]; omega) fun wf w hF => ?_
    have m : fld w 26 6 = 0x10 := by simp (disch := first | decide | omega | (simp only [cat]; omega)) [hF]
    have h : fld w 0 5 = 17 := by simp (disch := first | decide | omega | (simp only [cat]; omega)) [hF]
    simp (disch := first | decide | omega | (simp only [cat]; omega)) [decodeB, decVfp, m, h, hF]

theorem RoundTrip.vfsgnXor (vd : R5) (va : VSrc) (vb : R5) (k : K3) (w : Fw) : RoundTrip.Statement (.vfsgnXor vd va vb k w) := by
  have := fwCode_lt w
  rcases va with va | va
  all_goals
    refine roundTrips_b rfl rfl (by simp only [bV_eq, b2n_false, b2n_true, r5_0, r5_1, r5_2, r5_3, r5_4, k3_0, vsrcCode_reg, vsrcCode_que, vsrcQa_reg, vsrcQa_que, cat]; omega) fun wf w hF => ?_
    have m : fld w 26 6 = 0x10 := by simp (disch := first | decide | omega | (simp only [cat]; omega)) [hF]
    have h : fld w 0 5 = 18 := by simp (disch := first | decide | omega | (simp only [cat]; omega)) [hF]
    simp (disch := first | decide | omega | (simp only [cat]; omega)) [decodeB, decVfp, m, h, hF]

theorem RoundTrip.vfclass (vd : R5) (va : VSrc) (k : K3) (w : Fw) : RoundTrip.Statement (.vfclass vd va k w) := by
  have := fwCode_lt w
  rcases va with va | va
  all_goals
    refine roundTrips_b rfl rfl (by simp only [bV_eq, b2n_false, b2n_true, r5_0, r5_1, r5_2, r5_3, r5_4, k3_0, vsrcCode_reg, vsrcCode_que, vsrcQa_reg, vsrcQa_que, cat]; omega) fun wf w hF => ?_
    have m : fld w 26 6 = 0x10 := by simp (disch := first | decide | omega | (simp only [cat]; omega)) [hF]
    have h : fld w 0 5 = 19 := by simp (disch := first | decide | omega | (simp only [cat]; omega)) [hF]
    simp (disch := first | decide | omega | (simp only [cat]; omega)) [decodeB, decVfp, m, h, hF]

theorem RoundTrip.vfma (vd va vb vc : R5) (k : K3) (w : Fw) : RoundTrip.Statement (.vfma vd va vb vc k w) := by
  have := fwCode_lt w
  refine roundTrips_b rfl rfl (by simp only [bV4_eq, b2n_false, b2n_true, r5_0, r5_1, r5_2, r5_3, r5_4, k3_0, cat]; omega) fun wf w hF => ?_
  have m : fld w 26 6 = 0x11 := by simp (disch := first | decide | omega | (simp only [cat]; omega)) [hF]
  simp (disch := first | decide | omega | (simp only [cat]; omega)) [decodeB, decV4, m, hF]

theorem RoundTrip.vfnma (vd va vb vc : R5) (k : K3) (w : Fw) : RoundTrip.Statement (.vfnma vd va vb vc k w) := by
  have := fwCode_lt w
  refine roundTrips_b rfl rfl (by simp only [bV4_eq, b2n_false, b2n_true, r5_0, r5_1, r5_2, r5_3, r5_4, k3_0, cat]; omega) fun wf w hF => ?_
  have m : fld w 26 6 = 0x12 := by simp (disch := first | decide | omega | (simp only [cat]; omega)) [hF]
  simp (disch := first | decide | omega | (simp only [cat]; omega)) [decodeB, decV4, m, hF]

theorem RoundTrip.vcvt (vd va : R5) (src dst : Fmt) (rm : Rm) (sat : Bool) (k : K3) : RoundTrip.Statement (.vcvt vd va src dst rm sat k) := by
  have := fmtCode_lt src
  have := fmtCode_lt dst
  have := rmCode_lt rm
  have := b2n_lt sat
  refine roundTrips_b rfl rfl (by simp only [bC_eq, b2n_false, b2n_true, r5_0, r5_1, r5_2, r5_3, r5_4, k3_0, cat]; omega) fun wf w hF => ?_
  have m : fld w 26 6 = 0x20 := by simp (disch := first | decide | omega | (simp only [cat]; omega)) [hF]
  replace wf : (vcvtFormats src dst && vcvtSatOk src dst sat && rmOk rm dst) = true := wf
  try simp at wf
  simp (disch := first | decide | omega | (simp only [cat]; omega)) [decodeB, decVcvt, wf, m, hF]

theorem RoundTrip.venc (vd va : R5) (c4 : Bool) (rm : Rm) (sat : Bool) (k : K3) (tbl : Bool) : RoundTrip.Statement (.venc vd va c4 rm sat k tbl) := by
  have := b2n_lt c4
  have := rmCode_lt rm
  have := b2n_lt sat
  have := b2n_lt tbl
  rcases c4 with _ | _
  all_goals
    refine roundTrips_b rfl rfl (by simp only [bC_eq, b2n_false, b2n_true, r5_0, r5_1, r5_2, r5_3, r5_4, k3_0, cat]; omega) fun wf w hF => ?_
    have m : fld w 26 6 = 0x21 := by simp (disch := first | decide | omega | (simp only [cat]; omega)) [hF]
    simp (disch := first | decide | omega | (simp only [cat]; omega)) [decodeB, decCode, m, hF]

theorem RoundTrip.vdec (vd va : R5) (c4 : Bool) (rm : Rm) (sat : Bool) (k : K3) (tbl : Bool) : RoundTrip.Statement (.vdec vd va c4 rm sat k tbl) := by
  have := b2n_lt c4
  have := rmCode_lt rm
  have := b2n_lt sat
  have := b2n_lt tbl
  rcases c4 with _ | _
  all_goals
    refine roundTrips_b rfl rfl (by simp only [bC_eq, b2n_false, b2n_true, r5_0, r5_1, r5_2, r5_3, r5_4, k3_0, cat]; omega) fun wf w hF => ?_
    have m : fld w 26 6 = 0x22 := by simp (disch := first | decide | omega | (simp only [cat]; omega)) [hF]
    replace wf : rmOk rm .fp32 = true := wf
    try simp at wf
    simp (disch := first | decide | omega | (simp only [cat]; omega)) [decodeB, decCode, wf, m, hF]

theorem RoundTrip.vencS (vd va : R5) (c4 : Bool) (rm : Rm) (sat : Bool) (k : K3) (tbl : Bool) : RoundTrip.Statement (.vencS vd va c4 rm sat k tbl) := by
  have := b2n_lt c4
  have := rmCode_lt rm
  have := b2n_lt sat
  have := b2n_lt tbl
  rcases c4 with _ | _
  all_goals
    refine roundTrips_b rfl rfl (by simp only [bC_eq, b2n_false, b2n_true, r5_0, r5_1, r5_2, r5_3, r5_4, k3_0, cat]; omega) fun wf w hF => ?_
    have m : fld w 26 6 = 0x23 := by simp (disch := first | decide | omega | (simp only [cat]; omega)) [hF]
    simp (disch := first | decide | omega | (simp only [cat]; omega)) [decodeB, decCode, m, hF]

theorem RoundTrip.vdecS (vd va : R5) (c4 : Bool) (rm : Rm) (sat : Bool) (k : K3) (tbl : Bool) : RoundTrip.Statement (.vdecS vd va c4 rm sat k tbl) := by
  have := b2n_lt c4
  have := rmCode_lt rm
  have := b2n_lt sat
  have := b2n_lt tbl
  rcases c4 with _ | _
  all_goals
    refine roundTrips_b rfl rfl (by simp only [bC_eq, b2n_false, b2n_true, r5_0, r5_1, r5_2, r5_3, r5_4, k3_0, cat]; omega) fun wf w hF => ?_
    have m : fld w 26 6 = 0x24 := by simp (disch := first | decide | omega | (simp only [cat]; omega)) [hF]
    replace wf : rmOk rm .fp32 = true := wf
    try simp at wf
    simp (disch := first | decide | omega | (simp only [cat]; omega)) [decodeB, decCode, wf, m, hF]

theorem RoundTrip.vfkey (vd : R5) (va : VSrc) (k : K3) : RoundTrip.Statement (.vfkey vd va k) := by
  rcases va with va | va
  all_goals
    refine roundTrips_b rfl rfl (by simp only [bV_eq, b2n_false, b2n_true, r5_0, r5_1, r5_2, r5_3, r5_4, k3_0, vsrcCode_reg, vsrcCode_que, vsrcQa_reg, vsrcQa_que, cat]; omega) fun wf w hF => ?_
    have m : fld w 26 6 = 0x25 := by simp (disch := first | decide | omega | (simp only [cat]; omega)) [hF]
    have h : fld w 0 5 = 0 := by simp (disch := first | decide | omega | (simp only [cat]; omega)) [hF]
    simp (disch := first | decide | omega | (simp only [cat]; omega)) [decodeB, m, h, hF]

theorem RoundTrip.vperm (vd : R5) (va : VSrc) (vb : R5) (k : K3) (ew : Ew) : RoundTrip.Statement (.vperm vd va vb k ew) := by
  have := ewCode_lt ew
  rcases va with va | va
  all_goals
    refine roundTrips_b rfl rfl (by simp only [bV_eq, b2n_false, b2n_true, r5_0, r5_1, r5_2, r5_3, r5_4, k3_0, vsrcCode_reg, vsrcCode_que, vsrcQa_reg, vsrcQa_que, cat]; omega) fun wf w hF => ?_
    have m : fld w 26 6 = 0x28 := by simp (disch := first | decide | omega | (simp only [cat]; omega)) [hF]
    have h : fld w 0 5 = 0 := by simp (disch := first | decide | omega | (simp only [cat]; omega)) [hF]
    simp (disch := first | decide | omega | (simp only [cat]; omega)) [decodeB, decPerm, m, h, hF]

theorem RoundTrip.vbcast (vd a : R5) (k : K3) (ew : Ew) : RoundTrip.Statement (.vbcast vd a k ew) := by
  have := ewCode_lt ew
  refine roundTrips_b rfl rfl (by simp only [bV_eq, b2n_false, b2n_true, r5_0, r5_1, r5_2, r5_3, r5_4, k3_0, vsrcCode_reg, vsrcCode_que, vsrcQa_reg, vsrcQa_que, cat]; omega) fun wf w hF => ?_
  have m : fld w 26 6 = 0x28 := by simp (disch := first | decide | omega | (simp only [cat]; omega)) [hF]
  have h : fld w 0 5 = 1 := by simp (disch := first | decide | omega | (simp only [cat]; omega)) [hF]
  simp (disch := first | decide | omega | (simp only [cat]; omega)) [decodeB, decPerm, m, h, hF]

theorem RoundTrip.vext (d : R5) (va : VSrc) (b : R5) (ew : Ew) : RoundTrip.Statement (.vext d va b ew) := by
  have := ewCode_lt ew
  rcases va with va | va
  all_goals
    refine roundTrips_b rfl rfl (by simp only [bV_eq, b2n_false, b2n_true, r5_0, r5_1, r5_2, r5_3, r5_4, k3_0, vsrcCode_reg, vsrcCode_que, vsrcQa_reg, vsrcQa_que, cat]; omega) fun wf w hF => ?_
    have m : fld w 26 6 = 0x28 := by simp (disch := first | decide | omega | (simp only [cat]; omega)) [hF]
    have h : fld w 0 5 = 2 := by simp (disch := first | decide | omega | (simp only [cat]; omega)) [hF]
    simp (disch := first | decide | omega | (simp only [cat]; omega)) [decodeB, decPerm, m, h, hF]

theorem RoundTrip.vins (vd a b : R5) (ew : Ew) : RoundTrip.Statement (.vins vd a b ew) := by
  have := ewCode_lt ew
  refine roundTrips_b rfl rfl (by simp only [bV_eq, b2n_false, b2n_true, r5_0, r5_1, r5_2, r5_3, r5_4, k3_0, vsrcCode_reg, vsrcCode_que, vsrcQa_reg, vsrcQa_que, cat]; omega) fun wf w hF => ?_
  have m : fld w 26 6 = 0x28 := by simp (disch := first | decide | omega | (simp only [cat]; omega)) [hF]
  have h : fld w 0 5 = 3 := by simp (disch := first | decide | omega | (simp only [cat]; omega)) [hF]
  simp (disch := first | decide | omega | (simp only [cat]; omega)) [decodeB, decPerm, m, h, hF]

theorem RoundTrip.vslideUp (vd : R5) (va : VSrc) (b : R5) (k : K3) (ew : Ew) : RoundTrip.Statement (.vslideUp vd va b k ew) := by
  have := ewCode_lt ew
  rcases va with va | va
  all_goals
    refine roundTrips_b rfl rfl (by simp only [bV_eq, b2n_false, b2n_true, r5_0, r5_1, r5_2, r5_3, r5_4, k3_0, vsrcCode_reg, vsrcCode_que, vsrcQa_reg, vsrcQa_que, cat]; omega) fun wf w hF => ?_
    have m : fld w 26 6 = 0x28 := by simp (disch := first | decide | omega | (simp only [cat]; omega)) [hF]
    have h : fld w 0 5 = 4 := by simp (disch := first | decide | omega | (simp only [cat]; omega)) [hF]
    simp (disch := first | decide | omega | (simp only [cat]; omega)) [decodeB, decPerm, m, h, hF]

theorem RoundTrip.vslideDn (vd : R5) (va : VSrc) (b : R5) (k : K3) (ew : Ew) : RoundTrip.Statement (.vslideDn vd va b k ew) := by
  have := ewCode_lt ew
  rcases va with va | va
  all_goals
    refine roundTrips_b rfl rfl (by simp only [bV_eq, b2n_false, b2n_true, r5_0, r5_1, r5_2, r5_3, r5_4, k3_0, vsrcCode_reg, vsrcCode_que, vsrcQa_reg, vsrcQa_que, cat]; omega) fun wf w hF => ?_
    have m : fld w 26 6 = 0x28 := by simp (disch := first | decide | omega | (simp only [cat]; omega)) [hF]
    have h : fld w 0 5 = 5 := by simp (disch := first | decide | omega | (simp only [cat]; omega)) [hF]
    simp (disch := first | decide | omega | (simp only [cat]; omega)) [decodeB, decPerm, m, h, hF]

theorem RoundTrip.vred (vd : R5) (va : VSrc) (kind : RedKind) (k : K3) (ew : Ew) : RoundTrip.Statement (.vred vd va kind k ew) := by
  have := redCode_lt kind
  have := ewCode_lt ew
  rcases va with va | va
  all_goals
    refine roundTrips_b rfl rfl (by simp only [bV_eq, b2n_false, b2n_true, r5_0, r5_1, r5_2, r5_3, r5_4, k3_0, vsrcCode_reg, vsrcCode_que, vsrcQa_reg, vsrcQa_que, cat]; omega) fun wf w hF => ?_
    have m : fld w 26 6 = 0x28 := by simp (disch := first | decide | omega | (simp only [cat]; omega)) [hF]
    have h : fld w 0 5 = 6 := by simp (disch := first | decide | omega | (simp only [cat]; omega)) [hF]
    replace wf : redOk kind ew = true := wf
    try simp at wf
    simp (disch := first | decide | omega | (simp only [cat]; omega)) [decodeB, decPerm, wf, m, h, hF]

theorem RoundTrip.vscan (vd : R5) (va : VSrc) (kind : RedKind) (k : K3) (ew : Ew) : RoundTrip.Statement (.vscan vd va kind k ew) := by
  have := redCode_lt kind
  have := ewCode_lt ew
  rcases va with va | va
  all_goals
    refine roundTrips_b rfl rfl (by simp only [bV_eq, b2n_false, b2n_true, r5_0, r5_1, r5_2, r5_3, r5_4, k3_0, vsrcCode_reg, vsrcCode_que, vsrcQa_reg, vsrcQa_que, cat]; omega) fun wf w hF => ?_
    have m : fld w 26 6 = 0x28 := by simp (disch := first | decide | omega | (simp only [cat]; omega)) [hF]
    have h : fld w 0 5 = 7 := by simp (disch := first | decide | omega | (simp only [cat]; omega)) [hF]
    replace wf : redOk kind ew = true := wf
    try simp at wf
    simp (disch := first | decide | omega | (simp only [cat]; omega)) [decodeB, decPerm, wf, m, h, hF]

theorem RoundTrip.vcmprs (vd : R5) (va : VSrc) (k : K3) (ew : Ew) : RoundTrip.Statement (.vcmprs vd va k ew) := by
  have := ewCode_lt ew
  rcases va with va | va
  all_goals
    refine roundTrips_b rfl rfl (by simp only [bV_eq, b2n_false, b2n_true, r5_0, r5_1, r5_2, r5_3, r5_4, k3_0, vsrcCode_reg, vsrcCode_que, vsrcQa_reg, vsrcQa_que, cat]; omega) fun wf w hF => ?_
    have m : fld w 26 6 = 0x28 := by simp (disch := first | decide | omega | (simp only [cat]; omega)) [hF]
    have h : fld w 0 5 = 8 := by simp (disch := first | decide | omega | (simp only [cat]; omega)) [hF]
    simp (disch := first | decide | omega | (simp only [cat]; omega)) [decodeB, decPerm, m, h, hF]

theorem RoundTrip.vsortA (vd : R5) (va : VSrc) : RoundTrip.Statement (.vsortA vd va) := by
  rcases va with va | va
  all_goals
    refine roundTrips_b rfl rfl (by simp only [bV_eq, b2n_false, b2n_true, r5_0, r5_1, r5_2, r5_3, r5_4, k3_0, vsrcCode_reg, vsrcCode_que, vsrcQa_reg, vsrcQa_que, cat]; omega) fun wf w hF => ?_
    have m : fld w 26 6 = 0x28 := by simp (disch := first | decide | omega | (simp only [cat]; omega)) [hF]
    have h : fld w 0 5 = 9 := by simp (disch := first | decide | omega | (simp only [cat]; omega)) [hF]
    simp (disch := first | decide | omega | (simp only [cat]; omega)) [decodeB, decPerm, m, h, hF]

theorem RoundTrip.vsortD (vd : R5) (va : VSrc) : RoundTrip.Statement (.vsortD vd va) := by
  rcases va with va | va
  all_goals
    refine roundTrips_b rfl rfl (by simp only [bV_eq, b2n_false, b2n_true, r5_0, r5_1, r5_2, r5_3, r5_4, k3_0, vsrcCode_reg, vsrcCode_que, vsrcQa_reg, vsrcQa_que, cat]; omega) fun wf w hF => ?_
    have m : fld w 26 6 = 0x28 := by simp (disch := first | decide | omega | (simp only [cat]; omega)) [hF]
    have h : fld w 0 5 = 10 := by simp (disch := first | decide | omega | (simp only [cat]; omega)) [hF]
    simp (disch := first | decide | omega | (simp only [cat]; omega)) [decodeB, decPerm, m, h, hF]

theorem RoundTrip.vmergeA (vd : R5) (va : VSrc) (vb : R5) : RoundTrip.Statement (.vmergeA vd va vb) := by
  rcases va with va | va
  all_goals
    refine roundTrips_b rfl rfl (by simp only [bV_eq, b2n_false, b2n_true, r5_0, r5_1, r5_2, r5_3, r5_4, k3_0, vsrcCode_reg, vsrcCode_que, vsrcQa_reg, vsrcQa_que, cat]; omega) fun wf w hF => ?_
    have m : fld w 26 6 = 0x28 := by simp (disch := first | decide | omega | (simp only [cat]; omega)) [hF]
    have h : fld w 0 5 = 11 := by simp (disch := first | decide | omega | (simp only [cat]; omega)) [hF]
    replace wf : decide (vd.toNat % 2 = 0) = true := wf
    try simp at wf
    replace wf := fld_even wf
    simp (disch := first | decide | omega | (simp only [cat]; omega)) [decodeB, decPerm, wf, m, h, hF]

theorem RoundTrip.vmergeD (vd : R5) (va : VSrc) (vb : R5) : RoundTrip.Statement (.vmergeD vd va vb) := by
  rcases va with va | va
  all_goals
    refine roundTrips_b rfl rfl (by simp only [bV_eq, b2n_false, b2n_true, r5_0, r5_1, r5_2, r5_3, r5_4, k3_0, vsrcCode_reg, vsrcCode_que, vsrcQa_reg, vsrcQa_que, cat]; omega) fun wf w hF => ?_
    have m : fld w 26 6 = 0x28 := by simp (disch := first | decide | omega | (simp only [cat]; omega)) [hF]
    have h : fld w 0 5 = 12 := by simp (disch := first | decide | omega | (simp only [cat]; omega)) [hF]
    replace wf : decide (vd.toNat % 2 = 0) = true := wf
    try simp at wf
    replace wf := fld_even wf
    simp (disch := first | decide | omega | (simp only [cat]; omega)) [decodeB, decPerm, wf, m, h, hF]

theorem RoundTrip.mmas (qa qb : MSrc) (acc : BitVec 12) (t z g f : Bool) : RoundTrip.Statement (.mmas qa qb acc t z g f) := by
  have := b2n_lt t
  have := b2n_lt z
  have := b2n_lt g
  have := b2n_lt f
  rcases qa with qa | qa <;> rcases qb with qb | qb
  all_goals
    refine roundTrips_b rfl rfl (by simp only [b2n_false, b2n_true, r5_0, r5_1, r5_2, r5_3, r5_4, k3_0, msrcBits_que, msrcBits_regs, cat]; omega) fun wf w hF => ?_
    have m : fld w 26 6 = 0x30 := by simp (disch := first | decide | omega | (simp only [cat]; omega)) [hF]
    replace wf : mmasOk _ _ = true := wf
    try simp at wf
    simp (disch := first | decide | omega | (simp only [cat]; omega)) [decodeB, decMatrix, wf, m, hF]

theorem RoundTrip.mzero (acc : BitVec 12) : RoundTrip.Statement (.mzero acc) := by
  refine roundTrips_b rfl rfl (by simp only [b2n_false, b2n_true, r5_0, r5_1, r5_2, r5_3, r5_4, k3_0, cat]; omega) fun wf w hF => ?_
  have m : fld w 26 6 = 0x31 := by simp (disch := first | decide | omega | (simp only [cat]; omega)) [hF]
  simp (disch := first | decide | omega | (simp only [cat]; omega)) [decodeB, decMatrix, m, hF]

theorem RoundTrip.mtab (b a : Bool) : RoundTrip.Statement (.mtab b a) := by
  intro aw bw wf he
  cases he
  revert wf
  revert b a
  decide

theorem RoundTrip.vqpush (q : Q4) (va : R5) : RoundTrip.Statement (.vqpush q va) := by
  refine roundTrips_b rfl rfl (by simp only [b2n_false, b2n_true, r5_0, r5_1, r5_2, r5_3, r5_4, k3_0, cat]; omega) fun wf w hF => ?_
  have m : fld w 26 6 = 0x34 := by simp (disch := first | decide | omega | (simp only [cat]; omega)) [hF]
  simp (disch := first | decide | omega | (simp only [cat]; omega)) [decodeB, m, hF]

theorem RoundTrip.gangForm (leader : Nat) : RoundTrip.Statement (.gangForm leader) := RoundTrip.of_none rfl

theorem RoundTrip.gangCommit (leader : Nat) : RoundTrip.Statement (.gangCommit leader) := RoundTrip.of_none rfl

theorem RoundTrip.noticeEntry (key : Nat) : RoundTrip.Statement (.noticeEntry key) := RoundTrip.of_none rfl

theorem RoundTrip.gangNoticeEntry (leader : Nat) : RoundTrip.Statement (.gangNoticeEntry leader) := RoundTrip.of_none rfl

theorem RoundTrip.windowSpill (key : Nat) : RoundTrip.Statement (.windowSpill key) := RoundTrip.of_none rfl

theorem RoundTrip.windowRefill (key : Nat) : RoundTrip.Statement (.windowRefill key) := RoundTrip.of_none rfl

theorem RoundTrip.remoteAccessComplete (key : Nat) : RoundTrip.Statement (.remoteAccessComplete key) := RoundTrip.of_none rfl

theorem RoundTrip.homeAnswer (key : Nat) : RoundTrip.Statement (.homeAnswer key) := RoundTrip.of_none rfl

theorem RoundTrip.meshWordArrival (src : Nat) (q : Q4) : RoundTrip.Statement (.meshWordArrival src q) := RoundTrip.of_none rfl

theorem RoundTrip.messageDelivery (src : Nat) : RoundTrip.Statement (.messageDelivery src) := RoundTrip.of_none rfl

theorem RoundTrip.dropNotice (src : Nat) (q : Q4) : RoundTrip.Statement (.dropNotice src q) := RoundTrip.of_none rfl

theorem RoundTrip.arrivalNotice (key : Nat) (x : BitVec 64) : RoundTrip.Statement (.arrivalNotice key x) := RoundTrip.of_none rfl

theorem RoundTrip.reservationHandoff (addr : Nat) : RoundTrip.Statement (.reservationHandoff addr) := RoundTrip.of_none rfl

theorem RoundTrip.enqueueResend (key : Nat) : RoundTrip.Statement (.enqueueResend key) := RoundTrip.of_none rfl

theorem RoundTrip.countedMessageResend (key slice : Nat) : RoundTrip.Statement (.countedMessageResend key slice) := RoundTrip.of_none rfl

theorem RoundTrip.releaseQueryAnswer (key : Nat) : RoundTrip.Statement (.releaseQueryAnswer key) := RoundTrip.of_none rfl

theorem RoundTrip.sequenceCounterIncrement (file : SqFile) (idx inc : BitVec 8) : RoundTrip.Statement (.sequenceCounterIncrement file idx inc) := RoundTrip.of_none rfl

theorem RoundTrip.objectRequest (cluster pa : Nat) (req : ObjReq) : RoundTrip.Statement (.objectRequest cluster pa req) := RoundTrip.of_none rfl

theorem RoundTrip.collectRequest (pa cluster : Nat) : RoundTrip.Statement (.collectRequest pa cluster) := RoundTrip.of_none rfl

theorem RoundTrip.mergeFold (pa : Nat) : RoundTrip.Statement (.mergeFold pa) := RoundTrip.of_none rfl

theorem RoundTrip.partialEviction (cluster line : Nat) : RoundTrip.Statement (.partialEviction cluster line) := RoundTrip.of_none rfl

theorem RoundTrip.silentEviction (cluster line : Nat) : RoundTrip.Statement (.silentEviction cluster line) := RoundTrip.of_none rfl

theorem RoundTrip.invalidationReceive (cluster line : Nat) (rcl : Bool) : RoundTrip.Statement (.invalidationReceive cluster line rcl) := RoundTrip.of_none rfl

theorem RoundTrip.versionPublish (ver : Nat) : RoundTrip.Statement (.versionPublish ver) := RoundTrip.of_none rfl

theorem RoundTrip.rackStart (ver : Nat) : RoundTrip.Statement (.rackStart ver) := RoundTrip.of_none rfl

theorem RoundTrip.rackComplete (ver : Nat) : RoundTrip.Statement (.rackComplete ver) := RoundTrip.of_none rfl

theorem RoundTrip.floatComplete (ver : Nat) : RoundTrip.Statement (.floatComplete ver) := RoundTrip.of_none rfl

theorem RoundTrip.taskDispatch (uid : Nat) : RoundTrip.Statement (.taskDispatch uid) := RoundTrip.of_none rfl

theorem RoundTrip.dispatchRetry (uid : Nat) : RoundTrip.Statement (.dispatchRetry uid) := RoundTrip.of_none rfl

theorem RoundTrip.stealRound (key : Nat) : RoundTrip.Statement (.stealRound key) := RoundTrip.of_none rfl

theorem RoundTrip.matrixOperandStage (core : Nat) : RoundTrip.Statement (.matrixOperandStage core) := RoundTrip.of_none rfl

theorem RoundTrip.matrixStepStart (core : Nat) : RoundTrip.Statement (.matrixStepStart core) := RoundTrip.of_none rfl

theorem RoundTrip.matrixStepRetire (core : Nat) : RoundTrip.Statement (.matrixStepRetire core) := RoundTrip.of_none rfl

theorem RoundTrip.tfetch (uid : Nat) : RoundTrip.Statement (.tfetch uid) := RoundTrip.of_none rfl

theorem RoundTrip.tcopy (uid : Nat) : RoundTrip.Statement (.tcopy uid) := RoundTrip.of_none rfl

theorem RoundTrip.tfill (uid : Nat) : RoundTrip.Statement (.tfill uid) := RoundTrip.of_none rfl

theorem RoundTrip.treduce (uid : Nat) : RoundTrip.Statement (.treduce uid) := RoundTrip.of_none rfl

theorem RoundTrip.tpost (uid : Nat) : RoundTrip.Statement (.tpost uid) := RoundTrip.of_none rfl

theorem RoundTrip.tnote (uid : Nat) : RoundTrip.Statement (.tnote uid) := RoundTrip.of_none rfl

theorem RoundTrip.tfloat (uid : Nat) : RoundTrip.Statement (.tfloat uid) := RoundTrip.of_none rfl

theorem RoundTrip.track (uid : Nat) : RoundTrip.Statement (.track uid) := RoundTrip.of_none rfl

theorem RoundTrip.commandStart (uid : Nat) : RoundTrip.Statement (.commandStart uid) := RoundTrip.of_none rfl

theorem RoundTrip.commandComplete (uid : Nat) : RoundTrip.Statement (.commandComplete uid) := RoundTrip.of_none rfl

theorem RoundTrip.combiningHoldExpiry (uid : Nat) : RoundTrip.Statement (.combiningHoldExpiry uid) := RoundTrip.of_none rfl

theorem RoundTrip.collectiveChunkFold (uid chunk : Nat) : RoundTrip.Statement (.collectiveChunkFold uid chunk) := RoundTrip.of_none rfl

theorem RoundTrip.umpireSpawn (key : Nat) : RoundTrip.Statement (.umpireSpawn key) := RoundTrip.of_none rfl

theorem RoundTrip.umpirePoolTimeout (key : Nat) : RoundTrip.Statement (.umpirePoolTimeout key) := RoundTrip.of_none rfl

theorem RoundTrip.strokeSlotReclaim (core : Nat) : RoundTrip.Statement (.strokeSlotReclaim core) := RoundTrip.of_none rfl

theorem RoundTrip.strokeSlotLend (core : Nat) : RoundTrip.Statement (.strokeSlotLend core) := RoundTrip.of_none rfl

theorem RoundTrip.launchRecordSeal (ctx queue : Nat) : RoundTrip.Statement (.launchRecordSeal ctx queue) := RoundTrip.of_none rfl

theorem RoundTrip.dispatcherStep : RoundTrip.Statement .dispatcherStep := RoundTrip.of_none rfl

theorem RoundTrip.launchWaitHolds (uid : Nat) : RoundTrip.Statement (.launchWaitHolds uid) := RoundTrip.of_none rfl

theorem RoundTrip.classAgeing (uid : Nat) : RoundTrip.Statement (.classAgeing uid) := RoundTrip.of_none rfl

theorem RoundTrip.rectangleReserve (uid : Nat) : RoundTrip.Statement (.rectangleReserve uid) := RoundTrip.of_none rfl

theorem RoundTrip.localMemoryZeroed (core : Nat) : RoundTrip.Statement (.localMemoryZeroed core) := RoundTrip.of_none rfl

theorem RoundTrip.swapOut (key : Nat) : RoundTrip.Statement (.swapOut key) := RoundTrip.of_none rfl

theorem RoundTrip.strandRestore (key : Nat) : RoundTrip.Statement (.strandRestore key) := RoundTrip.of_none rfl

theorem RoundTrip.launchEnd (uid : Nat) : RoundTrip.Statement (.launchEnd uid) := RoundTrip.of_none rfl

theorem RoundTrip.commandAccept (mbx : Nat) : RoundTrip.Statement (.commandAccept mbx) := RoundTrip.of_none rfl

theorem RoundTrip.eventRingDrain (mbx : Nat) : RoundTrip.Statement (.eventRingDrain mbx) := RoundTrip.of_none rfl

theorem RoundTrip.ctxCreate (c : CmdRec) : RoundTrip.Statement (.ctxCreate c) := RoundTrip.of_none rfl

theorem RoundTrip.ctxDestroy (c : CmdRec) : RoundTrip.Statement (.ctxDestroy c) := RoundTrip.of_none rfl

theorem RoundTrip.namespaceCreate (c : CmdRec) : RoundTrip.Statement (.namespaceCreate c) := RoundTrip.of_none rfl

theorem RoundTrip.map (c : CmdRec) : RoundTrip.Statement (.map c) := RoundTrip.of_none rfl

theorem RoundTrip.unmap (c : CmdRec) : RoundTrip.Statement (.unmap c) := RoundTrip.of_none rfl

theorem RoundTrip.pteRepair (c : CmdRec) : RoundTrip.Statement (.pteRepair c) := RoundTrip.of_none rfl

theorem RoundTrip.frameKindSet (c : CmdRec) : RoundTrip.Statement (.frameKindSet c) := RoundTrip.of_none rfl

theorem RoundTrip.frameMigrate (c : CmdRec) : RoundTrip.Statement (.frameMigrate c) := RoundTrip.of_none rfl

theorem RoundTrip.carve (c : CmdRec) : RoundTrip.Statement (.carve c) := RoundTrip.of_none rfl

theorem RoundTrip.tierConfig (c : CmdRec) : RoundTrip.Statement (.tierConfig c) := RoundTrip.of_none rfl

theorem RoundTrip.launchWindowConfig (c : CmdRec) : RoundTrip.Statement (.launchWindowConfig c) := RoundTrip.of_none rfl

theorem RoundTrip.queueCreate (c : CmdRec) : RoundTrip.Statement (.queueCreate c) := RoundTrip.of_none rfl

theorem RoundTrip.queuePriority (c : CmdRec) : RoundTrip.Statement (.queuePriority c) := RoundTrip.of_none rfl

theorem RoundTrip.umpireTableSet (c : CmdRec) : RoundTrip.Statement (.umpireTableSet c) := RoundTrip.of_none rfl

theorem RoundTrip.preempt (c : CmdRec) : RoundTrip.Statement (.preempt c) := RoundTrip.of_none rfl

theorem RoundTrip.checkpoint (c : CmdRec) : RoundTrip.Statement (.checkpoint c) := RoundTrip.of_none rfl

theorem RoundTrip.checkpointPhaseEnd : RoundTrip.Statement .checkpointPhaseEnd := RoundTrip.of_none rfl

theorem RoundTrip.restore (c : CmdRec) : RoundTrip.Statement (.restore c) := RoundTrip.of_none rfl

theorem RoundTrip.traceStart (c : CmdRec) : RoundTrip.Statement (.traceStart c) := RoundTrip.of_none rfl

theorem RoundTrip.traceStop (c : CmdRec) : RoundTrip.Statement (.traceStop c) := RoundTrip.of_none rfl

theorem RoundTrip.sampleConfig (c : CmdRec) : RoundTrip.Statement (.sampleConfig c) := RoundTrip.of_none rfl

theorem RoundTrip.blackboxRead (c : CmdRec) : RoundTrip.Statement (.blackboxRead c) := RoundTrip.of_none rfl

theorem RoundTrip.rasQuery (c : CmdRec) : RoundTrip.Statement (.rasQuery c) := RoundTrip.of_none rfl

theorem RoundTrip.linkService (c : CmdRec) : RoundTrip.Statement (.linkService c) := RoundTrip.of_none rfl

theorem RoundTrip.pairingSet (c : CmdRec) : RoundTrip.Statement (.pairingSet c) := RoundTrip.of_none rfl

theorem RoundTrip.partitionReplay (c : CmdRec) : RoundTrip.Statement (.partitionReplay c) := RoundTrip.of_none rfl

theorem RoundTrip.fwPatchLoad (c : CmdRec) : RoundTrip.Statement (.fwPatchLoad c) := RoundTrip.of_none rfl

theorem RoundTrip.attest (c : CmdRec) : RoundTrip.Statement (.attest c) := RoundTrip.of_none rfl

theorem RoundTrip.resetWarm (c : CmdRec) : RoundTrip.Statement (.resetWarm c) := RoundTrip.of_none rfl

theorem RoundTrip.powerSet (c : CmdRec) : RoundTrip.Statement (.powerSet c) := RoundTrip.of_none rfl

theorem RoundTrip.capResolve (c : CmdRec) : RoundTrip.Statement (.capResolve c) := RoundTrip.of_none rfl

theorem RoundTrip.powerOn : RoundTrip.Statement .powerOn := RoundTrip.of_none rfl

theorem RoundTrip.coldReset : RoundTrip.Statement .coldReset := RoundTrip.of_none rfl

theorem RoundTrip.mailboxEnable (mbx : Nat) : RoundTrip.Statement (.mailboxEnable mbx) := RoundTrip.of_none rfl

theorem RoundTrip.configSpaceWrite (off : Nat) (x : BitVec 64) : RoundTrip.Statement (.configSpaceWrite off x) := RoundTrip.of_none rfl

theorem RoundTrip.companionAccess (wr : Bool) (addr : Nat) (bytes : List (BitVec 8)) : RoundTrip.Statement (.companionAccess wr addr bytes) := RoundTrip.of_none rfl

theorem RoundTrip.igvosPortDown (p : Nat) : RoundTrip.Statement (.igvosPortDown p) := RoundTrip.of_none rfl

theorem RoundTrip.powerSample (watts : BitVec 16) : RoundTrip.Statement (.powerSample watts) := RoundTrip.of_none rfl

theorem RoundTrip.thermalLimit (mhz : BitVec 16) : RoundTrip.Statement (.thermalLimit mhz) := RoundTrip.of_none rfl

theorem RoundTrip.linkHold (l : Nat) : RoundTrip.Statement (.linkHold l) := RoundTrip.of_none rfl

theorem RoundTrip.linkRetrain (l : Nat) : RoundTrip.Statement (.linkRetrain l) := RoundTrip.of_none rfl

theorem RoundTrip.linkResume (l : Nat) : RoundTrip.Statement (.linkResume l) := RoundTrip.of_none rfl

theorem RoundTrip.linkTakeDown (l : Nat) : RoundTrip.Statement (.linkTakeDown l) := RoundTrip.of_none rfl

theorem RoundTrip.linkTrain (l : Nat) : RoundTrip.Statement (.linkTrain l) := RoundTrip.of_none rfl

theorem RoundTrip.holdDrained (l : Nat) : RoundTrip.Statement (.holdDrained l) := RoundTrip.of_none rfl

theorem RoundTrip.holdTimeout (l : Nat) : RoundTrip.Statement (.holdTimeout l) := RoundTrip.of_none rfl

theorem RoundTrip.laneTestDone (l : Nat) (bad : BitVec 64) (badSpare : BitVec 4) : RoundTrip.Statement (.laneTestDone l bad badSpare) := RoundTrip.of_none rfl

theorem RoundTrip.flitCrcRetry (l : Nat) : RoundTrip.Statement (.flitCrcRetry l) := RoundTrip.of_none rfl

theorem RoundTrip.errorWindowClose : RoundTrip.Statement .errorWindowClose := RoundTrip.of_none rfl

theorem RoundTrip.linkServiceRoutine (l : Nat) : RoundTrip.Statement (.linkServiceRoutine l) := RoundTrip.of_none rfl

theorem RoundTrip.flezilForward (rank : Nat) (dst : Nat) (x : BitVec 64) : RoundTrip.Statement (.flezilForward rank dst x) := RoundTrip.of_none rfl

theorem RoundTrip.flezilPortDown (p : Nat) : RoundTrip.Statement (.flezilPortDown p) := RoundTrip.of_none rfl

theorem RoundTrip.patrolScrub (key : Nat) (unit : BitVec 4) (uncorrectable : Bool) : RoundTrip.Statement (.patrolScrub key unit uncorrectable) := RoundTrip.of_none rfl

theorem RoundTrip.samplePulse : RoundTrip.Statement .samplePulse := RoundTrip.of_none rfl

theorem RoundTrip.debugStop (core : Nat) : RoundTrip.Statement (.debugStop core) := RoundTrip.of_none rfl

theorem RoundTrip.debugStep (key : Nat) : RoundTrip.Statement (.debugStep key) := RoundTrip.of_none rfl

theorem RoundTrip.debugResume (core : Nat) : RoundTrip.Statement (.debugResume core) := RoundTrip.of_none rfl

theorem RoundTrip.debugAccess (key : Nat) (wr : Bool) (what : DebugItem) (x : BitVec 64) : RoundTrip.Statement (.debugAccess key wr what x) := RoundTrip.of_none rfl

theorem RoundTrip.illegalOpcode (cause : BitVec 9) (bsyl : Bool) : RoundTrip.Statement (.illegalOpcode cause bsyl) := RoundTrip.of_none rfl

theorem RoundTrip.fetchLineRefill (core : Nat) : RoundTrip.Statement (.fetchLineRefill core) := RoundTrip.of_none rfl

theorem RoundTrip.ownedLineWriteBack (cluster line : Nat) : RoundTrip.Statement (.ownedLineWriteBack cluster line) := RoundTrip.of_none rfl

theorem RoundTrip.frameMigrateCopyDone : RoundTrip.Statement .frameMigrateCopyDone := RoundTrip.of_none rfl

theorem RoundTrip.areaWriteBackComplete (core : Nat) : RoundTrip.Statement (.areaWriteBackComplete core) := RoundTrip.of_none rfl

theorem RoundTrip.powerLoss : RoundTrip.Statement .powerLoss := RoundTrip.of_none rfl

theorem RoundTrip.igvosPortUp (p : Nat) : RoundTrip.Statement (.igvosPortUp p) := RoundTrip.of_none rfl

theorem RoundTrip.debugArm (core : Nat) (on : Bool) : RoundTrip.Statement (.debugArm core on) := RoundTrip.of_none rfl

end Sys2Proof.Laws
end

