-- ==== Sys2Proof/Tests/Slice0.lean ====
section
/-! SUPPORT. Tests of the decoder, one step each of the spec's worked examples, ill-formed terms that the check refuses, and for every
statement of Certificates/Slice0/Obligations.lean that has hypotheses a theorem `wit_<name>` that meets them. -/

set_option Elab.async false

namespace Sys2Proof.Tests

open Sys2Proof Sys2Proof.Machine

/-! ## Decoding: the words are those of the opcode table with their fields filled in -/

/-- Words of the opcode table with their fields filled in (05 R152-R163). -/
theorem test_decode_integer :
    decodeBundle true true 0x01255C00 0x0 = .good (.add 18 10 23 false) .vnop ∧
    decodeBundle true true 0x00BC1E01 0x0 = .good (.sub 11 24 7 true) .vnop ∧
    decodeBundle true true 0x01940002 0x0 = .good (.mul 25 8 0 false) .vnop ∧
    decodeBundle true true 0x0090C803 0x0 = .good (.mulh 9 1 18) .vnop ∧
    decodeBundle true true 0x0029C004 0x0 = .good (.mulhu 2 19 16) .vnop ∧
    decodeBundle true true 0x0148A405 0x0 = .good (.div 20 17 9) .vnop ∧
    decodeBundle true true 0x01256006 0x0 = .good (.divu 18 10 24) .vnop ∧
    decodeBundle true true 0x00BCC407 0x0 = .good (.rem 11 25 17) .vnop ∧
    decodeBundle true true 0x01A97C08 0x0 = .good (.remu 26 18 31) .vnop ∧
    decodeBundle true true 0x01303C09 0x0 = .good (.and 19 0 15) .vnop ∧
    decodeBundle true true 0x0018200A 0x0 = .good (.or 1 16 8) .vnop ∧
    decodeBundle true true 0x0114E80B 0x0 = .good (.xor 17 9 26) .vnop ∧
    decodeBundle true true 0x00ADE00C 0x0 = .good (.andn 10 27 24) .vnop ∧
    decodeBundle true true 0x01CCC40D 0x0 = .good (.orn 28 25 17) .vnop ∧
    decodeBundle true true 0x01A9000E 0x0 = .good (.sll 26 18 0) .vnop ∧
    decodeBundle true true 0x0130E40F 0x0 = .good (.srl 19 1 25) .vnop ∧
    decodeBundle true true 0x002D1C10 0x0 = .good (.sra 2 26 7) .vnop ∧
    decodeBundle true true 0x01B45C11 0x0 = .good (.rol 27 8 23) .vnop ∧
    decodeBundle true true 0x009C4012 0x0 = .good (.ror 9 24 16) .vnop ∧
    decodeBundle true true 0x01988813 0x0 = .good (.min 25 17 2) .vnop ∧
    decodeBundle true true 0x01218014 0x0 = .good (.max 18 3 0) .vnop ∧
    decodeBundle true true 0x0040E415 0x0 = .good (.minu 4 1 25) .vnop ∧
    decodeBundle true true 0x002D2016 0x0 = .good (.maxu 2 26 8) .vnop ∧
    decodeBundle true true 0x01B48417 0x0 = .good (.slt 27 9 1) .vnop ∧
    decodeBundle true true 0x00A13C18 0x0 = .good (.sltu 10 2 15) .vnop ∧
    decodeBundle true true 0x00387C19 0x0 = .good (.seq 3 16 31) .vnop ∧
    decodeBundle true true 0x0110601A 0x0 = .good (.sne 17 0 24) .vnop :=
  ⟨rfl, rfl, rfl, rfl, rfl, rfl, rfl, rfl, rfl, rfl, rfl, rfl, rfl, rfl, rfl, rfl, rfl, rfl, rfl, rfl, rfl, rfl, rfl, rfl, rfl, rfl, rfl⟩

/-- Words of the opcode table with their fields filled in (05 R152-R163). -/
theorem test_decode_bits_and_immediates :
    decodeBundle true true 0x021C8000 0x0 = .good (.clz 1 25) .vnop ∧
    decodeBundle true true 0x03A58001 0x0 = .good (.ctz 26 11) .vnop ∧
    decodeBundle true true 0x02C48002 0x0 = .good (.popc 12 9) .vnop ∧
    decodeBundle true true 0x02A10003 0x0 = .good (.brev 10 2) .vnop ∧
    decodeBundle true true 0x02388004 0x0 = .good (.bswap 3 17) .vnop ∧
    decodeBundle true true 0x03255C05 0x0 = .good (.sel 18 10 23) .vnop ∧
    decodeBundle true true 0x02BC1F06 0x0 = .good (.adds 11 24 7 3) .vnop ∧
    decodeBundle true true 0x84800000 0x89ABCE03 = .good (.addi 8 0 (.lit 0x89ABCE03)) .vnop ∧
    decodeBundle true true 0x061901BB 0x0 = .good (.andi 1 18 (.fld 443)) .vnop ∧
    decodeBundle true true 0x89380000 0x89ABCE05 = .good (.ori 19 16 (.lit 0x89ABCE05)) .vnop ∧
    decodeBundle true true 0x0B14829B 0x0 = .good (.xori 17 9 (.fld 667)) .vnop ∧
    decodeBundle true true 0x0D25001C 0x0 = .good (.slli 18 10 28) .vnop ∧
    decodeBundle true true 0x0CBC8075 0x0 = .good (.srli 11 25 53) .vnop ∧
    decodeBundle true true 0x0DA90097 0x0 = .good (.srai 26 18 23) .vnop ∧
    decodeBundle true true 0x0E07845B 0x0 = .good (.slti 0 15 (.fld 1115)) .vnop ∧
    decodeBundle true true 0x91040000 0x89ABCE0B = .good (.sltui 16 8 (.lit 0x89ABCE0B)) .vnop :=
  ⟨rfl, rfl, rfl, rfl, rfl, rfl, rfl, rfl, rfl, rfl, rfl, rfl, rfl, rfl, rfl, rfl⟩

/-- Words of the opcode table with their fields filled in (05 R152-R163). -/
theorem test_decode_constants_and_fields :
    decodeBundle true true 0x1310045D 0x0 = .good (.lui 17 1117) .vnop ∧
    decodeBundle true true 0x92A08000 0x1234ABCD = .good (.lit 10 0x1234ABCD) .vnop ∧
    decodeBundle true true 0x93C10000 0x1234ABCD = .good (.lith 28 0x1234ABCD) .vnop ∧
    decodeBundle true true 0x95200000 0x89ABCE0F = .good (.addpc 18 (.lit 0x89ABCE0F)) .vnop ∧
    decodeBundle true true 0x173087DB 0x0 = .good (.extr 19 1 31 27) .vnop ∧
    decodeBundle true true 0x182D07DB 0x0 = .good (.extru 2 26 31 27) .vnop ∧
    decodeBundle true true 0x1BB407DB 0x0 = .good (.insr 27 8 31 27) .vnop :=
  ⟨rfl, rfl, rfl, rfl, rfl, rfl, rfl⟩

/-- Words of the opcode table with their fields filled in (05 R152-R163). -/
theorem test_decode_branches :
    decodeBundle true true 0xA1880000 0x89ABCE13 = .good (.beq 24 16 (.lit 0x89ABCE13)) .vnop ∧
    decodeBundle true true 0x231101CB 0x0 = .good (.bne 17 2 (.fld 459)) .vnop ∧
    decodeBundle true true 0xA4300000 0x89ABCE15 = .good (.blt 3 0 (.lit 0x89ABCE15)) .vnop ∧
    decodeBundle true true 0x261C82AB 0x0 = .good (.bge 1 25 (.fld 683)) .vnop ∧
    decodeBundle true true 0xA9A40000 0x89ABCE17 = .good (.bltu 26 8 (.lit 0x89ABCE17)) .vnop ∧
    decodeBundle true true 0x2A908366 0x0 = .good (.bgeu 9 1 (.fld 870)) .vnop ∧
    decodeBundle true true 0xAC000000 0x89ABCE19 = .good (.j (.lit 0x89ABCE19)) .vnop ∧
    decodeBundle true true 0x2E000368 0x0 = .good (.wcall (.fld 872)) .vnop :=
  ⟨rfl, rfl, rfl, rfl, rfl, rfl, rfl, rfl⟩

/-- Words of the opcode table with their fields filled in (05 R152-R163). -/
theorem test_decode_scalar_memory :
    decodeBundle true true 0xB00C2000 0x89ABCE1B = .good (.ldb 0 24 .wt (.lit 0x89ABCE1B)) .vnop ∧
    decodeBundle true true 0x339560AB 0x0 = .good (.ldbu 25 10 .nc (.fld 171)) .vnop ∧
    decodeBundle true true 0xB4B40000 0x89ABCE1D = .good (.ldh 11 8 .own (.lit 0x89ABCE1D)) .vnop ∧
    decodeBundle true true 0x3690E18B 0x0 = .good (.ldhu 9 1 .nc (.fld 395)) .vnop ∧
    decodeBundle true true 0xB8280000 0x89ABCE1F = .good (.ldw 2 16 .own (.lit 0x89ABCE1F)) .vnop ∧
    decodeBundle true true 0x3B14C0F9 0x0 = .good (.ldwu 17 9 .si (.fld 249)) .vnop ∧
    decodeBundle true true 0xBCABC000 0x89ABCE21 = .good (.ldd 10 23 .si (.lit 0x89ABCE21)) .vnop ∧
    decodeBundle true true 0x3F83E248 0x0 = .good (.stb 24 7 .nc (.fld 584)) .vnop ∧
    decodeBundle true true 0xC0802000 0x89ABCE23 = .good (.sth 8 0 .wt (.lit 0x89ABCE23)) .vnop ∧
    decodeBundle true true 0x421960B3 0x0 = .good (.stw 1 18 .nc (.fld 179)) .vnop ∧
    decodeBundle true true 0xC5380000 0x89ABCE25 = .good (.std 19 16 .own (.lit 0x89ABCE25)) .vnop :=
  ⟨rfl, rfl, rfl, rfl, rfl, rfl, rfl, rfl, rfl, rfl, rfl⟩

/-- Words of the opcode table with their fields filled in (05 R152-R163). -/
theorem test_decode_vector_memory :
    decodeBundle true true 0x4714E09C 0x0 = .good (.vld 17 9 .nc (.fld 19) 4) .vnop ∧
    decodeBundle true true 0xC6AC0204 0x89ABCE27 = .good (.vst 10 24 .own (.lit 0x89ABCE27) 4) .vnop ∧
    decodeBundle true true 0x46BCA5EB 0x0 = .good (.vlds 11 25 .wt 30 5 true) .vnop ∧
    decodeBundle true true 0x47A966EC 0x0 = .good (.vsts 26 18 .nc 14 6 false) .vnop ∧
    decodeBundle true true 0x47306871 0x0 = .good (.vgath 19 0 .nc 7 0 true) .vnop ∧
    decodeBundle true true 0x46180B9C 0x0 = .good (.vscat 1 16 .own 25 6 false) .vnop ∧
    decodeBundle true true 0x469D6DC1 0x0 = .good (.vldb 9 26 .nc .e64 (.fld 65)) .vnop ∧
    decodeBundle true true 0x470D8E00 0x0 = .good (.vldt 16 27 .own false) .vnop ∧
    decodeBundle true true 0x460CB018 0x0 = .good (.pf 25 .wt (.fld 3)) .vnop ∧
    decodeBundle true true 0xC6091200 0x89ABCE2F = .good (.cflush 18 .own (.lit 0x89ABCE2F)) .vnop ∧
    decodeBundle true true 0x4730B400 0x0 = .good (.xswap 19 1 .wt) .vnop :=
  ⟨rfl, rfl, rfl, rfl, rfl, rfl, rfl, rfl, rfl, rfl, rfl⟩

/-- Words of the opcode table with their fields filled in (05 R152-R163). -/
theorem test_decode_versions :
    decodeBundle true true 0x48016807 0x0 = .good (.vmap 2 26 7) .vnop ∧
    decodeBundle true true 0x480DA017 0x0 = .good (.vmapRel 27 8 7) .vnop ∧
    decodeBundle true true 0x48000029 0x0 = .good (.vunmap 9) .vnop ∧
    decodeBundle true true 0x4998803F 0x0 = .good (.vdraftNew 25 17 .k4 15) .vnop ∧
    decodeBundle true true 0x49218040 0x0 = .good (.vdraftJoin 18 3 0) .vnop ∧
    decodeBundle true true 0x48020051 0x0 = .good (.vpub 4 1) .vnop ∧
    decodeBundle true true 0x48000062 0x0 = .good (.vdone 2) .vnop ∧
    decodeBundle true true 0x49B48070 0x0 = .good (.vlatest 27 9) .vnop ∧
    decodeBundle true true 0x4A0500A6 0x0 = .good (.vsub 10 166) .vnop ∧
    decodeBundle true true 0x4A118088 0x0 = .good (.vunsub 3 136) .vnop ∧
    decodeBundle true true 0x4A288000 0x0 = .good (.vretain 17 0) .vnop ∧
    decodeBundle true true 0x4A308000 0x0 = .good (.vdrop 1) .vnop :=
  ⟨rfl, rfl, rfl, rfl, rfl, rfl, rfl, rfl, rfl, rfl, rfl, rfl⟩

/-- Words of the opcode table with their fields filled in (05 R152-R163). -/
theorem test_decode_reservations_and_updates :
    decodeBundle true true 0x51A58010 0x0 = .good (.lrw 26 11 true) .vnop ∧
    decodeBundle true true 0x50062420 0x0 = .good (.sch 12 9 false) .vnop ∧
    decodeBundle true true 0x50050040 0x0 = .good (.rls 10) .vnop ∧
    decodeBundle true true 0x5038A476 0x0 = .good (.amo 3 17 9 true .minu) .vnop ∧
    decodeBundle true true 0x51255C80 0x0 = .good (.acas 18 10 23 false) .vnop ∧
    decodeBundle true true 0x5205E007 0x0 = .good (.ured 11 24 7) .vnop ∧
    decodeBundle true true 0x520CA081 0x0 = .good (.uredv 25 8 0 1) .vnop ∧
    decodeBundle true true 0x52908167 0x0 = .good (.odecl 9 1 true true 7) .vnop ∧
    decodeBundle true true 0x52010180 0x0 = .good (.ofree 2) .vnop :=
  ⟨rfl, rfl, rfl, rfl, rfl, rfl, rfl, rfl, rfl⟩

/-- Words of the opcode table with their fields filled in (05 R152-R163). -/
theorem test_decode_fences_counters_queues :
    decodeBundle true true 0x58000003 0x0 = .good (.fenceAcq .die) .vnop ∧
    decodeBundle true true 0x5800000C 0x0 = .good (.fenceLl .pkg) .vnop ∧
    decodeBundle true true 0x58000015 0x0 = .good (.fenceRel .sys) .vnop ∧
    decodeBundle true true 0x58000019 0x0 = .good (.fenceFull .core) .vnop ∧
    decodeBundle true true 0x5A09B09B 0x0 = .good (.sqwait 19 (some .pkg) 155) .vnop ∧
    decodeBundle true true 0x5A185102 0x0 = .good (.sqinc 48 (some .pkg) 2) .vnop ∧
    decodeBundle true true 0x5B10029D 0x0 = .good (.sqrd 17 157) .vnop ∧
    decodeBundle true true 0x5CAD8000 0x0 = .good (.qpush 10 27) .vnop ∧
    decodeBundle true true 0x5DC48010 0x0 = .good (.qpop 28 9) .vnop ∧
    decodeBundle true true 0x5DA10020 0x0 = .good (.qstat 26 2) .vnop ∧
    decodeBundle true true 0x5C404C31 0x0 = .good (.qpushc 19 true) .vnop ∧
    decodeBundle true true 0x5C016840 0x0 = .good (.msg 2 26) .vnop :=
  ⟨rfl, rfl, rfl, rfl, rfl, rfl, rfl, rfl, rfl, rfl, rfl, rfl⟩

/-- Words of the opcode table with their fields filled in (05 R152-R163). -/
theorem test_decode_tasks :
    decodeBundle true true 0x600DA000 0x0 = .good (.spawn 27 8) .vnop ∧
    decodeBundle true true 0x60048010 0x0 = .good (.join 9) .vnop ∧
    decodeBundle true true 0x61988020 0x0 = .good (.steal 25 17) .vnop ∧
    decodeBundle true true 0x60090030 0x0 = .good (.taskw 18) .vnop ∧
    decodeBundle true true 0x60000040 0x0 = .good .texit .vnop ∧
    decodeBundle true true 0x60010050 0x0 = .good (.launch 2) .vnop ∧
    decodeBundle true true 0x600DA460 0x0 = .good (.vtrig 27 9) .vnop :=
  ⟨rfl, rfl, rfl, rfl, rfl, rfl, rfl⟩

/-- Words of the opcode table with their fields filled in (05 R152-R163). -/
theorem test_decode_gangs_and_waits :
    decodeBundle true true 0x62000006 0x0 = .good (.gang true 2) .vnop ∧
    decodeBundle true true 0x62000010 0x0 = .good .ungang .vnop ∧
    decodeBundle true true 0x63100021 0x0 = .good (.bar 17 0 true) .vnop ∧
    decodeBundle true true 0x62000030 0x0 = .good .bara .vnop ∧
    decodeBundle true true 0x63A00040 0x0 = .good (.barw 26) .vnop ∧
    decodeBundle true true 0x64000000 0x0 = .good .nret .vnop ∧
    decodeBundle true true 0x64000010 0x0 = .good .wait .vnop ∧
    decodeBundle true true 0x64000020 0x0 = .good .yield .vnop :=
  ⟨rfl, rfl, rfl, rfl, rfl, rfl, rfl, rfl⟩

/-- Words of the opcode table with their fields filled in (05 R152-R163). -/
theorem test_decode_state_and_system :
    decodeBundle true true 0x692001CE 0x0 = .good (.mfs 18 462) .vnop ∧
    decodeBundle true true 0x680593B0 0x0 = .good (.mts 11 944) .vnop ∧
    decodeBundle true true 0x6A000000 0x0 = .good .ecall .vnop ∧
    decodeBundle true true 0x6A000010 0x0 = .good .brk .vnop ∧
    decodeBundle true true 0x6A010020 0x0 = .good (.trmark 2) .vnop ∧
    decodeBundle true true 0x6A000030 0x0 = .good .halt .vnop :=
  ⟨rfl, rfl, rfl, rfl, rfl, rfl⟩

/-- Words of the opcode table with their fields filled in (05 R152-R163). -/
theorem test_decode_umpire :
    decodeBundle true true 0x6D210026 0x0 = .good (.frdReg 18 2 true 6) .vnop ∧
    decodeBundle true true 0x6CB091D5 0x0 = .good (.frdState 11 1 469) .vnop ∧
    decodeBundle true true 0x6C292026 0x0 = .good (.fwrReg 2 18 true 6) .vnop ∧
    decodeBundle true true 0x6C303143 0x0 = .good (.fwrState 3 0 323) .vnop ∧
    decodeBundle true true 0x6C104008 0x0 = .good (.frdv 1 0 8) .vnop ∧
    decodeBundle true true 0x6C14D01A 0x0 = .good (.fwrv 1 9 26) .vnop ∧
    decodeBundle true true 0x6CA1E007 0x0 = .good (.frq 10 3 7) .vnop ∧
    decodeBundle true true 0x6E000000 0x0 = .good (.fresRetry 0) .vnop ∧
    decodeBundle true true 0x6E000801 0x0 = .good (.fresSkip 2) .vnop ∧
    decodeBundle true true 0x6E098402 0x0 = .good (.fresRedirect 19 1) .vnop ∧
    decodeBundle true true 0x6E000810 0x0 = .good (.fkillAbandon 2) .vnop ∧
    decodeBundle true true 0x6E000C11 0x0 = .good (.fkillCount 3) .vnop ∧
    decodeBundle true true 0x6E048020 0x0 = .good (.capxfer 9 0) .vnop ∧
    decodeBundle true true 0x6E000430 0x0 = .good (.capdrop 1) .vnop ∧
    decodeBundle true true 0x6E000040 0x0 = .good .uexit .vnop :=
  ⟨rfl, rfl, rfl, rfl, rfl, rfl, rfl, rfl, rfl, rfl, rfl, rfl, rfl, rfl, rfl⟩

/-- Words of the opcode table with their fields filled in (05 R152-R163). -/
theorem test_decode_companion_and_jumps :
    decodeBundle true true 0x70020400 0x0 = .good (.cxrd 4 1) .vnop ∧
    decodeBundle true true 0x72016800 0x0 = .good (.cxwr 2 26) .vnop ∧
    decodeBundle true true 0x7E000000 0x0 = .good .anop .vnop ∧
    decodeBundle true true 0xFE201000 0x89ABCE79 = .good (.jl 2 (.lit 0x89ABCE79)) .vnop ∧
    decodeBundle true true 0x7F0FA4CB 0x0 = .good (.jlr 16 31 (.fld 1227)) .vnop ∧
    decodeBundle true true 0x7E003000 0x0 = .good .wret .vnop ∧
    decodeBundle true true 0x7E00C00D 0x0 = .good (.repRegister 1 13) .vnop ∧
    decodeBundle true true 0xFE005034 0x89ABCE7D = .good (.repImmediate (.lit 0x89ABCE7D) 52) .vnop :=
  ⟨rfl, rfl, rfl, rfl, rfl, rfl, rfl, rfl⟩

/-- Words of the opcode table with their fields filled in (05 R152-R163). -/
theorem test_decode_masks :
    decodeBundle true true 0x7E000000 0x00000000 = .good .anop .vnop ∧
    decodeBundle true true 0x7E000000 0x00420001 = .good .anop (.kand 2 2 0) ∧
    decodeBundle true true 0x7E000000 0x00610802 = .good .anop (.kor 3 1 1) ∧
    decodeBundle true true 0x7E000000 0x00423803 = .good .anop (.kxor 2 2 7) ∧
    decodeBundle true true 0x7E000000 0x00600004 = .good .anop (.knot 3 0) ∧
    decodeBundle true true 0x7E000000 0x00200005 = .good .anop (.kmov 1 0) :=
  ⟨rfl, rfl, rfl, rfl, rfl, rfl⟩

/-- Words of the opcode table with their fields filled in (05 R152-R163). -/
theorem test_decode_vector_integer :
    decodeBundle true true 0x7E000000 0x052197E0 = .good .anop (.vadd 9 (.que 1) 18 7 .e64) ∧
    decodeBundle true true 0x7E000000 0x04538081 = .good .anop (.vaddSat 2 (.reg 19) 16 0 .e32) ∧
    decodeBundle true true 0x7E000000 0x06814FE2 = .good .anop (.vsubVector 20 (.que 1) 9 7 .e64) ∧
    decodeBundle true true 0x7E000000 0x064AC043 = .good .anop (.vsubSat 18 (.reg 10) 24 0 .e16) ∧
    decodeBundle true true 0x7E000000 0x05698E64 = .good .anop (.vmul 11 (.que 9) 17 6 .e16) ∧
    decodeBundle true true 0x7E000000 0x0752FE85 = .good .anop (.vmulh 26 (.reg 18) 31 6 .e32) ∧
    decodeBundle true true 0x7E000000 0x06607F26 = .good .anop (.vand 19 (.que 0) 15 7 .e8) ∧
    decodeBundle true true 0x7E000000 0x04304187 = .good .anop (.vor 1 (.reg 16) 8 1 .e32) ∧
    decodeBundle true true 0x7E000000 0x0629D7E8 = .good .anop (.vxor 17 (.que 9) 26 7 .e64) ∧
    decodeBundle true true 0x7E000000 0x055BC089 = .good .anop (.vandn 10 (.reg 27) 24 0 .e32) ∧
    decodeBundle true true 0x7E000000 0x07898FEA = .good .anop (.vsll 28 (.que 9) 17 7 .e64) ∧
    decodeBundle true true 0x7E000000 0x0752004B = .good .anop (.vsrl 26 (.reg 18) 0 0 .e16) ∧
    decodeBundle true true 0x7E000000 0x0661CE6C = .good .anop (.vsra 19 (.que 1) 25 6 .e16) ∧
    decodeBundle true true 0x7E000000 0x045A3E8D = .good .anop (.vmin 2 (.reg 26) 7 6 .e32) ∧
    decodeBundle true true 0x7E000000 0x0768BF2E = .good .anop (.vmax 27 (.que 8) 23 7 .e8) ∧
    decodeBundle true true 0x7E000000 0x0538818F = .good .anop (.vminu 9 (.reg 24) 16 1 .e32) ∧
    decodeBundle true true 0x7E000000 0x072117F0 = .good .anop (.vmaxu 25 (.que 1) 2 7 .e64) ∧
    decodeBundle true true 0x7E000000 0x06430031 = .good .anop (.vabs 18 (.que 3) 0 .e8) ∧
    decodeBundle true true 0x7E000000 0x048101D2 = .good .anop (.vpopc 4 (.reg 1) 1 .e64) :=
  ⟨rfl, rfl, rfl, rfl, rfl, rfl, rfl, rfl, rfl, rfl, rfl, rfl, rfl, rfl, rfl, rfl, rfl, rfl, rfl⟩

/-- Words of the opcode table with their fields filled in (05 R152-R163). -/
theorem test_decode_vector_compare :
    decodeBundle true true 0x7E000000 0x045A4053 = .good .anop (.vsel 2 (.reg 26) 8 0 .e16) ∧
    decodeBundle true true 0x7E000000 0x04690E74 = .good .anop (.vcmpEq 3 (.que 9) 1 6 .e16) ∧
    decodeBundle true true 0x7E000000 0x04427E95 = .good .anop (.vcmpNe 2 (.reg 2) 15 6 .e32) ∧
    decodeBundle true true 0x7E000000 0x0460FF36 = .good .anop (.vcmpLt 3 (.que 0) 31 7 .e8) ∧
    decodeBundle true true 0x7E000000 0x0420C197 = .good .anop (.vcmpLe 1 (.reg 0) 24 1 .e32) ∧
    decodeBundle true true 0x7E000000 0x042957F8 = .good .anop (.vcmpLtu 1 (.que 9) 10 7 .e64) ∧
    decodeBundle true true 0x7E000000 0x044B4099 = .good .anop (.vcmpLeu 2 (.reg 11) 8 0 .e32) ∧
    decodeBundle true true 0x7E000000 0x09890BF8 = .good .anop (.vmadd 12 9 1 15 7 .e8) :=
  ⟨rfl, rfl, rfl, rfl, rfl, rfl, rfl, rfl⟩

/-- Words of the opcode table with their fields filled in (05 R152-R163). -/
theorem test_decode_vector_float :
    decodeBundle true true 0x7E000000 0x414280C0 = .good .anop (.vfadd 10 (.reg 2) 16 0 .f64) ∧
    decodeBundle true true 0x7E000000 0x40614EA1 = .good .anop (.vfsub 3 (.que 1) 9 6 .f32) ∧
    decodeBundle true true 0x7E000000 0x424ABEC2 = .good .anop (.vfmul 18 (.reg 10) 23 6 .f64) ∧
    decodeBundle true true 0x7E000000 0x41683FA3 = .good .anop (.vfdiv 11 (.que 8) 7 7 .f32) ∧
    decodeBundle true true 0x7E000000 0x432801C4 = .good .anop (.vfmin 25 (.reg 8) 0 1 .f64) ∧
    decodeBundle true true 0x7E000000 0x412197A5 = .good .anop (.vfmax 9 (.que 1) 18 7 .f32) ∧
    decodeBundle true true 0x7E000000 0x404300A6 = .good .anop (.vfsqrt 2 (.que 3) 0 .f32) ∧
    decodeBundle true true 0x7E000000 0x429101C7 = .good .anop (.vfrcp 20 (.reg 17) 1 .f64) ∧
    decodeBundle true true 0x7E000000 0x424A00A8 = .good .anop (.vfrsq 18 (.que 10) 0 .f32) ∧
    decodeBundle true true 0x7E000000 0x417901C9 = .good .anop (.vfexp2 11 (.reg 25) 1 .f64) ∧
    decodeBundle true true 0x7E000000 0x434207AA = .good .anop (.vflog2 26 (.que 2) 7 .f32) ∧
    decodeBundle true true 0x7E000000 0x40C07FAB = .good .anop (.vtsum 6 (.que 0) 15 7 .f32) :=
  ⟨rfl, rfl, rfl, rfl, rfl, rfl, rfl, rfl, rfl, rfl, rfl, rfl⟩

/-- Words of the opcode table with their fields filled in (05 R152-R163). -/
theorem test_decode_float_compare :
    decodeBundle true true 0x7E000000 0x403041CC = .good .anop (.vfcmpEq 1 (.reg 16) 8 1 .f64) ∧
    decodeBundle true true 0x7E000000 0x4029D7AD = .good .anop (.vfcmpLt 1 (.que 9) 26 7 .f32) ∧
    decodeBundle true true 0x7E000000 0x405BC0CE = .good .anop (.vfcmpLe 2 (.reg 27) 24 0 .f64) ∧
    decodeBundle true true 0x7E000000 0x40898FAF = .good .anop (.vfcmpUn 4 (.que 9) 17 7 .f32) ∧
    decodeBundle true true 0x7E000000 0x435200D0 = .good .anop (.vfsgnCp 26 (.reg 18) 0 0 .f64) ∧
    decodeBundle true true 0x7E000000 0x4261CEB1 = .good .anop (.vfsgnNeg 19 (.que 1) 25 6 .f32) ∧
    decodeBundle true true 0x7E000000 0x405A3ED2 = .good .anop (.vfsgnXor 2 (.reg 26) 7 6 .f64) ∧
    decodeBundle true true 0x7E000000 0x436807D3 = .good .anop (.vfclass 27 (.reg 8) 7 .f64) ∧
    decodeBundle true true 0x7E000000 0x45388074 = .good .anop (.vfma 9 24 16 1 6 .f32) ∧
    decodeBundle true true 0x7E000000 0x4B3117FE = .good .anop (.vfnma 25 17 2 31 7 .f64) :=
  ⟨rfl, rfl, rfl, rfl, rfl, rfl, rfl, rfl, rfl, rfl⟩

/-- Words of the opcode table with their fields filled in (05 R152-R163). -/
theorem test_decode_conversions :
    decodeBundle true true 0x7E000000 0x824329A6 = .good .anop (.vcvt 18 3 .int32 .bf16 .sr false 3) ∧
    decodeBundle true true 0x7E000000 0x8481ACE8 = .good .anop (.venc 4 1 false .dyn false 4 false) ∧
    decodeBundle true true 0x7E000000 0x885ADA79 = .good .anop (.vdec 2 26 true .rup true 4 true) ∧
    decodeBundle true true 0x7E000000 0x8F69ACEA = .good .anop (.vencS 27 9 false .dyn false 5 false) ∧
    decodeBundle true true 0x7E000000 0x9142DA7F = .good .anop (.vdecS 10 2 true .rup true 7 true) ∧
    decodeBundle true true 0x7E000000 0x946007A0 = .good .anop (.vfkey 3 (.que 0) 7) :=
  ⟨rfl, rfl, rfl, rfl, rfl, rfl⟩

/-- Words of the opcode table with their fields filled in (05 R152-R163). -/
theorem test_decode_permutes :
    decodeBundle true true 0x7E000000 0xA220C180 = .good .anop (.vperm 17 (.reg 0) 24 1 .e32) ∧
    decodeBundle true true 0x7E000000 0xA03902C1 = .good .anop (.vbcast 1 25 2 .e64) ∧
    decodeBundle true true 0x7E000000 0xA34B4022 = .good .anop (.vext 26 (.que 11) 8 .e8) ∧
    decodeBundle true true 0x7E000000 0xA18908C3 = .good .anop (.vins 12 9 1 .e64) ∧
    decodeBundle true true 0x7E000000 0xA1428044 = .good .anop (.vslideUp 10 (.reg 2) 16 0 .e16) ∧
    decodeBundle true true 0x7E000000 0xA0614E65 = .good .anop (.vslideDn 3 (.que 1) 9 6 .e16) ∧
    decodeBundle true true 0x7E000000 0xA24A5686 = .good .anop (.vred 18 (.reg 10) .fmin 6 .e32) ∧
    decodeBundle true true 0x7E000000 0xA16827A7 = .good .anop (.vscan 11 (.que 8) .maxu 7 .e32) ∧
    decodeBundle true true 0x7E000000 0xA3280068 = .good .anop (.vcmprs 25 (.que 8) 0 .e16) ∧
    decodeBundle true true 0x7E000000 0xA12100C9 = .good .anop (.vsortA 9 (.reg 1)) ∧
    decodeBundle true true 0x7E000000 0xA04300EA = .good .anop (.vsortD 2 (.que 3)) ∧
    decodeBundle true true 0x7E000000 0xA10148EB = .good .anop (.vmergeA 8 (.que 1) 9) ∧
    decodeBundle true true 0x7E000000 0xA08AC0CC = .good .anop (.vmergeD 4 (.reg 10) 24) :=
  ⟨rfl, rfl, rfl, rfl, rfl, rfl, rfl, rfl, rfl, rfl, rfl, rfl, rfl⟩

/-- Words of the opcode table with their fields filled in (05 R152-R163). -/
theorem test_decode_matrix :
    decodeBundle true true 0x7E000000 0xC051235A = .good .anop (.mmas (.que 2) (.regs 1) 565 true false true false) ∧
    decodeBundle true true 0x7E000000 0xC40035E0 = .good .anop (.mzero 862) ∧
    decodeBundle true true 0x7E000000 0xC8000002 = .good .anop (.mtab true false) ∧
    decodeBundle true true 0x7E000000 0xD0300000 = .good .anop (.vqpush 1 16) :=
  ⟨rfl, rfl, rfl, rfl⟩

/-! ## Small states -/

/-- The machine after reset with the issuing strand changed. -/
def st (f : Strand → Strand) : State := { State.reset with me := f Strand.blank }

/-- With g1, g2 and g3 set. -/
def regs (a b c : Word) : State := st fun o => ((o.setG 1 a).setG 2 b).setG 3 c

/-- A resident user strand with a handle. -/
def peer (key sid : Nat) : Strand := { Strand.blank with key := key, sid := sid, run := .ready, pc := 0x1000 }

/-- A version of name 7 in context 0's space, in one frame. -/
def ver1 : Ver :=
  { uid := 1, space := 0, name := 7, num := 1, cls := .k64, st := .afloat, count := none, contrib := 0, refs := 1, pinned := false,
    doomed := false, frames := [0x80000000000], hbm := [], data := [], used := 0 }

/-- The record of name 7 with one version published. -/
def name7 : Name := { space := 0, name := 7, cls := some .k64, latest := 1, retain := 1, subs := [], trigs := [], dropped := false }

/-- A machine that knows a version of name 7. -/
def withVer (v : Ver) (f : Strand → Strand) : State :=
  { State.reset with me := f Strand.blank, homes := { State.reset.homes with names := [name7], vers := [v] } }

theorem cleanAt (s : State) (h : s.poison = [] ∧ s.homes.posted = []) (off n : Nat) (hb : off + n ≤ 2 ^ 17) : cleanLocal s off n :=
  ⟨hb, fun _ _ => by simp [State.poisonedAt, State.linePosted, State.linesPosted, h.1, h.2]⟩

theorem openAt (s : State) (h : s.homes.resv = [] ∧ s.homes.posted = []) (off n : Nat) (hb : off + n ≤ 2 ^ 17) : openLocal s off n :=
  ⟨hb, by simp [State.reservedFrom, h.1], fun _ _ => by simp [h.2]⟩

theorem noPosted (s : State) (h : s.homes.posted = []) : ∀ p ∈ s.homes.posted, p.key ≠ s.me.key := by simp [h]

/-- Nothing is outstanding, where the release's parts are seen one by one. -/
theorem clear (s : State) (h : s.me.counts = [] ∧ s.me.acks = 0 ∧ s.me.query = none ∧ s.me.replay = [] ∧ s.homes.posted = [])
    (q : pushesOut s.me = true) : noneOutstanding s := ⟨h.1, h.2.1, h.2.2.1, h.2.2.2.1, q, noPosted s h.2.2.2.2⟩

/-! ## Hypotheses that can be met -/

theorem wit_RegistersAndBytesReadBack : Memory.wf [(5, 1)] = true ∧ mget (msetN [(5, 1)] 4 [7, 8]) 5 = 8 := ⟨rfl, rfl⟩

theorem wit_ScalarResults :
    canIssue (regs 5 0 0) ∧ (0 < 64 ∧ 64 ≤ 64) ∧ (63#6).toNat + ((0#6).toNat + 1) ≤ 64 ∧ (0#6).toNat + ((63#6).toNat + 1) ≤ 64 :=
  ⟨rfl, by decide, by decide, by decide⟩

theorem wit_DivisionResults :
    canIssue (regs 5 0 0) ∧ (regs 5 0 0).me.g 2 = 0 ∧ (regs 5 7 0).me.g 2 ≠ 0 ∧
    (let s := regs 0x8000000000000000#64 (BitVec.allOnes 64) 0
     canIssue s ∧ s.me.g 1 = 0x8000000000000000#64 ∧ s.me.g 2 = BitVec.allOnes 64) :=
  ⟨rfl, rfl, by decide, rfl, rfl, rfl⟩

/-- A strand at LEND of an armed clause with n iterations left. -/
def atLend (n : Word) : State := st fun o => { o with armed := true, lcount := n, pc := 0x40, lstart := 0x20, lend := 0x40 }

theorem wit_PcBranchesAndJumps :
    (let o := (regs 1 2 3).me
     ¬(o.armed = true ∧ o.susp = false ∧ o.pc = o.lend) ∧ canIssue (regs 1 2 3)) ∧
    (let s := { State.reset with cores := [{ CoreRec.blank 0 with line := some (1, []) }] }
     fetchPlace s.begin s.begin.me 0x40 = .inl 0x40 ∧ (s.core s.me.core).line = some (1, [])) := by
  refine ⟨⟨by decide, rfl⟩, by decide, rfl⟩

theorem wit_WindowedCalls :
    (let s := regs 0 0 0
     let off : Imm 25 := .fld 2
     canIssue s ∧ outsideClause s ∧ (if immVal off = 0 then s.me.g 31 else s.me.pc + 8 * immVal off).toNat % 8 = 0 ∧ s.me.res < 6) ∧
    (let s := st fun o => { o with older := [Vector.replicate 8 0] }
     canIssue s ∧ outsideClause s ∧ (s.me.g 23).toNat % 8 = 0 ∧ 2 < s.me.res ∧ s.me.res < 6) :=
  ⟨⟨rfl, rfl, by decide, by decide⟩, ⟨rfl, rfl, by decide, by decide, by decide⟩⟩

theorem wit_RepeatClauses :
    (let s := regs 3 0 0
     canIssue s ∧ s.me.armed = false ∧ s.me.g 1 ≠ 0 ∧ s.me.g 2 = 0 ∧ immZext (.fld 5 : Imm 10) ≠ 0 ∧
       ¬(s.me.armed = true ∧ s.me.susp = false ∧ s.me.pc = s.me.lend)) ∧
    (let o := (atLend 2).me
     (o.armed = true ∧ o.susp = false ∧ o.pc = o.lend) ∧ 1 < o.lcount.toNat) ∧
    (let o := (atLend 1).me
     (o.armed = true ∧ o.susp = false ∧ o.pc = o.lend) ∧ o.lcount.toNat ≤ 1) :=
  ⟨⟨rfl, rfl, by decide, rfl, by decide, by decide⟩, ⟨⟨rfl, rfl, rfl⟩, by decide⟩, ⟨⟨rfl, rfl, rfl⟩, by decide⟩⟩

/-- g1 at an offset of own local memory, g2 a stride or count. -/
def atLocal (p : Nat) (t : Word) : State := regs (ownLocal p) t 0

theorem wit_LocalScalarAccesses :
    (∀ z ∈ [1, 2, 4, 8],
      let s := atLocal (2 ^ 17 - z) 0
      canIssue s ∧ memAddr s.me 1 z (.fld 0 : Imm 13) = ownLocal (2 ^ 17 - z) ∧ (2 ^ 17 - z) % z = 0 ∧ cleanLocal s (2 ^ 17 - z) z) ∧
    (∀ z ∈ [1, 2, 4, 8],
      let s := atLocal (2 ^ 17 - z) 0
      s.memWf ∧ openLocal s (2 ^ 17 - z) z) ∧
    (let s := atLocal 0 0
     memAddr s.me 1 1 (.fld 0 : Imm 13) = ownLocal 0 ∧ cleanLocal s 0 8) := by
  refine ⟨fun z h => ?_, fun z h => ?_, ⟨rfl, cleanAt _ ⟨rfl, rfl⟩ _ _ (by decide)⟩⟩
  · fin_cases h <;> exact ⟨rfl, by decide, by decide, cleanAt _ ⟨rfl, rfl⟩ _ _ (by decide)⟩
  · fin_cases h <;> exact ⟨rfl, openAt _ ⟨rfl, rfl⟩ _ _ (by decide)⟩

theorem wit_LocalVectorReads :
    (let s := atLocal (2 ^ 17 - 64) 0
     canIssue s ∧ memAddr s.me 1 64 (.fld 0 : Imm 6) = ownLocal (2 ^ 17 - 64) ∧ cleanLocal s (2 ^ 17 - 64) 64 ∧ s.me.kr 0 ≠ 0 ∧
       s.me.kr 1 = 0) ∧
    (∀ ew : Ew,
      let s := atLocal 64 0
      memAddr s.me 1 ew.bytes (.fld 0 : Imm 7) = ownLocal 64 ∧ 64 % ew.bytes = 0 ∧ cleanLocal s 64 ew.bytes) ∧
    (let s := atLocal 64 12
     canIssue s ∧ (∀ j < 64 / elBytes false, s.me.active 0 j →
       strideAddr s.me 1 2 j = ownLocal (64 + 12 * j) ∧ (64 + 12 * j) % elBytes false = 0 ∧ cleanLocal s (64 + 12 * j) (elBytes false)) ∧
      s.me.active 0 15 = true) ∧
    (let s := atLocal 64 0
     ∀ j < 64 / elBytes true, s.me.active 0 j →
       indexAddr s.me 1 5 true j = ownLocal 64 ∧ 64 % elBytes true = 0 ∧ cleanLocal s 64 (elBytes true)) ∧
    (∀ e : Bool,
      let s := atLocal 2048 0
      let n := if e then 8 else 16
      (Instr.vldt 16 1 .own e).wf = true ∧ s.me.g 1 = ownLocal 2048 ∧ 2048 % (64 * n) = 0 ∧ cleanLocal s 2048 (64 * n)) := by
  refine ⟨⟨rfl, by decide, cleanAt _ ⟨rfl, rfl⟩ _ _ (by decide), by decide, rfl⟩, fun ew => ?_, ⟨rfl, fun j h _ => ?_, by decide⟩,
    fun j h _ => ?_, fun e => ?_⟩
  · cases ew <;> exact ⟨by decide, rfl, cleanAt _ ⟨rfl, rfl⟩ _ _ (by decide)⟩
  · have h : j < 16 := h
    refine ⟨?_, ?_, cleanAt _ ⟨rfl, rfl⟩ _ _ (show 64 + 12 * j + 4 ≤ 2 ^ 17 by omega)⟩ <;> interval_cases j <;> rfl
  · have h : j < 8 := h
    refine ⟨?_, rfl, cleanAt _ ⟨rfl, rfl⟩ _ _ (by decide)⟩
    interval_cases j <;> decide +kernel
  · cases e <;> exact ⟨rfl, by decide, rfl, cleanAt _ ⟨rfl, rfl⟩ _ _ (by decide)⟩

theorem wit_LocalVectorWrites :
    (let s := atLocal (2 ^ 17 - 64) 0
     canIssue s ∧ s.memWf ∧ memAddr s.me 1 64 (.fld 0 : Imm 6) = ownLocal (2 ^ 17 - 64) ∧ (2 ^ 17 - 64) % 64 = 0 ∧
       openLocal s (2 ^ 17 - 64) 64) ∧
    (let s := atLocal (2 ^ 17 - 64) 8
     canIssue s ∧ s.memWf ∧ ∀ j < 64 / elBytes true, s.me.active 0 j →
       strideAddr s.me 1 2 j = ownLocal (2 ^ 17 - 64 + 8 * j) ∧ (2 ^ 17 - 64 + 8 * j) % elBytes true = 0 ∧
         openLocal s (2 ^ 17 - 64 + 8 * j) (elBytes true)) ∧
    (let s := atLocal 64 0
     ∀ j < 64 / elBytes false, s.me.active 0 j →
       indexAddr s.me 1 5 false j = ownLocal 64 ∧ 64 % elBytes false = 0 ∧ openLocal s 64 (elBytes false)) := by
  refine ⟨⟨rfl, rfl, by decide, by decide, openAt _ ⟨rfl, rfl⟩ _ _ (by decide)⟩, ⟨rfl, rfl, fun j h _ => ?_⟩, fun j h _ => ?_⟩
  · have h : j < 8 := h
    refine ⟨?_, ?_, openAt _ ⟨rfl, rfl⟩ _ _ (show 2 ^ 17 - 64 + 8 * j + 8 ≤ 2 ^ 17 by omega)⟩ <;> interval_cases j <;> decide
  · have h : j < 16 := h
    refine ⟨?_, rfl, openAt _ ⟨rfl, rfl⟩ _ _ (by decide)⟩
    interval_cases j <;> decide +kernel

/-- The position of the member at row 1, column c of a crew 2 wide and 2 high. -/
def pos22 (c : Nat) : Word := BitVec.ofNat 64 (c * 2 ^ 8 + 2 ^ 16 + 2 * 2 ^ 24 + 2 * 2 ^ 32)

/-- A member that exchanges 64 bytes at own local 0 with a member of the same crew that waits. -/
def pairSt : State :=
  let o := (((Strand.blank.setG 1 (ownLocal 0)).setG 2 64))
  let crew : Crew :=
    { uid := 9, launch := 0, index := 0, die := 0, ox := 0, oy := 0, w := 2, h := 2, slots := 1, p := false, c := 4, acur := 0, anxt := 0,
      scur := Vector.replicate 8 0, snxt := Vector.replicate 8 0, poison := false, poisoned := false, gone := [],
      sq := Vector.replicate 256 0 }
  { State.reset with
    me := { o with key := 1, crew := some 9, crewpos := BitVec.ofNat 64 (2 ^ 16 + 2 * 2 ^ 24 + 2 * 2 ^ 32) }
    others := [{ peer 2 8 with crew := some 9, crewpos := BitVec.ofNat 64 (2 ^ 8 + 2 * 2 ^ 24 + 2 * 2 ^ 32),
                               xs := some { base := lkey 1 0, bytes := 64, fin := false } }]
    sched := { State.reset.sched with crews := [crew] } }

theorem wit_PrefetchFlushAndExchange :
    (let s := atLocal (2 ^ 17 - 64) 0
     canIssue s ∧ 2 ^ 17 - 64 < 2 ^ 17 ∧ memAddr s.me 1 64 (.fld 0 : Imm 6) = ownLocal (2 ^ 17 - 64)) ∧
    (let s := regs 0x1000 0 0
     check s.begin s.begin.me Acc.load 64 0 (memAddr s.me 1 64 (.fld 0 : Imm 6)) = .ok (.mem 0x1000) .plain (some 0x1000) ∧
       s.begin.away { lane := 0, va := memAddr s.me 1 64 (.fld 0 : Imm 6), loc := .mem 0x1000, rg := .plain, pa := some 0x1000 } = false ∧
       s.begin.linePosted (.mem 0x1000) = false) ∧
    (let s := { regs (ownLocal 0) 16384 0 with me := { (regs (ownLocal 0) 16384 0).me with crewpos := pos22 1 } }
     s.me.g 1 = ownLocal 0 ∧ 0 < (s.me.g 2).toNat ∧ (s.me.g 2).toNat ≤ 16384 ∧ (s.me.g 2).toNat % 64 = 0 ∧
       0 + (s.me.g 2).toNat ≤ 2 ^ 17 ∧ crewRow s.me < crewW s.me ∧ crewCol s.me < crewH s.me ∧ crewCol s.me = crewRow s.me) ∧
    (let s := pairSt
     canIssue s ∧ s.me.g 1 = ownLocal 0 ∧ (s.me.g 2).toNat = 64 ∧ crewRow s.me < crewW s.me ∧ crewCol s.me < crewH s.me ∧
       crewCol s.me ≠ crewRow s.me ∧ s.me.xs = none ∧ s.me.gang = none ∧ cleanLocal s 0 (s.me.g 2).toNat ∧
       (∀ c, s.me.crew.bind s.begin.crew = some c → c.gone = []) ∧
       (s.begin.memberAt s.begin.me (crewRow s.me) (crewCol s.me)).map (·.key) = some 2 ∧
       (s.others.head?.bind (·.xs)).map (·.base) = some (lkey 1 0) ∧ s.memWf ∧ lkey 0 0 + 64 ≤ lkey 1 0 ∧
       s.reservedFrom s.me.key (.mem (lkey 0 0)) 64 = false ∧ s.reservedFrom 2 (.mem (lkey 1 0)) 64 = false ∧
       (s.others.head?.map (·.xsCount)) = some s.me.xsCount ∧ s.begin.areaAway s.me.key (lkey s.me.core 0) = none ∧
       s.begin.areaAway 2 (lkey 1 0) = none) := by
  refine ⟨⟨rfl, by decide, by decide⟩, ⟨by decide, by decide, rfl⟩, ?_, ?_⟩
  · refine ⟨rfl, ?_, ?_, ?_, ?_, ?_, ?_, ?_⟩ <;> decide
  · refine ⟨rfl, rfl, rfl, by decide, by decide, by decide, rfl, rfl, cleanAt _ ⟨rfl, rfl⟩ _ _ (by decide), ?_, by decide, rfl, rfl, by decide, rfl, rfl, rfl, by decide, by decide⟩
    intro c h
    cases h
    rfl

/-- A cox strand with a page of its own channel in g1 and own local memory in g2. -/
def coxSt : State := { regs 0 (ownLocal 0) 0 with me := { (regs 0 (ownLocal 0) 0).me with sid := 2304 * 8 } }

/-- The places of a burst between page 0 and its local side. -/
def coxEls : El × El :=
  ({ lane := 0, va := 0, loc := .mem 0, rg := .plain, pa := some 0 },
   { lane := 0, va := ownLocal 0, loc := .mem (lkey 2304 0), rg := .mine 0, pa := none })

theorem wit_CoxBursts :
    canIssue coxSt ∧ coxSt.begin.away coxEls.1 = false ∧ coxSt.begin.away coxEls.2 = false ∧ coxSt.begin.linesPosted (.mem 0) 32 = false ∧
    coxSt.begin.linesPosted (.mem (lkey 2304 0)) 32 = false ∧ coxSt.begin.burstHeld coxEls.1 .loadSi = false ∧ coxSt.begin.burstHeld coxEls.1 .storeNc = false ∧
    coxSt.begin.reservedFrom coxSt.me.key (.mem (lkey 2304 0)) 2048 = false ∧
    coxPage coxSt.begin coxSt.begin.me Acc.load (coxSt.me.g 1) = .inl coxEls.1 ∧
    coxSide coxSt.begin coxSt.begin.me true (coxSt.me.g 2) = .inl coxEls.2 ∧
    (let m := (coxSt.begin.noteUse coxEls.1).ncLines (cacheOf coxSt.me.core) 0 false
     Memory.wf m.mem = true ∧ m.poisonIn (.mem 0) 2048 = none) ∧
    coxPage coxSt.begin coxSt.begin.me { Acc.store with replay := true } (coxSt.me.g 1) = .inl coxEls.1 ∧
    coxSide coxSt.begin coxSt.begin.me false (coxSt.me.g 2) = .inl coxEls.2 ∧ coxSt.me.counts = [] ∧
    coxSt.poisonIn (.mem (lkey 2304 0)) 2048 = none ∧ coxSt.begin.reservedFrom coxSt.me.key (.mem 0) 2048 = false ∧
    (let m := ((coxSt.begin.noteUse coxEls.1).ncLines (cacheOf coxSt.me.core) 0 true).counted coxSt.me.key (coxSt.begin.sliceOf 0) 0
     Memory.wf m.mem = true) := by
  refine ⟨rfl, ?_, ?_, rfl, rfl, ?_, ?_, rfl, ?_, ?_, ⟨?_, ?_⟩, ?_, ?_, rfl, ?_, rfl, ?_⟩ <;> decide +kernel

theorem wit_MappingAndUnmapping :
    (let s := withVer ver1 fun o => (o.setG 1 7).setG 2 1
     canIssue s ∧ s.homeOpen (dieOf s.me.core) 0 7 = true ∧ s.me.answer = none ∧ winBusy (s.me.winAt 15) = false ∧ groupComplete s (s.spaceOf 0 7) = true ∧
       (s.nameRec 0 7).dropped = false ∧ s.ver 1 = some ver1 ∧ (s.me.g 2).toNat % 2 ^ 32 ≠ 0 ∧
       s.pubVer 0 (nameOf s.me 1) ((s.me.g 2).toNat % 2 ^ 32) = some ver1 ∧
       (s.me.g 3).toNat < (s.nameRec 0 7).latest ∧ (s.nameRec 0 7).latest < 2 ^ 32 ∧
       s.pubVer 0 7 ((s.nameRec 0 7).latest - (s.me.g 3).toNat) = some ver1) ∧
    (let s := withVer ver1 fun o => (o.setG 1 7).setG 2 2
     (s.nameRec 0 7).latest < (s.me.g 2).toNat % 2 ^ 32 ∧ s.pubVer 0 7 ((s.me.g 2).toNat % 2 ^ 32) = none) ∧
    (let s := withVer { ver1 with refs := 2 } fun o =>
       { o with win := (((o.win.set 1 .released).set 2 (.pending 7 2)).set 3 (.ro 1 .k64)).set 4 (.draft 1 .k64) }
     canIssue s ∧ s.me.winAt 0 = .unmapped ∧ s.me.winAt 1 = .released ∧ s.me.winAt 2 = .pending 7 2 ∧ s.me.winAt 3 = .ro 1 .k64 ∧
       s.ver 1 = some { ver1 with refs := 2 } ∧ 1 < 2 ∧ s.me.winAt 4 = .draft 1 .k64) := by
  refine ⟨⟨rfl, ?_, rfl, rfl, ?_, rfl, rfl, ?_, ?_, ?_, ?_, ?_⟩, ⟨?_, ?_⟩, ⟨rfl, rfl, rfl, rfl, rfl, rfl, ?_, rfl⟩⟩ <;> decide +kernel

theorem wit_DraftingAndPublishing :
    (let s := withVer ver1 fun o => o.setG 1 7
     canIssue s ∧ winBusy (s.me.winAt 0) = false ∧ s.homeOpen (dieOf s.me.core) 0 7 = true ∧ groupComplete s 0 = true ∧ (s.nameRec 0 7).dropped = false ∧
       (s.nameRec 0 7).cls = some .k64 ∧ s.begin.nextNum (s.nameRec 0 7) < 2 ^ 32 ∧ s.begin.tableCount (s.begin.nameSlice 0 7) < 65536 ∧
       (s.begin.takeTile (s.begin.nameSlice 0 7) .k64).isSome = true ∧ s.openDraft 0 7 = none) ∧
    (let v := { ver1 with st := .drafted, num := 2 }
     (withVer v fun o => o.setG 1 7).openDraft 0 7 = some v) ∧
    (let v := { ver1 with st := .drafted, num := 2 }
     let s := withVer v fun o => { o.setG 1 65535 with win := o.win.set 15 (.draft 1 .k64) }
     canIssue s ∧ noneOutstanding s ∧ s.homeOpen (dieOf s.me.core) v.space v.name = true ∧ s.me.winAt 15 = .draft 1 .k64 ∧ s.ver 1 = some v ∧ v.uid = 1 ∧ 1 ≤ (s.me.g 1).toNat ∧
       (s.me.g 1).toNat ≤ 65535 ∧ v.count = none ∧ v.contrib ≤ (s.me.g 1).toNat) ∧
    (let v := { ver1 with st := .drafted, num := 2, count := some 1 }
     ∀ k, v.count = some k → v.contrib < k) ∧
    (let v := { ver1 with st := .completed, num := 2 }
     ((withVer v id).nextPub 0 7).map (·.uid) = some 1) := by
  refine ⟨⟨rfl, rfl, ?_, ?_, ?_, ?_, ?_, ?_, ?_, ?_⟩, ?_, ⟨rfl, clear _ ⟨rfl, rfl, rfl, rfl, rfl⟩ rfl, ?_, rfl, rfl, rfl, ?_, ?_, rfl, ?_⟩, fun k h => by cases h; decide, ?_⟩ <;>
    decide +kernel

theorem wit_SubscribingRetainingAndDropping :
    (let s := st fun o => { o.setG 1 7 with launch := some 5 }
     canIssue s ∧ s.begin.fileOf s.begin.me = some (.launch 5) ∧ s.homeOpen (dieOf s.me.core) 0 7 = true ∧ groupComplete s (s.spaceOf 0 7) = true ∧
       (s.nameRec 0 7).subs = [] ∧ s.me.subs.length < 16 ∧
       (s.homes.names.filter fun m => decide (s.nameSlice m.space m.name = s.nameSlice 0 7)).foldl (fun k m => k + m.subs.length) 0 < 8192) ∧
    (1 ≤ (1#4).toNat ∧ (8#4).toNat ≤ 8) ∧
    (let v := { ver1 with st := .drafted, num := 2 }
     let w := Strand.blank.win.set 3 (.draft 1 .k64)
     let s := { withVer v (fun o => { o.setG 1 7 with win := w }) with others := [{ peer 2 8 with win := w }] }
     v ∈ s.homes.vers ∧ v.space = 0 ∧ v.name = 7 ∧ v.doomed = false ∧ v.st = .drafted ∧ s.me.winAt 3 = .draft v.uid .k64 ∧
       ∀ o ∈ s.others, o.winAt 3 = .draft v.uid .k64) := by
  refine ⟨⟨rfl, ?_, ?_, ?_, ?_, ?_, ?_⟩, ?_, ⟨.head _, rfl, rfl, rfl, rfl, rfl, ?_⟩⟩ <;> decide +kernel

theorem wit_QueuedReservations :
    (let s := atLocal (2 ^ 17 - 8) 0
     let k := lkey s.me.core (2 ^ 17 - 8)
     canIssue s ∧ noneOutstanding s ∧ s.memWf ∧ s.me.g 1 = ownLocal (2 ^ 17 - 8) ∧ (2 ^ 17 - 8) % wBytes false = 0 ∧
       cleanLocal s (2 ^ 17 - 8) (wBytes false) ∧ (s.rqueue k).q = [] ∧ (s.rqueue k).killed = false ∧ s.heldBy s.me.key < 4) ∧
    (let s := { atLocal 4 0 with
                homes := { State.reset.homes with resv := [{ loc := lkey 0 4, q := [{ key := 0, w32 := true, held := true, word := none }], killed := false }] } }
     (s.rqueue (lkey s.me.core 4)).q = [{ key := 0, w32 := true, held := true, word := none }] ∧ s.me.key = 0 ∧ 4 % wBytes true = 0 ∧ 4 % 4 = 0 ∧
       cleanLocal s 4 (wBytes true) ∧ s.me.g 1 = ownLocal 4 ∧ s.homes.posted = []) := by
  refine ⟨⟨rfl, clear _ ⟨rfl, rfl, rfl, rfl, rfl⟩ rfl, rfl, rfl, rfl, cleanAt _ ⟨rfl, rfl⟩ _ _ (by decide), rfl, rfl, by decide +kernel⟩,
    ⟨?_, rfl, rfl, rfl, cleanAt _ ⟨rfl, rfl⟩ _ _ (by decide), rfl, rfl⟩⟩
  decide +kernel

theorem wit_AtomicsAndUpdates :
    (let s := atLocal (2 ^ 17 - 4) 0
     let k := lkey s.me.core (2 ^ 17 - 4)
     canIssue s ∧ noneOutstanding s ∧ s.memWf ∧ s.homes.posted = [] ∧ s.me.g 1 = ownLocal (2 ^ 17 - 4) ∧ (2 ^ 17 - 4) % wBytes true = 0 ∧
       cleanLocal s (2 ^ 17 - 4) (wBytes true) ∧ (s.rqueue k).q = [] ∧ s.heldBy s.me.key < 4) ∧
    (let s := regs 0x1000 0 0
     let e : El := { lane := 0, va := s.me.g 1, loc := .mem 0x1000, rg := .plain, pa := some 0x1000 }
     canIssue s ∧ (0#4 : BitVec 4) ≠ 15 ∧ uLocked s.begin 0 0x1000 = false ∧ updatesAtOnce s.begin 0 (s.me.g 1) 0x1000 ∧ s.begin.away e = false ∧
       check s.begin s.begin.me Acc.update (uBytes 0) 0 (s.me.g 1) = .ok (.mem 0x1000) .plain (some 0x1000) ∧
       check s.begin s.begin.me Acc.update 64 0 (s.me.g 1) = .ok (.mem 0x1000) .plain (some 0x1000) ∧
       (List.range (64 / uBytes 0)).filter (s.me.active 0) ≠ [] ∧ (List.range (64 / uBytes 0)).filter (s.me.active 1) = [] ∧
       s.coh (s.keyAt 0x1000) = .i ∧ s.homes.parts = [] ∧ 0x1000 % uBytes 0 = 0 ∧ 0x1000 % 64 = 0) := by
  refine ⟨⟨rfl, clear _ ⟨rfl, rfl, rfl, rfl, rfl⟩ rfl, rfl, rfl, rfl, rfl, cleanAt _ ⟨rfl, rfl⟩ _ _ (by decide), rfl, by decide +kernel⟩,
    ⟨rfl, ?_, ?_, by unfold updatesAtOnce; decide +kernel, ?_, ?_, ?_, ?_, ?_, ?_, rfl, ?_, ?_⟩⟩ <;> decide +kernel

/-- A declared object of one granule in context 0. -/
def obj1 : Obj := { id := 5, ctx := 0, op := none, lock := false, granules := [3] }

/-- A shape record of one dimension at own local 32: its base in page 1, an extent and stride 1. -/
def recAt32 (extent : Byte) : State :=
  { atLocal 32 0 with
    mem := [(lkey 0 34, 1), (lkey 0 40, 1)] ++ (if extent = 0 then [] else [(lkey 0 48, extent)]) ++ [(lkey 0 56, 1)] }

theorem wit_DeclaringObjects :
    (let s := atLocal 32 0
     canIssue s ∧ s.me.g 1 = ownLocal 32 ∧ 32 % 16 = 0 ∧ cleanLocal s 32 16 ∧ (2#4 : BitVec 4) ≠ 15 ∧
       headRank (leNat (s.bytes (.mem (lkey s.me.core 32)) 16)) = 0) ∧
    (let s := { atLocal 32 0 with mem := [(lkey 0 40, 5)] }
     4 < headRank (leNat (s.bytes (.mem (lkey s.me.core 32)) 16)) ∧ cleanLocal s 32 16) ∧
    (∀ extent : Byte, extent = 0 ∨ extent = 4 →
      let s := recAt32 extent
      let h := leNat (s.bytes (.mem (lkey s.me.core 32)) 16)
      let sh := shapeOf h ((List.range (headRank h)).map fun i => leNat (s.bytes (.mem (lkey s.me.core (32 + 16 + 16 * i))) 16))
      canIssue s ∧ s.me.g 1 = ownLocal 32 ∧ headRank h = 1 ∧ cleanLocal s 32 (16 + 16 * headRank h) ∧
        shapeGranules s.begin s.me.ctx sh = if extent = 0 then none else some [256]) ∧
    (let s := { regs (5 * 256) 0 0 with homes := { State.reset.homes with objs := [obj1] } }
     (s.objIds (homeSlice (4 * 256))).length < 4096 ∧ (∀ g ∈ [4], ∀ b ∈ s.homes.objs, g ∉ b.granules) ∧
       (∃ g ∈ [3], ∃ b ∈ s.homes.objs, g ∈ b.granules) ∧
       s.homes.objs.find? (fun x => decide (x.id = (s.me.g 1).toNat / 256) && decide (x.ctx = s.me.ctx)) = some obj1 ∧
       (s.me.g 1).toNat % 256 = 0 ∧ (∀ b ∈ s.homes.objs, ¬(b.id = (s.me.g 2).toNat / 256 ∧ b.ctx = s.me.ctx)) ∧
       s.begin.objectOpen s.me.core obj1.granules = true ∧ s.begin.objectOpen s.me.core [256] = true) := by
  refine ⟨⟨rfl, rfl, rfl, cleanAt _ ⟨rfl, rfl⟩ _ _ (by decide), by decide, ?_⟩, ⟨?_, cleanAt _ ⟨rfl, rfl⟩ _ _ (by decide)⟩, fun x h => ?_,
    ⟨?_, ?_, ?_, ?_, ?_, ?_, ?_, ?_⟩⟩
  case refine_3 => rcases h with rfl | rfl <;> exact ⟨rfl, rfl, by decide +kernel, cleanAt _ ⟨rfl, rfl⟩ _ _ (by decide +kernel), by decide +kernel⟩
  all_goals decide +kernel

/-- A strand whose update of an object of its die waits on its way. -/
def updSt : State :=
  { State.reset with homes := { State.reset.homes with
      posted := [{ State.reset.postOf .own { lane := 0, va := 0, loc := .mem 256, rg := .plain, pa := some 256 } [] with upd := some (0, []) }] } }

theorem wit_FencesCompleteOrWait :
    (canIssue State.reset ∧ noneOutstanding State.reset) ∧
    (let s := st fun o => { o with counts := [(0, 1)] }
     canIssue s ∧ s.me.replay = [] ∧ s.me.query = none ∧ s.me.counts ≠ [] ∧
       (!(decide (Scope.die = .core) || decide (Scope.die = .clu))) = true ∧ pushesOut s.me = true) ∧
    (pushesOut (st fun o => { o with q6 := [(0, 0)] }).me = false ∧ (st fun o => { o with q6 := [(0, 0)] }).me.replay = []) ∧
    State.reset.begin.updateOut State.reset.me.key = false ∧ updSt.begin.updateOut updSt.me.key = true := by
  refine   ⟨⟨rfl, clear _ ⟨rfl, rfl, rfl, rfl, rfl⟩ rfl⟩, ⟨rfl, rfl, rfl, by decide, rfl, rfl⟩, ⟨rfl, rfl⟩, rfl, ?_⟩
  decide +kernel

theorem wit_SequenceCounters :
    (let s := pairSt
     canIssue s ∧ s.begin.fileOf s.begin.me = some (.crew 9) ∧ (s.crew 9).isSome = true ∧ s.begin.fileOpen s.me.core (.crew 9) = true ∧ noneOutstanding s ∧
       ((s.begin.seqGet (.crew 9) 0).toNat % 2 ^ 32 + 2 ^ 32 - (s.me.g 3).toNat % 2 ^ 32) % 2 ^ 32 < 2 ^ 31 ∧
       ¬((s.begin.seqGet (.crew 9) 0).toNat % 2 ^ 32 + 2 ^ 32 - (s.me.g 2).toNat % 2 ^ 32) % 2 ^ 32 < 2 ^ 31) ∧
    (let s := { pairSt with me := pairSt.me.setG 3 0x80000001 }
     ((s.begin.seqGet (.crew 9) 0).toNat % 2 ^ 32 + 2 ^ 32 - (s.me.g 3).toNat % 2 ^ 32) % 2 ^ 32 < 2 ^ 31) ∧
    (State.reset.begin.fileOf State.reset.begin.me = none ∧ pairSt.me.woken = false ∧ (st fun o => { o with woken := true }).me.woken = true) := by
  refine ⟨⟨rfl, ?_, ?_, ?_, clear _ ⟨rfl, rfl, rfl, rfl, rfl⟩ rfl, ?_, ?_⟩, ?_, ?_⟩ <;> decide +kernel

theorem wit_QueueWordsAndStatus :
    (let s := regs 1 2 3
     let o := s.begin.me
     canIssue s ∧ queueCause o true 11 = some Cause.queueReserved ∧ queueCause o false 4 = some Cause.queueDirection ∧
       queueCause o true 1 = none ∧ (s.begin.pushQ o 1 [s.me.g 1]).isSome = true ∧ (s.me.qout.getD 1 []).length < 16 ∧
       queueCause o false 5 = none ∧ (s.begin.popQ o 5 1).isNone = true) ∧
    (let s := st fun o => { o with qout := o.qout.set 1 (List.replicate 16 0) }
     queueCause s.begin.me true 1 = none ∧ (s.begin.pushQ s.begin.me 1 [s.me.g 1]).isNone = true) ∧
    (let s := st fun o => { o with q5 := [7] }
     queueCause s.begin.me false 5 = none ∧ (s.begin.popQ s.begin.me 5 1).isSome = true ∧ poisonedPop s.begin.me 5 1 = none ∧
       s.me.q5 = [7]) ∧
    ((10#4).toNat < 11 ∧ 11 ≤ (11#4).toNat ∧ (5#4).toNat = 5 ∧ (8#4).toNat = 8) := by
  refine ⟨⟨rfl, ?_, ?_, ?_, ?_, ?_, ?_, ?_⟩, ⟨?_, ?_⟩, ⟨?_, ?_, ?_, rfl⟩, ?_⟩ <;> decide +kernel

/-- A TCOPY command to slice 0. -/
def tcopy0 : BitVec 256 := BitVec.ofNat 256 (2 * 2 ^ 248)

theorem wit_CommandsAndMessages :
    (let s := regs 0x8000 0x100000000 0
     canIssue s ∧ commandOk s.begin s.begin.me (commandHalf (s.me.vr 0) false).toNat = false ∧ s.me.q6.length < 16 ∧
       (s.me.g 3).toNat < 2 ^ 15 ∧ (s.me.g 3).toNat ≤ 20479 ∧ 2 ^ 32 ≤ (s.me.g 2).toNat) ∧
    (let s := { pairSt with me := pairSt.me.setV 0 (BitVec.ofNat 512 tcopy0.toNat) }
     commandOk s.begin s.begin.me (commandHalf (s.me.vr 0) false).toNat = true ∧ (s.begin.fileOf s.begin.me).isSome = true ∧
       s.me.q4.length < 8) ∧
    (let s := { atLocal 0 0 with me := (atLocal 0 0).me.setV 0 (BitVec.ofNat 512 (tcopy0.toNat + 2 ^ 247)) }
     commandOk s.begin s.begin.me (commandHalf (s.me.vr 0) false).toNat = true ∧
       ((cWv (commandHalf (s.me.vr 0) false).toNat || cSv (commandHalf (s.me.vr 0) false).toNat) && (s.begin.fileOf s.begin.me).isNone) = true) ∧
    (let s := { pairSt with me := { pairSt.me.setV 0 (BitVec.ofNat 512 tcopy0.toNat) with q4 := List.replicate 8 (0, none) } }
     commandOk s.begin s.begin.me (commandHalf (s.me.vr 0) false).toNat = true ∧ 8 ≤ s.me.q4.length) ∧
    (let s := st fun o => { o with q6 := List.replicate 16 (0, 0) }
     16 ≤ s.me.q6.length ∧ (s.me.g 3).toNat ≤ 20479) := by
  refine ⟨⟨rfl, ?_, ?_, ?_, ?_, ?_⟩, ⟨?_, ?_, ?_⟩, ⟨?_, ?_⟩, ⟨?_, ?_⟩, ⟨?_, ?_⟩⟩ <;> decide +kernel

/-- Two members of a crew 2 wide that both wait with the same gang request. -/
def gangSt : State :=
  { pairSt with
    me := { pairSt.me with run := .parked, crewpos := BitVec.ofNat 64 (2 * 2 ^ 24 + 2 * 2 ^ 32) }
    others := [{ peer 2 8 with crew := some 9, crewpos := BitVec.ofNat 64 (2 ^ 8 + 2 * 2 ^ 24 + 2 * 2 ^ 32), gangReq := some (1, false) }] }

/-- The same two as a standing gang, with the last member issuing. -/
def standing (last : Bool) : State :=
  let mine := (gangSt.me.key, 2)
  { gangSt with
    me := { gangSt.me with run := .ready, gang := some 20 }
    sched := { gangSt.sched with gangs := [{ uid := 20, nc := 1, south := false, members := if last then [2, mine.1] else [mine.1, 2] }] } }

theorem wit_GangsAndBarriers :
    (let s := gangSt
     let o := s.begin.me
     let ms := gangStrands (s.begin.setMe fun x => { x with gangReq := some (1, false) }) o (gangSids o 1 false)
     canIssue s ∧ s.me.crew.isSome = true ∧ slotOf s.me.sid ≠ 7 ∧ gangInside s.me 1 false = true ∧ s.me.gang = none ∧ s.me.pair = none ∧ outsideClause s ∧
       s.me.run ≠ .empty ∧ s.me.run ≠ .follower ∧ (∀ c, s.me.crew.bind s.begin.crew = some c → c.gone = []) ∧
       (ms.all fun m => m.any fun x => decide (x.gangReq = some (1, false)) && !x.out && !x.isFrozen) = true ∧
       ((ms.filterMap id).map (·.key)) = [1, 2] ∧ s.me.key = 1) ∧
    (let s := { gangSt with me := { gangSt.me with gang := some 20, gangReq := some (1, false) } }
     s.me.gang.isSome = true ∧ s.me.gangReq.isSome = true ∧ canIssue s) ∧
    (State.reset.begin.gangOf State.reset.begin.me = none) ∧
    (∀ last, ((standing last).begin.gangOf (standing last).begin.me).isSome = true ∧ (standing last).me.run ≠ .follower) ∧
    (let s := { pairSt with me := { pairSt.me with barArrived := true, arrivals := [{ tag := true, sums := noSums, done := some noSums }] } }
     canIssue s ∧ s.me.crew = some 9 ∧ (∀ c, s.begin.crew 9 = some c → c.poisoned = false) ∧
       s.me.arrivals = [{ tag := true, sums := noSums, done := some noSums }] ∧ s.me.barArrived = true ∧ s.memWf ∧ s.me.g 1 = ownLocal 0 ∧
       openLocal s 0 32) ∧
    (pairSt.me.arrivals = [] ∧ (openArrivals pairSt.me).length < 2 ∧ pairSt.me.arrivals.length < 3 ∧ noneOutstanding pairSt) ∧
    ({ pairSt.me with run := .ready } : Strand).run ≠ .empty := by
  refine ⟨⟨rfl, rfl, ?_, ?_, rfl, rfl, rfl, ?_, ?_, ?_, ?_, ?_, rfl⟩, ⟨rfl, rfl, rfl⟩, rfl, ?_,
    ⟨rfl, rfl, ?_, rfl, rfl, rfl, rfl, openAt _ ⟨rfl, rfl⟩ _ _ (by decide)⟩,
    ⟨rfl, ?_, ?_, clear _ ⟨rfl, rfl, rfl, rfl, rfl⟩ rfl⟩, ?_⟩
  case refine_5 => intro c h; cases h; rfl
  case refine_9 => intro c h; cases h; rfl
  all_goals decide +kernel

theorem wit_NoticesWaitingAndYielding :
    (let s := st fun o => { o with nhbusy := true }
     canIssue s ∧ s.me.nhbusy = true) ∧
    (State.reset.me.nhbusy = false ∧ canIssue State.reset ∧ State.reset.me.gang = none) ∧
    (let s := st fun o => { o with nhmask := 0x8001 }
     s.me.gang = none ∧ s.me.nhmask.toNat % 32 ≠ 0 ∧ noticesOn s.me = true ∧ enabledSources s.me = 0) ∧
    (let s := st fun o => { o with q5 := [1], q7 := [1], q8 := [1], ovf := true, nhmask := 0x801F }
     enabledSources s.me ≠ 0) ∧
    (st fun o => { o with gang := some 3 }).me.gang.isSome = true := by
  refine ⟨⟨rfl, rfl⟩, ⟨rfl, rfl, rfl⟩, ⟨rfl, ?_, ?_, ?_⟩, ?_, rfl⟩ <;> decide +kernel

/-- A strand whose deque of one slot lies at own local 0, with bottom set by its cells. -/
def dq (m : List Host.Cell) (mask : Word) (f : Strand → Strand) : State :=
  { State.reset with me := f { Strand.blank with run := .ready, dqbase := ownLocal 0, dqmask := mask, launch := some 4 }, mem := m }

theorem wit_SpawningJoiningAndStealing :
    (let s := dq [] 0 fun o => o.setG 1 0x2000
     canIssue s ∧ s.me.gang = none ∧ s.begin.popPoison (lkey 0 0) 0 = none ∧ noneOutstanding s ∧ s.memWf ∧ dequeOf s.me = some (lkey 0 0, 0) ∧ (s.me.g 1).toNat % 8 = 0 ∧
       s.me.g 2 = 0 ∧ dqCount s (lkey 0 0) < 0 + 1 ∧ s.begin.bankHolds s.begin.me = true ∧ s.me.lo.getD 14 0 = 0 ∧
       dqTop s (lkey 0 0) = dqBottom s (lkey 0 0) ∧ stealOn s.me = false ∧ s.me.run ≠ .empty ∧ s.me.ump = none) ∧
    (let s := dq [(lkey 0 8, 1)] 0 id
     dqBottom s (lkey 0 0) - 1 = dqTop s (lkey 0 0) ∧ s.memWf) ∧
    (let s := dq [(lkey 0 8, 2)] 1 id
     (dqTop s (lkey 0 0)).toNat < (dqBottom s (lkey 0 0) - 1).toNat ∧ dqCount s (lkey 0 0) ≠ 0 ∧ dequeOf s.me = some (lkey 0 0, 1)) ∧
    (let s := dq [] 0x8000 id
     stealOn s.me = true ∧ dqTop s (lkey 0 0) = dqBottom s (lkey 0 0) ∧ dequeOf s.me = some (lkey 0 0, 0)) ∧
    (let s := dq [(lkey 0 1024, 3)] 0 fun o => (o.setG 1 (ownLocal 1024)).setG 2 (ownLocal 2048)
     s.me.g 1 = ownLocal 1024 ∧ cleanLocal s 1024 8 ∧ s.word (lkey s.me.core 1024) ≠ 0 ∧ s.word (lkey s.me.core 2048) = 0 ∧
       cleanLocal s 2048 8 ∧ s.me.woken = false) ∧
    (let s := dq [] 0 fun o => o.setG 1 2559
     (s.me.g 1).toNat ≤ 2559 ∧ s.me.g 1 ≠ 0 ∧ (stealFrom s.begin (s.me.launch.getD 0) (victimsOf s.begin (s.me.g 1).toNat)).isNone = true ∧
       stealWaits s.begin s.me.core (s.me.launch.getD 0) (victimsOf s.begin (s.me.g 1).toNat) = false) ∧
    (let s := { dq [(lkey 1 8, 1)] 0 (fun o => o.setG 1 1) with
                others := [{ peer 2 8 with dqbase := ownLocal 0, launch := some 4 }]
                homes := { State.reset.homes with tags := [(lkey 1 128, 4)] } }
     (stealFrom s.begin (s.me.launch.getD 0) (victimsOf s.begin (s.me.g 1).toNat)).isSome = true ∧
       stealWaits s.begin s.me.core (s.me.launch.getD 0) (victimsOf s.begin (s.me.g 1).toNat) = false ∧
       stealPoison s.begin (s.me.launch.getD 0) (victimsOf s.begin (s.me.g 1).toNat) = none) := by
  refine ⟨⟨rfl, rfl, ?_, clear _ ⟨rfl, rfl, rfl, rfl, rfl⟩ rfl, rfl, ?_, ?_, ?_, ?_, ?_, ?_, ?_, ?_, ?_, rfl⟩, ⟨?_, rfl⟩, ⟨?_, ?_, ?_⟩, ⟨?_, ?_, ?_⟩,
    ⟨?_, cleanAt _ ⟨rfl, rfl⟩ _ _ (by decide), ?_, ?_, cleanAt _ ⟨rfl, rfl⟩ _ _ (by decide), rfl⟩, ⟨?_, ?_, ?_, ?_⟩, ⟨?_, ?_, ?_⟩⟩
  all_goals decide +kernel

/-- A launch record of one crew of one strand. -/
def rcd1 : Vector Word 16 :=
  (((Vector.replicate 16 (0 : Word)).set 0 0x1000).set 5 (BitVec.ofNat 64 (2 ^ 48 + 2 ^ 32 + 2 ^ 24 + 2 ^ 16 + 0xFFFF))).set 6 0x10000

/-- A context that may launch on queue 0. -/
def ctx3 : Ctx :=
  { id := 3, maxClass := 7, root := 0, umpvec := Vector.replicate 32 0, umparea := 0, group := none,
    queues := [{ id := 0, maxClass := 7, ring := none, cons := 0, replayWin := 0, replayLeft := 0, hashA := 0, hashB := 0 }],
    pairing := false, dying := false, killed := 0, linked := [] }

/-- A strand of context 3 with the record's words in its local memory at 0, and n records accepted before. -/
def launchSt (n : Nat) : State :=
  let l : Launch :=
    { uid := 1, ctx := 3, queue := 0, rcd := rcd1, st := .accepted, waitHeld := true, accepted := 0, ready := none, effClass := 0,
      issuer := none, start := none, sq := Vector.replicate 256 0, home := 0, disc := 0, killed := false, partner := none, copyB := false,
      hash := 0 }
  { State.reset with
    me := { Strand.blank.setG 1 (ownLocal 0) with ctx := 3 }
    mem := [(lkey 0 1, 0x10), (lkey 0 40, 0xFF), (lkey 0 41, 0xFF), (lkey 0 42, 1), (lkey 0 43, 1), (lkey 0 44, 1), (lkey 0 46, 1),
            (lkey 0 50, 1)]
    fw := { State.reset.fw with ctxs := [ctx3] }
    sched := { State.reset.sched with launches := List.replicate n l } }

theorem wit_WaitingTasksAndLaunches :
    (let s := dq [(lkey 0 (1024 + 56), 1)] 0 fun o => (o.setG 1 7).setG 2 (ownLocal 1024)
     let ws := (List.range 16).map fun i => s.word (lkey s.me.core (1024 + 8 * i))
     canIssue s ∧ s.me.gang = none ∧ noneOutstanding s ∧ s.me.g 2 = ownLocal 1024 ∧ 1024 % 128 = 0 ∧ cleanLocal s 1024 128 ∧
       readConds s.begin.me s.begin ((List.range 4).map fun i => (ws.getD (8 + 2 * i) 0, ws.getD (9 + 2 * i) 0)) = .ok [] none ∧
       frameKind (frameOfWords ws) < 2 ∧ s.poolCount (homeUnit s.me.core) < 4096) ∧
    (let s := dq [(lkey 0 (1024 + 56), 1)] 0 fun o => (o.setG 1 7).setG 2 (ownLocal 1024)
     let ws := (List.range 8).map fun i => s.word (lkey s.me.core (1024 + 8 * i))
     cleanLocal s 1024 64 ∧ s.homeOpen (dieOf s.me.core) 0 7 = true ∧ frameKind (frameOfWords ws) = 1 ∧ fld (s.me.g 1).toNat 32 32 = 0 ∧ s.trigCount (s.nameSlice 0 7) < 4096) ∧
    (let s := launchSt 0
     canIssue s ∧ s.me.gang = none ∧ noneOutstanding s ∧ s.me.g 1 = ownLocal 0 ∧ cleanLocal s 0 128 ∧
       (∀ i : Fin 16, rcd1[i] = s.word (lkey s.me.core (0 + 8 * i.val))) ∧
       refuseReason (s.begin.setMe fun o => nextRound { o with query := some { dieOnly := false, answered := true } }) s.me.ctx none (maskSeal 0 rcd1) = none ∧ (s.begin.setMe fun o => nextRound { o with query := some { dieOnly := false, answered := true } }).acceptedCount s.me.ctx (rQueue (maskSeal 0 rcd1)) < 64) ∧
    (let s := launchSt 64
     64 ≤ (s.begin.setMe fun o => nextRound { o with query := some { dieOnly := false, answered := true } }).acceptedCount s.me.ctx (rQueue (maskSeal 0 rcd1)) ∧ refuseReason (s.begin.setMe fun o => nextRound { o with query := some { dieOnly := false, answered := true } }) s.me.ctx none (maskSeal 0 rcd1) = none) ∧
    refuseReason State.reset 0 none (maskSeal 0 (Vector.replicate 16 0)) = some 3 := by
  refine ⟨⟨rfl, rfl, clear _ ⟨rfl, rfl, rfl, rfl, rfl⟩ rfl, rfl, rfl, cleanAt _ ⟨rfl, rfl⟩ _ _ (by decide), rfl, ?_, ?_⟩, ⟨cleanAt _ ⟨rfl, rfl⟩ _ _ (by decide), ?_, ?_, ?_, ?_⟩,
    ⟨rfl, rfl, clear _ ⟨rfl, rfl, rfl, rfl, rfl⟩ rfl, rfl, cleanAt _ ⟨rfl, rfl⟩ _ _ (by decide), ?_, ?_, ?_⟩, ⟨?_, ?_⟩, ?_⟩ <;> decide +kernel

theorem wit_StateWords :
    canIssue State.reset ∧ selDefined 0x2F = false ∧ selDefined 0x10 = true ∧ Level.rank .user < 0x200 / 256 ∧
    selReadonly .user 0 = true ∧ (0x1000 : Word).toNat % 8 = 0 ∧ (peer 1 0).run ≠ .empty := by
  refine ⟨rfl, ?_, ?_, ?_, ?_, ?_, ?_⟩ <;> decide +kernel

theorem wit_SystemInstructions :
    (canIssue State.reset ∧ ((State.reset.core 0).armed && !State.reset.me.ganged) = false ∧ State.reset.me.level ≠ .firmware) ∧
    (let s := { State.reset with cores := [{ CoreRec.blank 0 with armed := true }] }
     ((s.core s.me.core).armed && !s.me.ganged) = true) ∧
    (let s := st fun o => { o with level := .firmware, run := .ready }
     s.me.level = .firmware ∧ s.me.run ≠ .empty) := by
  refine ⟨⟨rfl, rfl, ?_⟩, ?_, ⟨rfl, ?_⟩⟩ <;> decide +kernel

/-- Strand of a core with a neighbour: eight words wait in q0. -/
def q0St (ws : List Word) : State := st fun o => { o with qin := o.qin.set 0 ws }

theorem wit_MasksAndComparisons :
    (canIssue (regs 1 2 3) ∧ takes (regs 1 2 3) (.reg 5) ((regs 1 2 3).me.vr 5) (regs 1 2 3).begin) ∧
    (let s := q0St (List.replicate 9 7)
     canIssue s ∧ ∃ ws s1, s.begin.popQ s.begin.me 0 8 = some (ws, s1) ∧ takes s (.que 0) (packLanes 64 (ws.map (·.toNat))) s1) := by
  refine ⟨⟨rfl, rfl, rfl⟩, rfl, _, _, rfl, ?_, ?_, _, rfl, rfl⟩ <;> decide +kernel

theorem wit_VectorIntegerLanes : canIssue (regs 1 2 3) ∧ takes (regs 1 2 3) (.reg 0) ((regs 1 2 3).me.vr 0) (regs 1 2 3).begin :=
  ⟨rfl, rfl, rfl⟩

theorem wit_LanesMovedReducedAndSorted :
    (canIssue (regs 1 2 3) ∧ takes (regs 1 2 3) (.reg 0) ((regs 1 2 3).me.vr 0) (regs 1 2 3).begin ∧ RedKind.isFp .add = false) ∧
    (queueCause (regs 1 2 3).begin.me true 5 = some Cause.queueDirection) ∧
    (let s := q0St []
     queueCause s.begin.me true 1 = none ∧ (s.begin.pushQ s.begin.me 1 (List.replicate 8 0)).isSome = true) ∧
    (let s := st fun o => { o with qout := o.qout.set 1 (List.replicate 9 0) }
     queueCause s.begin.me true 1 = none ∧ (s.begin.pushQ s.begin.me 1 (List.replicate 8 0)).isNone = true) := by
  refine ⟨⟨rfl, ⟨rfl, rfl⟩, rfl⟩, ?_, ⟨?_, ?_⟩, ?_, ?_⟩ <;> decide +kernel

/-- v1 with a subnormal of both widths in lane 1 and nothing below it. -/
def subSt (fpmode : Word) : State := st fun o => { o.setV 1 (BitVec.ofNat 512 (2 ^ 64 + 2 ^ 52)) with fpmode := fpmode }

theorem wit_FloatingPointLanes :
    canIssue (subSt 0) ∧ takes (subSt 0) (.reg 1) ((subSt 0).me.vr 1) (subSt 0).begin ∧ RedKind.isFp .fadd = true ∧
    (∀ fw : Fw, let g := Fw.ff fw
     let x := laneOf g.width ((subSt 0).me.vr 1)
     trapLane (subSt 0).me 0 (Fw.lanes fw) (fun j => g.isSub (x j)) 1 ∧ noTrap (subSt 0x10).me 0 (Fw.lanes fw) (fun j => g.isSub (x j)) ∧
       noTrap (subSt 0).me 0 (Fw.lanes fw) (fun j => g.isSub (laneOf g.width ((subSt 0).me.vr 2) j))) := by
  refine ⟨rfl, ⟨rfl, rfl⟩, rfl, fun fw => ⟨⟨rfl, ?_, ?_, ?_, ?_⟩, Or.inl rfl, Or.inr ?_⟩⟩ <;> cases fw <;> decide +kernel

theorem wit_RoundingKeepsRepresentableValues :
    0x3FC00000 < 2 ^ ff32.width ∧ ff32.unpack 0x3FC00000 = .num false 0xC00000 (-23) ∧ ff32.isSub 0x3FC00000 = false ∧
    ff64.unpack 1 = .num false 1 (-1074) := by
  refine ⟨?_, ?_, ?_, ?_⟩ <;> decide +kernel

/-- A strand whose decode table is at own local 0, with the bytes given. -/
def tabSt (m : List Host.Cell) : State :=
  { st (fun o => { o.setV 1 (BitVec.ofNat 512 (2 ^ 64 + 2 ^ 52)) with fmta := ownLocal 0 }) with mem := m }

/-- A table of 8 rising magnitudes and their negatives. -/
def orderedTable : List Host.Cell :=
  ((List.range 16).map fun i =>
    let v := (if i % 8 = 0 then 0 else (120 + i % 8) * 2 ^ 10) + i / 8 * 2 ^ 18
    ((List.range 4).map fun j => (lkey 0 (4 * i + j), BitVec.ofNat 8 (v / 256 ^ j)))).flatten.filter fun c => c.2 ≠ 0

theorem wit_ConversionsAndCoding :
    (canIssue (subSt 0) ∧ noTrap (subSt 0).me 0 16 (fun j => ff32.isSub (fld (laneOf 32 ((subSt 0).me.vr 2) j) 0 32)) ∧
      trapLane (subSt 0).me 0 16 (fun j => ff32.isSub (fld (laneOf 32 ((subSt 0).me.vr 1) j) 0 32)) 1) ∧
    (imageOf (regs 0 0 0).begin (regs 0 0 0).begin.me false).isNone = true ∧
    (let s := tabSt [(lkey 0 0, 1)]
     (imageOf s.begin s.begin.me false).any (fun p => !tableOrdered p.2 true && decide (p.1 = lkey 0 0)) = true ∧
       s.begin.poisonIn (.mem (lkey 0 0)) 1024 = none) ∧
    (let s := tabSt orderedTable
     (imageOf s.begin s.begin.me false).any (fun p => tableOrdered p.2 true) = true ∧
       encSub (scaleOf false (s.me.vr 0)) (laneOf 32 (s.me.vr 1) 1) = true) := by
  refine ⟨⟨rfl, Or.inr ?_, rfl, ?_, ?_, ?_, ?_⟩, ?_, ⟨?_, ?_⟩, ?_, ?_⟩ <;> decide +kernel

theorem wit_QueueSourcesFreezeOrWait :
    (queueCause (regs 1 2 3).begin.me false 4 = some Cause.queueDirection ∧ canIssue (regs 1 2 3)) ∧
    (let s := q0St (List.replicate 7 0)
     queueCause s.begin.me false 0 = none ∧ (s.begin.popQ s.begin.me 0 8).isNone = true) ∧
    (let s := st fun o => { o with qin := o.qin.set 0 (List.replicate 8 0), qbad := o.qbad.set 0 [none, some 0x40] }
     queueCause s.begin.me false 0 = none ∧ (s.begin.popQ s.begin.me 0 8).isSome = true ∧ (poisonedPop s.begin.me 0 8).isSome = true) := by
  refine ⟨⟨?_, rfl⟩, ⟨?_, ?_⟩, ?_, ?_, ?_⟩ <;> decide +kernel

theorem wit_TakingAFreeze :
    (let s := st fun o => { o with run := .ready }
     s.me.run ≠ .empty ∧ s.me.pair = none ∧ s.gangOf s.me = none ∧ s.me.attached = false ∧ (s.core s.me.core).trcOn = false ∧ s.memWf ∧
       quietCause Cause.serviceCall = true ∧ (Raise.of Cause.serviceCall).ueLine = none) ∧
    (let s := { st (fun o => { o with run := .ready, key := 3, attached := true }) with pools := [⟨0, [], [3]⟩] }
     s.me.attached = true ∧ (∃ p ∈ s.pools, p.pend.contains s.me.key = true) ∧ s.me.run ≠ .empty ∧ s.me.pair = none ∧ s.gangOf s.me = none) ∧
    ((standing false).gangOf (standing false).me).isSome = true ∧ (standing false).me.run ≠ .empty ∧ (standing false).me.pair = none ∧
      (standing false).me.attached = false ∧ (standing false).undo = [] ∧ (∀ x ∈ State.reset.strands, x.gangReq.isSome = true → x.pair = none) ∧
      gangWaiters State.reset State.reset.me = [] ∧ gangWaiters gangSt gangSt.me = [2] ∧ (gangSt.strands.map (·.key)).Nodup ∧
      ∀ x ∈ gangSt.strands, x.gangReq.isSome = true → x.pair = none := by
  refine ⟨⟨?_, ?_, ?_, ?_, ?_, ?_, ?_, ?_⟩, ⟨?_, ?_, ?_, ?_, ?_⟩, ?_, ?_, ?_, ?_, ?_, ?_, ?_, ?_, ?_, ?_⟩ <;>
    first | rfl | decide +kernel

/-- An umpire whose cap0, of the rights given, names a strand in a run state. -/
def umpSt (rights : Nat) (run : RunState) (f : Strand → Strand) : State :=
  { State.reset with
    me := { Strand.blank with key := 1, sid := 7, level := .umpire, run := .ready, ump := some ⟨0, 1, []⟩,
                              caps := Vector.ofFn fun i : Fin 4 => if i.val = 0 then BitVec.ofNat 128 (2 ^ 127 + rights * 2 ^ 122 + 3 * 2 ^ 32) else 0 }
    others := [f { peer 2 0 with run := run, serial := 3 }] }

theorem wit_CapabilitiesAndFrozenState :
    (canIssue State.reset ∧ State.reset.me.level = .user) ∧
    (let s := umpSt 0x1F .frozen id
     canIssue s ∧ s.me.level ≠ .user ∧ capValid (s.me.caps.getD 1 0) = false ∧ capValid (s.me.caps.getD 0 0) = true ∧
       namesFrozen s 0 0 (s.others.headD Strand.blank) ∧ namesFrozen s 0 1 (s.others.headD Strand.blank) ∧
       (s.others.headD Strand.blank).replay = []) ∧
    capRight ((umpSt 0 .frozen id).me.caps.getD 0 0) 0 = false ∧
    (let s := umpSt 0x1F .frozen fun o => { o with serial := 4 }
     (s.begin.capStrand (s.me.caps.getD 0 0)).any (fun y => y.isFrozen && !decide (y.serial.toNat = capSerial (s.me.caps.getD 0 0))) = true) ∧
    (let s := umpSt 0x1F .ready id
     (s.begin.capStrand (s.me.caps.getD 0 0)).any (fun y => !y.isFrozen) = true ∧ namesStrand s 0 (s.others.headD Strand.blank)) ∧
    ((0x200#12).toNat = 0x200 ∧ frozenSel 0x10 none = none) := by
  refine ⟨⟨rfl, rfl⟩, ⟨rfl, ?_, ?_, ?_, ⟨⟨?_, ?_, ?_, ?_⟩, ?_, ?_⟩, ⟨⟨?_, ?_, ?_, ?_⟩, ?_, ?_⟩, rfl⟩, ?_, ?_, ⟨?_, ?_, ?_, ?_, ?_⟩, ?_, ?_⟩
  all_goals decide +kernel


theorem wit_ResumingKillingAndHandingOver :
    (let s := umpSt 0x1F .frozen id
     let x := s.others.headD Strand.blank
     canIssue s ∧ s.me.run ≠ .empty ∧ namesFrozen s 0 2 x ∧ noneOutstanding s ∧ s.uniqueKeys ∧ x ∈ s.others ∧ x.replay = [] ∧
       x.heldSet = none ∧ x.pair = none ∧ x.frz.qa = none ∧ (s.me.g 1).toNat % 8 = 0 ∧ x.ump = none ∧ s.me.key ≠ x.key ∧
       s.strand x.key = some x ∧ capRight (s.me.caps.getD 0 0) 3 = true ∧ capRight (s.me.caps.getD 0 0) 4 = true ∧
       s.begin.firmwareRoom s.me.key 1 = true ∧ (s.begin.umpire 5).isNone = true ∧
       (s.begin.umpire 0).any (fun r => decide (r.ctx = s.me.ctx) && (giveCap r 1).isSome) = true) ∧
    (let s := { umpSt 0x1F .frozen id with me := (umpSt 0x1F .frozen id).me.setG 1 0x801F000000010001#64 }
     (s.me.g 1).toNat / 2 ^ 16 % 2 ^ 32 ≠ 0 ∧ (s.me.g 1).toNat % 8 ≠ 0) ∧
    (let s := { umpSt 0x1F .frozen id with me := (umpSt 0x1F .frozen id).me.setG 1 0x801F000000000000#64 }
     (s.me.g 1).toNat / 2 ^ 16 % 2 ^ 32 = 0 ∧ (s.me.g 1).toNat / 2 ^ 53 % 2 ^ 10 = 0 ∧ 2 ^ 63 ≤ (s.me.g 1).toNat) ∧
    (let s := umpSt 0x1F .frozen id
     let t := { s with fw := { s.fw with caps := [], capWait := [(0, 5)] } }
     t.begin.firmwareRoom t.me.key 1 = false ∧ (t.me.g 1).toNat < 2 ^ 63 ∧ 2 ^ 63 ≤ (t.me.setG 1 0x801F000000000000#64).lo.getD 1 0) ∧
    (let s := { State.reset with me := { Strand.blank with level := .umpire } }
     canIssue s ∧ s.me.level ≠ .user ∧ (∀ i < 4, capValid (s.me.caps.getD i 0) = false) ∧ s.me.ump = none) ∧
    (let s := { State.reset with uid := 5, me := { Strand.blank with key := 1, sid := 7, run := .ready, level := .umpire, ump := some ⟨0, 1, []⟩ } }
     canIssue s ∧ s.me.run ≠ .empty ∧ s.me.level ≠ .user ∧ (∀ i < 4, capValid (s.me.caps.getD i 0) = false) ∧ s.me.ump.isSome = true ∧
       s.me.key < s.uid ∧ (s.pool (poolOf s.me.core)).pend.isEmpty = true) := by
  refine ⟨⟨rfl, ?_, ⟨⟨?_, ?_, ?_, ?_⟩, ?_, ?_⟩, clear _ ⟨rfl, rfl, rfl, rfl, rfl⟩ rfl, ?_, .head _, ?_, ?_, ?_, ?_, ?_, ?_, ?_, ?_, ?_, ?_, ?_, ?_, ?_⟩,
    ⟨?_, ?_⟩, ⟨?_, ?_, ?_⟩, ⟨?_, ?_, ?_⟩, ⟨rfl, ?_, ?_, rfl⟩, ⟨rfl, ?_, ?_, ?_, rfl, ?_, ?_⟩⟩
  all_goals first | decide +kernel | (unfold State.uniqueKeys; decide +kernel)

/-- A matrix strand that may issue steps of int8 operands. -/
def mxSt (pipe : List MStep) (waits : List Nat) (f : Strand → Strand) : State :=
  { State.reset with
    me := f { Strand.blank with key := 1, run := .ready, mxacc := ownLocal 0, mxcfg := 1, fmta := ownLocal 1024, fmtb := ownLocal 2048 }
    cores := [{ CoreRec.blank 0 with pipe := pipe, mwait := waits }] }

/-- A step of strand 1. -/
def step1 (k : MKind) : MStep := { freshStep (mxSt [] [] id).me 9 k 0 with regA := List.replicate 64 0, regB := List.replicate 64 0 }

theorem wit_MatrixSteps :
    (let s := mxSt [] [] id
     canIssue s ∧ (s.core s.me.core).pipe.length < 3 ∧ (waiters s.begin s.me.core).head? = none ∧
       mmasCause s.begin s.begin.me (.regs 0) (.regs 8) 0 false false false = none ∧ (accBase s.me 0).isSome = true ∧
       (tableOk s.me.fmta && tableOk s.me.fmtb) = true) ∧
    (let s := mxSt [step1 .mmas, step1 .mmas, step1 .mmas] [] id
     ¬(s.core s.me.core).pipe.length < 3) ∧
    (mmasCause (mxSt [] [] id).begin (mxSt [] [] id).begin.me (.regs 0) (.regs 8) 0 false false true).isSome = true ∧
    (accBase (mxSt [] [] fun o => { o with mxacc := 0 }).me 0).isNone = true ∧ tableOk 0 = false ∧
    (let s := mxSt [step1 .mmas] [] id
     let m := step1 .mmas
     (s.core 0).pipe = m :: [] ∧ (reenter s 0).isNone = true ∧ m.started = false ∧ m.kind = .mmas ∧ m.fwdA = false ∧
       m.opA.length < mVecs m.cfg * 8 ∧ (s.strand m.key).isSome = true ∧ m.qa = .regs 0) ∧
    (let m := { step1 .mmas with opA := List.replicate (mVecs (step1 .mmas).cfg * 8) 0, qb := .que 1 }
     let s := mxSt [m] [] fun o => { o with qin := o.qin.set 1 (List.replicate 8 5) }
     (reenter s 0).isNone = true ∧ m.fwdB = false ∧ mVecs m.cfg * 8 ≤ m.opA.length ∧ m.opB.length < mVecs m.cfg * 8 ∧
       popsEcho s.me 1 = false ∧ 8 ≤ (inWords s.me 1).length) ∧
    (staged (step1 .mzero) = true ∧
      staged { step1 .mmas with opA := List.replicate (mVecs (step1 .mmas).cfg * 8) 0, opB := List.replicate (mVecs (step1 .mmas).cfg * 8) 0 } = true) ∧
    (let m := { step1 .mzero with started := true, result := List.replicate 1024 0 }
     let s := mxSt [m] [] fun o => { o with run := .parked, park := .matrix 9 }
     m.started = true ∧ m.poison = none ∧ s.memWf ∧ m.result.length = 1024 ∧ (s.strand m.key).isSome = true ∧ s.me.park = .matrix m.uid ∧
       s.me.run = .parked ∧ retirable s m = true) ∧
    (let m := { step1 .mmas with started := true, poison := some 0x40 }
     let s := mxSt [m] [] fun o => { o with run := .parked, park := .matrix 9 }
     m.poison = some 0x40 ∧ (s.strand m.key).isSome = true ∧ s.me.gang = none ∧ s.me.pair = none ∧ s.me.attached = false) ∧
    retirable (mxSt [] [] id) (step1 .mmas) = false ∧
    (let m := step1 .mzero
     let s := { mxSt [m] [] (fun o => { o with run := .parked, park := .matrix 9 }) with
                undo := [⟨1, Strand.blank, Strand.blank, .anop, true⟩] }
     m.started = false ∧ staged m = true ∧ s.uniqueKeys ∧ s.me.run = .parked ∧ s.me.gang = none ∧ s.me.pair = none ∧
       s.undo.find? (fun p => decide (p.key = m.key) && p.held) = some ⟨1, Strand.blank, Strand.blank, .anop, true⟩) ∧
    (let m := { step1 .mzero with started := true }
     ∀ p ∈ (mxSt [m] [] id).undo, p.key ∈ stepMates (mxSt [m] [] id) m.key → p.held = false) := by
  refine ⟨⟨rfl, ?_, rfl, ?_, ?_, ?_⟩, ?_, ?_, ?_, ?_, ⟨rfl, ?_, rfl, rfl, rfl, ?_, ?_, rfl⟩, ⟨?_, rfl, ?_, ?_, ?_, ?_⟩, ⟨?_, ?_⟩,
    ⟨rfl, rfl, rfl, ?_, ?_, rfl, rfl, ?_⟩, ⟨rfl, ?_, rfl, rfl, rfl⟩, rfl, ⟨rfl, ?_, ?_, rfl, rfl, rfl, ?_⟩, ?_⟩
  all_goals first | decide +kernel | (unfold State.uniqueKeys; decide +kernel)

/-- A machine whose granule 1 is an update object held by clusters 0 and 1, with one partial collected. -/
def cohSt (c : Coh) : State :=
  { State.reset with homes := { State.reset.homes with
      coh := [(.gran 1, c)], lines := [⟨0, 4, 1, 0, false, []⟩, ⟨0, 5, 1, 1, false, []⟩],
      parts := [⟨.gran 1, 0, 256, 5, false, false⟩], collected := [⟨.gran 1, 1, 256, 7, false, false⟩] } }

theorem wit_ObjectStatesMergesAndEvictions :
    (let s := cohSt (.u 0 [0, 1])
     s.keyAt 256 = .gran 1 ∧ s.coh (.gran 1) = .u 0 [0, 1] ∧ [0, 1].contains 0 = true ∧ s.memWf ∧
       s.homes.collected.filter (fun p => decide (p.key = .gran 1)) = [⟨.gran 1, 1, 256, 7, false, false⟩]) ∧
    ((cohSt (.s [0])).coh (.gran 1) = .s [0] ∧ (cohSt (.o 3)).coh (.gran 1) = .o 3 ∧ (cohSt .i).coh (.gran 1) = .i ∧
      ((cohSt .i).homes.lines.any fun l => decide (l.cluster = 0) && decide (l.line = 256 / 64)) = true) := by
  refine ⟨⟨?_, ?_, ?_, rfl, ?_⟩, ?_, ?_, ?_, ?_⟩ <;> decide +kernel

/-- A strand of context 0 on core 0 that names plain memory at 256 in g1, its granule in a state. -/
def plainSt (c : Coh) (f : Strand → Strand) : State :=
  { cohSt c with me := f ({ Strand.blank with run := .ready, level := .firmware }.setG 1 256) }

theorem wit_ObjectStatesAndInstructions :
    (let s := plainSt (.s [0]) id
     canIssue s ∧ check s.begin s.begin.me Acc.atomic 4 0 (s.me.g 1) = .ok (.mem 256) .plain (some 256) ∧ s.homes.posted = [] ∧
       s.begin.away { lane := 0, va := s.me.g 1, loc := .mem 256, rg := .plain, pa := some 256 } = false ∧ s.begin.linePosted (.mem 256) = false ∧
       s.begin.partiesHeld { lane := 0, va := s.me.g 1, loc := .mem 256, rg := .plain, pa := some 256 } .atomic = false ∧ noneOutstanding s ∧
       (s.rqueue 256).q = [] ∧ s.heldBy s.me.key < 4 ∧ s.keyAt 256 = .gran 1 ∧ s.coh (.gran 1) = .s [0] ∧
       (s.poisonIn (.mem 256) 4).isNone = true) ∧
    (let s := plainSt (.o (cacheOf 0)) id
     uLocked s.begin 0 256 = false ∧ s.begin.linePosted (.mem 256) = false ∧ s.coh (s.keyAt 256) = .o (cacheOf s.me.core) ∧ s.memWf ∧
       check s.begin s.begin.me Acc.update (uBytes 0) 0 (s.me.g 1) = .ok (.mem 256) .plain (some 256) ∧
       check s.begin s.begin.me Acc.update 64 0 (s.me.g 1) = .ok (.mem 256) .plain (some 256)) := by
  refine ⟨⟨rfl, ?_, rfl, ?_, ?_, ?_, clear _ ⟨rfl, rfl, rfl, rfl, rfl⟩ rfl, rfl, ?_, ?_, ?_, ?_⟩, ?_, ?_, ?_, rfl, ?_, ?_⟩ <;> decide +kernel

theorem wit_VersionsArePublishedAndMoved :
    (let v := { ver1 with st := .completed, num := 2 }
     let s := withVer v id
     s.ver 1 = some v ∧ v.num = (s.nameRec v.space v.name).latest + 1 ∧ v.doomed = false ∧ s.pubOpen v.space v.name = true) ∧
    (let v := { ver1 with refs := 0 }
     let s := { withVer v id with tick := 2 ^ 20, fw := { State.reset.fw with fkinds := [(0, .tile), (64, .tile), (128, .tile), (192, .tile)] },
                                   homes := { (withVer v id).homes with rackAge := (List.range 144).map fun i => (i, 1) } }
     s.ver 1 = some v ∧ rackDue s v = true ∧ (s.takeRack (s.verDie v) v.cls).isSome = true) ∧
    (rackDue (withVer ver1 id) ver1 = false ∧ (withVer ver1 id).ver 1 = some ver1) ∧
    (let v := { ver1 with st := .racking, hbm := [0] }
     (withVer v id).ver 1 = some v) ∧
    (let v := { ver1 with st := .floating, frames := [], hbm := [0] }
     let s := withVer v id
     s.ver 1 = some v ∧ (s.takeTile (s.nameSlice v.space v.name) v.cls).isSome = true) := by
  refine ⟨⟨rfl, ?_, rfl, ?_⟩, ⟨rfl, ?_, ?_⟩, ⟨?_, rfl⟩, rfl, rfl, ?_⟩ <;> decide +kernel

/-- A strand of core 0 that faces one of core 1 (east), with a word and a message for it. -/
def meshSt (n : Nat) (f g : Strand → Strand) : State :=
  { State.reset with
    me := f { Strand.blank with key := 1, run := .ready, qout := Strand.blank.qout.set 1 [5], q6 := [(8, 6)] }
    others := [g { peer 2 8 with qin := Strand.blank.qin.set 3 (List.replicate n 0), q7 := List.replicate (2 * n) 0 }] }

theorem wit_WordsNoticesAndMessagesArrive :
    (∀ n ∈ [15, 16], let s := meshSt n id id
     (s.strand 1).isSome = true ∧ s.uniqueKeys ∧ s.me.qout.getD 1 [] = [5] ∧ s.me.q6 = [(8, 6)] ∧
       ((facing 0 1).bind fun c => s.slotStrand (c * 8 + slotOf 0) 0).map (·.key) = some 2 ∧
       (s.slotStrand 8 0).map (·.key) = some 2 ∧ defersInbox (s.others.headD Strand.blank) = false ∧ s.meshOpen 0 1 = true ∧
       noticeOpen s 1 5 = true ∧ s.homes.notices = [] ∧ defersInbox s.me = false) ∧
    ((facing 0 1).bind fun c => State.reset.slotStrand (c * 8 + slotOf 0) 0).isNone = true ∧
    (noticeDue { peer 1 0 with nhmask := 0x801F, q8 := [1], nhvec := 0x40 } = true ∧ noticeDue (peer 1 0) = false) ∧
    (let s := { standing false with me := { (standing false).me with nhmask := 0x8010, q10 := [0] } }
     gangNoticeDue s s.me = true ∧ (s.gangOf s.me).any (fun g => decide g.members.Nodup) = true) ∧
    gangNoticeDue (standing false) (standing false).me = false := by
  refine ⟨fun n h => ?_, ?_, ⟨?_, ?_⟩, ⟨?_, ?_⟩, ?_⟩
  · fin_cases h <;> refine ⟨?_, ?_, ?_, ?_, ?_, ?_, ?_, ?_, ?_, ?_, ?_⟩ <;> first | decide +kernel | (unfold State.uniqueKeys; decide +kernel)
  all_goals decide +kernel

/-- One parked strand and what it may wait for at the homes. -/
def waitSt (f : Strand → Strand) (h : Homes → Homes) : State :=
  { State.reset with
    me := f { Strand.blank with key := 1, run := .parked, park := .poll, launch := some 4 }
    homes := h State.reset.homes }

theorem wit_AnswersReachParkedStrands :
    (let s := waitSt id id
     (s.strand 1).isSome = true ∧ s.uniqueKeys ∧ s.me.run = .parked ∧ s.me.park = .poll ∧ s.me.out = false ∧ s.me.query = none) ∧
    (let s := waitSt id fun h => { h with resv := [⟨64, [⟨1, false, false, none⟩], false⟩], resend := [(1, 0, 3)],
                                          arrive := (List.range 2048).map fun i => ⟨0, i + 2, 0, 1⟩ }
     handDue s (s.rqueue 64) = some ⟨1, false, false, none⟩ ∧ (s.rqueue 64).q = [⟨1, false, false, none⟩] ∧ paExists 64 = true ∧
       s.homes.resend.find? (fun r => decide (r.1 = 1) && decide (r.2.1 = 0)) = some (1, 0, 3) ∧ (s.arrive 0 1 3).isNone = true ∧
       ((waitSt id id).arrive 0 1 3).isSome = true) ∧
    (let s := waitSt id fun h => { h with resv := [⟨64, [⟨1, false, true, none⟩], false⟩] }
     (handDue s (s.rqueue 64)).isNone = true ∧ (s.rqueue 64).q = [⟨1, false, true, none⟩]) ∧
    (let s := waitSt (fun o => { o with query := some ⟨false, false⟩ }) id
     s.me.query = some ⟨false, false⟩ ∧ queryHolds s s.me false = true) ∧
    (pairSt.crew 9).isSome = true ∧ ((launchSt 1).launch 1).isSome = true ∧
    (let w : WFrame := ⟨7, 0, 1, 4, Vector.replicate 8 0, [.zero 8], true, 0⟩
     let s := waitSt (fun o => { o with dqbase := ownLocal 0 }) fun h => { h with wframes := [w] }
     s.homes.wframes.find? (fun w => decide (w.uid = 7)) = some w ∧ (frameTarget (s.floatConds w.conds) w).map (·.key) = some 1 ∧
       ((s.floatConds w.conds).pushFrame s.me w.frame w.launch).isSome = true) ∧
    (let w : WFrame := ⟨7, 0, 1, 4, Vector.replicate 8 0, [.counter 8 1], false, 0⟩
     w.fired = false ∧ w.conds.all (condHolds (waitSt id id)) = false) ∧
    (let w : WFrame := ⟨7, 0, 1, 4, Vector.replicate 8 0, [.zero 8], true, 0⟩
     let s := { waitSt (fun o => { o with dqbase := ownLocal 0 }) (fun h => { h with wframes := [w] }) with mem := [(lkey 0 8, 1)] }
     (frameTarget (s.floatConds w.conds) w).map (·.key) = some 1 ∧ ((s.floatConds w.conds).pushFrame s.me w.frame w.launch).isNone = true) ∧
    (let s := dq [(lkey 0 8, 1)] 0 fun o => { o with run := .parked, park := .steal }
     s.me.park = .steal ∧ s.me.pair = none ∧ dequeOf s.me = some (lkey 0 0, 0) ∧ ((s.focus s.me.key).popFrame (lkey 0 0) 0).1.isSome = true ∧
       (s.focus s.me.key).popPoison (lkey 0 0) 0 = none) ∧
    (let s := waitSt (fun o => { o with park := .steal, dqbase := 0x1000, launch := none }) id
     dequeOf s.me = none ∧ (s.focus 1).stealAny (s.me.launch.getD 0) = none) ∧
    (let s := mxSt [step1 .mmas] [] fun o => { o with run := .parked, park := .matrix 9 }
     (step1 .mmas).key = s.me.key ∧ s.me.park = .matrix (step1 .mmas).uid ∧ (reenter s 0).isNone = true ∧ s.uniqueKeys ∧ s.undo = []) ∧
    (let s := mxSt [] [] id
     canIssue s ∧ (s.core s.me.core).pipe.length < 3 ∧ waiters s.begin s.me.core = []) := by
  have hc : launchCores ((waitSt (fun o => { o with park := .steal, dqbase := 0x1000, launch := none }) id).focus 1) 0 = [] := by decide +kernel
  refine ⟨⟨?_, ?_, rfl, rfl, rfl, rfl⟩, ⟨?_, ?_, ?_, ?_, ?_, ?_⟩, ⟨?_, ?_⟩, ⟨rfl, ?_⟩, ?_, ?_, ⟨?_, ?_, ?_⟩, ⟨rfl, ?_⟩, ⟨?_, ?_⟩, ⟨rfl, rfl, ?_, ?_, ?_⟩,
    ⟨?_, by simp only [State.stealAny, State.stealOrder, Option.getD]; erw [hc]; simp [stealFrom]⟩, ⟨rfl, rfl, ?_, ?_, rfl⟩, ⟨rfl, ?_, rfl⟩⟩
  all_goals first | decide +kernel | (unfold State.uniqueKeys; decide +kernel)

theorem wit_WindowsFetchLinesGangsAndUmpires :
    (let o := { peer 1 0 with older := List.replicate 4 (Vector.replicate 8 0), wsp := ownLocal 0, wlim := ownLocal 4096 }
     let s := { State.reset with me := o }
     s.strand 1 = some o ∧ s.uniqueKeys ∧ canSpill o = true ∧ groupAt o.wsp = some 0 ∧ o.older.getLast?.isSome = true ∧ o.pair = none ∧ s.memWf) ∧
    (let o := { peer 1 0 with older := List.replicate 4 (Vector.replicate 8 0), wsp := 0x1000, wlim := 0x2000 }
     canSpill o = true ∧ groupAt o.wsp = none) ∧
    (let o := { peer 1 0 with spilled := 1, wsp := ownLocal 64, wlim := ownLocal 4096 }
     canRefill o = true ∧ groupAt (o.wsp - 64) = some 0 ∧ State.reset.framePoison true (lkey o.core 0) = none) ∧
    (let o := { peer 1 0 with spilled := 1, wsp := 0x1000 }
     canRefill o = true ∧ groupAt (o.wsp - 64) = none) ∧
    (let s := standing false
     (s.gangOf s.me).any (fun g => decide (g.members.head? = some s.me.key)) = true ∧ State.reset.me.gang = none ∧ (peer 1 0).run ≠ .empty) ∧
    (let o := { peer 1 0 with run := .frozen, ctx := 3 }
     let x := { ctx3 with umpvec := Vector.replicate 32 0x4000 }
     let s := { State.reset with me := o, fw := { State.reset.fw with ctxs := [x] } }
     s.strand 1 = some o ∧ o.isFrozen = true ∧ o.level = .user ∧ o.ump = none ∧ s.ctxOf 3 = some x ∧ (s.pool (poolOf o.core)).used.length < 32) ∧
    (let o := { peer 1 0 with run := .frozenPending, ctx := 3 }
     let s := { State.reset with me := o, fw := { State.reset.fw with ctxs := [ctx3] }, pools := [⟨0, [], [1]⟩] }
     ctx3.umpvec.getD 0 0 = 0 ∧ (s.pool (poolOf o.core)).pend.contains 1 = true) ∧
    (State.reset.pool 0).pend.contains 1 = false ∧ ∀ x ∈ State.reset.strands, x.gangReq.isSome = true → x.pair = none := by
  refine ⟨⟨rfl, ?_, ?_, ?_, ?_, rfl, rfl⟩, ⟨?_, ?_⟩, ⟨?_, ?_, ?_⟩, ⟨?_, ?_⟩, ⟨?_, rfl, ?_⟩, ⟨rfl, rfl, rfl, rfl, rfl, ?_⟩, ⟨?_, ?_⟩, ?_, ?_⟩
  all_goals first | decide +kernel | (unfold State.uniqueKeys; decide +kernel)

/-- A tile command of strand 1 at engine 0, its word built from fields at bit positions. -/
def tcmd (st : CmdSt) (fields : List (Nat × Nat)) : Cmd :=
  { uid := 5, key := 1, level := .user, ctx := 0, launch := none, file := none,
    word := BitVec.ofNat 256 (fields.foldl (fun n p => n + p.1 * 2 ^ p.2) 0), engine := 0, st := st, refs := [], pos := 0, status := 0, aux := 0,
    merged := [], holdEnd := 0, panel := [], src := [], pins := [], dst := [], pieces := [], due := [], signalled := false, told := false }

/-- Two shape records of one byte each in plain memory: of 0x2000 at 0x1000, and of 0x12000 at 0x1100. -/
def shapes : List Host.Cell :=
  [(0x1001, 0x20), (0x1008, 1), (0x1010, 1), (0x1101, 0x20), (0x1102, 1), (0x1108, 1), (0x1110, 1)]

/-- A driver command, for states that need one. -/
def rasQ : CmdRec := { mbx := 0, seq := 1, ctx := 0, p := Vector.replicate 12 0 }

/-- A machine with a command and the two shapes. -/
def cmdSt (c : Cmd) (f : State → State) : State := f { State.reset with me := peer 1 0, mem := shapes, cmds := [c] }

/-- A resolved copy of a line of 0x2000 to 0x4000, and one that waits since its source's frame is moved. -/
def resolved1 : Cmd := { tcmd .resolved [(2, 248)] with src := [[.mem 0x2000]], dst := [[.mem 0x4000]] }

theorem wit_EnginesRunCommands :
    (let s := cmdSt (tcmd .accepted [(2, 248)]) id
     (s.cmd 5).isSome = true ∧ (nextCmd s 0).map (·.uid) = some 5) ∧
    (nextCmd (cmdSt (tcmd .held [(2, 248)]) id) 0).map (·.uid) ≠ some 5 ∧
    (let c := tcmd .finished [(2, 248)]
     c.st = .finished ∧ c.told = false ∧ c.signalled = false ∧ c.refs = [] ∧ c.status = 0 ∧ cCw c.word.toNat = false) ∧
    (let c := tcmd .started [(2, 248), (0x1000, 80), (0x1100, 16)]
     let s := cmdSt c id
     (match readShape s c (cShapeA c.word.toNat) with
       | .ok (a, s1) => (match readShape s1 c (cShapeB c.word.toNat) with
         | .ok (b, s2) => decide (a.fmt = b.fmt) && decide (a.count = b.count) &&
           (match placeShape s2 c false a, placeShape s2 c true b with
             | .ok _, .ok _ => true
             | _, _ => false)
         | _ => false)
       | _ => false) = true) ∧
    (let c := tcmd .started [(3, 248), (1, 80)]
     (match readShape (cmdSt c id) c (cShapeA c.word.toNat) with
       | .bad e _ => decide (e = 2)
       | _ => false) = true) ∧
    (let c := tcmd .started [(2, 248), (0x1000, 80), (0x1100, 16)]
     (match readShape (cmdSt c fun s => { s with fw := { s.fw with migrate := [(0, 1, rasQ)] } }) c (cShapeA c.word.toNat) with
       | .wait => true
       | _ => false) = true) ∧
    (let c := tcmd .started [(5, 248), (7, 112), (2, 80)]
     let s := cmdSt c fun s => { s with homes := { s.homes with names := [name7], vers := [{ ver1 with num := 2, st := .drafted }] } }
     (s.versOf (s.spaceOf c.ctx (cName c.word.toNat)) (cName c.word.toNat)).find? (fun v => decide (v.num = cVer c.word.toNat) && decide (v.st = .drafted)) =
       some { ver1 with num := 2, st := .drafted } ∧ s.ver 1 = some { ver1 with num := 2, st := .drafted } ∧ c.word.toNat.testBit 240 = false ∧ (ver1.count = none)) ∧
    (let c := tcmd .started [(6, 248)]
     let s := cmdSt c id
     (s.slotStrand (c.word.toNat / 2 ^ 132 % 2 ^ 12 * 8 + c.word.toNat / 2 ^ 129 % 2 ^ 3) c.ctx).isSome = true ∧
       (s.slotStrand (1 * 8) c.ctx).isNone = true) ∧
    (let c := tcmd .started [(7, 248), (7, 112)]
     let s := cmdSt c fun s => { s with homes := { s.homes with names := [name7], vers := [ver1] } }
     movedVer s c = some ver1 ∧ s.ver ver1.uid = some ver1 ∧ cOp c.word.toNat = 7 ∧ ver1.st = .afloat ∧
       earlierMove (s.updCmd 5 fun c => { c with st := .running, pos := 1 }) { c with st := .running, pos := 1 } = false ∧
       (movedVer (cmdSt c id) c).isNone = true) ∧
    (let c := tcmd .started [(4, 248)]
     (collRanks (cmdSt c id) (rGroup c)).contains (ownRank (cmdSt c id) c.ctx) = false) ∧
    (let c := { tcmd .running [(1, 248), (1, 62), (64, 64)] with file := some (.crew 9), panel := [List.replicate 8 (0, none)] }
     let s := { pairSt with cmds := [c], me := { pairSt.me with crewpos := 0, run := .ready, sid := 0 } }
     (crewReps s c).map (·.uid) = [5] ∧ canRead s c = false ∧ (match fetchStep s c c with | .put o q _ => decide (o.key = 1 ∧ q = 0) | _ => false) = true) ∧
    (let c := tcmd .running [(2, 248)]
     let p : Piece := ⟨0, false, [.mem 0x2000], [5]⟩
     let q : Piece := ⟨0, true, [.tile 9 0], [5]⟩
     let s := cmdSt { c with pieces := [p] } id
     c.pieces = [] ∧ (placeFirst s [p]).isSome = true ∧ p.dst.any (draftGone s) = false ∧ placeFirst s [{ p with placed := true }] = none ∧
       pieceDue s { p with placed := true } = true ∧ q.dst.any (draftGone s) = true ∧
       pieceDue { s with fw := { s.fw with migrate := [(0, 1, rasQ)] } } { p with placed := true } = false) ∧
    (let c := { tcmd .running [(1, 248)] with src := [(List.range 64).map fun i => .mem (0x2000 + i)] }
     canRead (cmdSt c id) c = true) ∧
    (let c := { tcmd .running [(4, 248)] with panel := [[(0, none)]], dst := [[.mem 0x2000]] }
     let s := cmdSt c id
     c.pos < c.panel.length ∧ reach s (otherRanks s c) = .up ∧ chunkWaits s c = false ∧ c.dst.flatten.any (draftGone s) = false ∧
       cOp c.word.toNat = 4 ∧ chunkWaits { s with fw := { s.fw with migrate := [(0, 1, rasQ)] } } c = true ∧
       ([Loc.tile 9 0].any (draftGone s)) = true) ∧
    (let c := { tcmd .running [(4, 248)] with panel := [[(0, none)]] }
     let s := cmdSt c fun s => { s with fw := { s.fw with colls := [(0, 3)] } }
     reach s (otherRanks s c) = .down) ∧
    (resolved1.dst.flatten.any (draftGone (cmdSt resolved1 id)) = false ∧ resolvedWaits (cmdSt resolved1 id) resolved1 = false ∧
      (∀ l ∈ resolved1.src, l.any (cmdSt resolved1 id).poisonedAt = false) ∧
      resolvedWaits (cmdSt resolved1 fun s => { s with fw := { s.fw with migrate := [(0, 1, rasQ)] } }) resolved1 = true ∧
      (∃ l ∈ resolved1.src, l.any (cmdSt resolved1 fun s => { s with poison := [granule (.mem 0x2000)] }).poisonedAt = true) ∧
      ([[Loc.tile 9 0]].flatten.any (draftGone (cmdSt resolved1 id))) = true) ∧
    (let c := tcmd .finished [(2, 248), (1, 240)]
     let s := cmdSt c id
     c.told = false ∧ signalDue s c = true ∧ wordOpen s c c.key = true ∧ (s.deliver c.key 5 (completionWord c) 0).1 = true) := by
  refine ⟨⟨?_, ?_⟩, ?_, ⟨rfl, rfl, rfl, rfl, rfl, ?_⟩, ?_, ?_, ?_, ⟨?_, ?_, ?_, rfl⟩, ⟨?_, ?_⟩, ⟨?_, ?_, ?_, rfl, ?_, ?_⟩, ?_, ⟨?_, ?_, ?_⟩,
    ⟨rfl, ?_, ?_, ?_, ?_, ?_, ?_⟩, ?_, ⟨?_, ?_, ?_, ?_, ?_, ?_, ?_⟩, ?_, ⟨?_, ?_, ?_, ?_, ?_, ?_⟩, ⟨rfl, ?_, ?_, ?_⟩⟩
  all_goals decide +kernel

/-- A launch of one crew of one strand, accepted. -/
def launch1 : Launch := ((launchSt 1).sched.launches.headD
  { uid := 0, ctx := 0, queue := 0, rcd := rcd1, st := .accepted, waitHeld := true, accepted := 0, ready := none, effClass := 0, issuer := none,
    start := none, sq := Vector.replicate 256 0, home := 0, disc := 0, killed := false, partner := none, copyB := false, hash := 0 })

/-- A machine with one launch. -/
def schedSt (l : Launch) (f : State → State) : State :=
  f { State.reset with
      fw := { State.reset.fw with ctxs := [ctx3] }, sched := { State.reset.sched with launches := [l] } }

theorem wit_DispatcherSwapsAndLending :
    (let y : LQueue := { id := 0, maxClass := 7, ring := some (0, 2), cons := 0, replayWin := 0, replayLeft := 0, hashA := 0, hashB := 0 }
     let x := { ctx3 with queues := [y] }
     let s := { State.reset with
       mem := (rcd1.toList.zipIdx.flatMap fun p => (List.range 8).map fun j =>
         (ckey (64 + 8 * p.2 + j), if p.2 = 15 ∧ j = 7 then 0x80 else BitVec.ofNat 8 (p.1.toNat / 256 ^ j))).filter fun c => c.2 ≠ 0
       fw := { State.reset.fw with ctxs := [x] } }
     s.ctxOf 3 = some x ∧ s.queueOf 3 0 = some y ∧ y.ring = some (0, 2) ∧ sealDue s x y = true ∧
       (let r0 := recordOf (s.bytes (.mem (ringSlot 0 2 y.cons)) 128)
        let seen := r0.setIfInBounds 15 (BitVec.ofNat 64 (r0.getD 15 0).toNat &&& 0x7EFFFFFFFFFFFFFF)
        refuseReason ((s.advanceRing 3 y 0).noteWalks 3 seen) 3 (some 0) seen = none) ∧
       sealDue { s with mem := [] } x y = false) ∧
    (let s := schedSt launch1 id
     s.launch 1 = some launch1 ∧ launch1.st = .accepted ∧ rClass launch1.rcd < 7 ∧ launchWait s launch1 = true ∧ launch1.waitHeld = true) ∧
    (let l := { launch1 with waitHeld := false }
     let s := schedSt l id
     s.launch 1 = some l ∧ l.st = .accepted ∧ l.waitHeld = false ∧ l.met = false ∧ launchWait s l = true) ∧
    (let w := { launch1 with waitHeld := false, rcd := rcd1.set 8 0x1000000000000000 }
     let m := { w with met := true }
     (schedSt m id).launch 1 = some m ∧ m.met = true ∧ launchWait (schedSt m id) m = false ∧
       (schedSt w id).launch 1 = some w ∧ w.waitHeld = false ∧ w.met = false ∧ launchWait (schedSt w id) w = false) ∧
    (let s := schedSt launch1 id
     (match s.tryPlace launch1 with | .placed _ => true | _ => false) = true ∧
       (completionHeld s launch1.ctx launch1.rcd || (seedAddrs launch1).any (userHeld s launch1.ctx)) = false) ∧
    (let l := { launch1 with rcd := rcd1.set 5 (BitVec.ofNat 64 (2 ^ 48 + 2 ^ 32 + 2 ^ 24 + 25 * 2 ^ 16 + 0xFFFF)) }
     let s := schedSt l id
     (match s.tryPlace l with | .no => true | _ => false) = true ∧ unplaceable s l = true ∧
       (completionHeld s l.ctx l.rcd || (seedAddrs l).any (userHeld s l.ctx)) = false) ∧
    rClass launch1.rcd < 6 ∧
    (let s := schedSt launch1 fun s => { s with tick := 360000 }
     (readyRecords s) = [launch1] ∧ launch1.ready.getD s.tick ≤ s.tick) ∧
    (let s := schedSt launch1 fun s => { s with tick := 360000 }
     (readyRecords s).map (·.uid) = [1] ∧ s.sched.rsv = none ∧ rSlots launch1.rcd ≠ 0 ∧ (emptyFit s { launch1 with ready := some 0 }).isSome = true) ∧
    (let s := { State.reset with cores := [{ CoreRec.blank 4 with zeroing := some 0, clean := false }] }
     (s.core 4).zeroing = some 0 ∧ 0 ≤ s.tick ∧ s.memWf ∧ (s.core 5).zeroing = none ∧ (s.core 5).wback = none) ∧
    (({ State.reset with cores := [{ CoreRec.blank 4 with wback := some 1 }] }).core 4).wback.isSome = true ∧
    (let s := { State.reset with me := peer 1 0 }
     (s.strand 1).isSome = true ∧ s.uniqueKeys ∧ s.gangOf s.me = none ∧ s.me.pair = none ∧ (s.core s.me.core).pipe = [] ∧ swappable s s.me = true ∧
       swapsFit s [1] 0 = true ∧ restorable s s.me = false ∧ s.me.yields = false ∧
       slotWanted (s.upd 1 fun o => { o with yields := false }) { s.me with yields := false } = false) ∧
    (let s := { State.reset with me := { peer 1 0 with out := true }, cores := [{ CoreRec.blank 0 with owner := some 0 }] }
     swappable s s.me = false ∧ restorable s s.me = true ∧ restoreSlot s s.me = some 0 ∧ s.me.badEntry = false) ∧
    (let l := { launch1 with st := .placed }
     let s := schedSt l id
     endDue s l = true ∧ l.partner = none ∧ endDue (schedSt launch1 id) launch1 = false) ∧
    (let s := { State.reset with me := { peer 1 7 with borrower := true } }
     (s.strands.find? (fun o => o.borrower && !o.out && decide (o.sid = 0 * 8 + 7) && !decide (o.run = .empty))).isSome = true) ∧
    (let s := { State.reset with tick := 2000, me := { peer 1 1 with borrower := true, out := true }, cores := [{ CoreRec.blank 0 with lendOn := true, owner := some 0 }] }
     lendable s 0 = true ∧ (waitingBorrower s 0).isSome = true ∧ s.uniqueKeys) ∧
    (let l := { launch1 with st := .placed, rcd := rcd1.set 7 0x400050000 }
     let s := { schedSt l id with
       tick := 2000, cores := [{ CoreRec.blank 0 with lendOn := true, owner := some 3 }], mem := [(lkey 0 8, 1)],
       me := { peer 1 1 with launch := some 1, ctx := 3, dqbase := ownLocal 0 } }
     lendable s 0 = true ∧ (waitingBorrower s 0).isNone = true ∧ (lendLaunch s 0).isSome = true) ∧
    lendable State.reset 0 = false := by
  refine ⟨⟨rfl, rfl, rfl, ?_, ?_, ?_⟩, ⟨rfl, rfl, ?_, ?_, rfl⟩, ⟨rfl, rfl, rfl, rfl, ?_⟩, ⟨rfl, rfl, ?_, rfl, rfl, rfl, ?_⟩, ⟨?_, ?_⟩, ⟨?_, ?_, ?_⟩, ?_, ⟨?_, ?_⟩, ⟨?_, rfl, ?_, ?_⟩,
    ⟨rfl, ?_, rfl, rfl, rfl⟩, rfl,
    ⟨rfl, ?_, rfl, rfl, rfl, ?_, ?_, ?_, rfl, ?_⟩, ⟨?_, ?_, ?_, rfl⟩, ⟨?_, rfl, ?_⟩, ?_, ⟨?_, ?_, ?_⟩, ⟨?_, ?_, ?_⟩, ?_⟩
  all_goals first | decide +kernel | (unfold State.uniqueKeys; decide +kernel)

/-- A machine with one link changed. -/
def linkSt (l : Nat) (f : Link → Link) : State := State.reset.setLink l f

theorem wit_LinksAndTheirService :
    (∀ n ∈ [0, 1, 2, 3, 4, 5, 6], ((linkSt 96 fun x => { x with st := BitVec.ofNat 4 n }).link 96).st.toNat = n ∧ (96 : Nat) < 112) ∧
    ((linkSt 113 id).link 113).stuck = 0 ∧
    (let s := linkSt 96 fun x => { x with st := 4, serving := 1 }
     (s.link 96).serving = 1 ∧ (s.link 96).st = 4 ∧ (chooseLanes 96 (s.link 96)).isSome = true ∧
       (chooseLanes 96 { s.link 96 with bad := 0xFFFFFFFFFFFFFFFF }).isNone = true) ∧
    (serveDue (State.reset.link 0) = false ∧ startDue State.reset 0 = none ∧ alertDue State.reset 0 = false) ∧
    (let s := linkSt 0 fun x => { x with st := 2, win := 0xFFFF }
     serveDue (s.link 0) = false ∧ startDue s 0 = none ∧ alertDue s 0 = true) ∧
    (let c : CmdRec := { mbx := 0, seq := 1, ctx := 0, p := (Vector.replicate 12 0).set 1 1 }
     let s := { linkSt 0 fun x => { x with st := 2 } with fw := { State.reset.fw with long := [(0x17, c)] } }
     serveDue (s.link 0) = false ∧ startDue s 0 = some c ∧ serviceOf c = 1 ∧ (s.link 0).st = 2) ∧
    (let s := linkSt 96 fun x => { x with st := 3 }
     (s.link 96).st = 3 ∧ (s.link 96).stuck = 0) ∧
    ((groupCtx State.reset 5).isNone = true ∧ portUp State.reset 3 = false) ∧
    (let c := { ctx3 with group := some (5, 2, 1) }
     let s := { State.reset with me := { peer 1 0 with ctx := 3 }, fw := { State.reset.fw with ctxs := [c] } }
     let d := 5 * 2 ^ 16
     groupCtx s (d / 2 ^ 16 % 2 ^ 12) = some c ∧ ownRank s c.id = 1 ∧ d / 2 ^ 28 % 8 = 0 ∧ (s.slotStrand (d % 2 ^ 15) c.id).map (·.key) = some 1 ∧
       s.uniqueKeys ∧ defersInbox s.me = false ∧ s.me.inbox = [] ∧ s.me.q7.length < 32 ∧ s.fw.ports = [] ∧
       (let v := { s with fw := { s.fw with ports := [(1, BitVec.ofNat 64 d, 9)] } }
        ((1, BitVec.ofNat 64 d, 8) : BitVec 16 × Word × Word) ∉ v.fw.ports ∧
          ∃ p ∈ v.fw.ports, p.1 = (1 : BitVec 16) ∧ p.2.1 = BitVec.ofNat 64 d)) ∧
    ((edgeOf 0 1).isSome = true ∧ (State.reset.link 0).st ≠ 0) := by
  refine ⟨fun n h => ?_, ?_, ⟨?_, ?_, ?_, ?_⟩, ⟨?_, ?_, ?_⟩, ⟨?_, ?_, ?_⟩, ⟨?_, ?_, ?_, ?_⟩, ⟨?_, ?_⟩, ⟨?_, ?_⟩, ⟨?_, ?_, ?_, ?_, ?_, ?_, rfl, ?_, rfl, ?_, ?_⟩, ?_, ?_⟩
  · fin_cases h <;> exact ⟨by decide +kernel, by decide⟩
  all_goals first | decide +kernel | (unfold State.uniqueKeys; decide +kernel)

/-- A driver command with its first parameters. -/
def drv (ctx : Nat) (ps : List Nat) : CmdRec :=
  { mbx := 0, seq := 1, ctx := BitVec.ofNat 16 ctx, p := Vector.ofFn fun i : Fin 12 => BitVec.ofNat 64 (ps.getD i.val 0) }

/-- A machine with context 3 and a page table of its own, which maps VA 0 to PA 0. -/
def ctxSt : State :=
  let s := { State.reset with fw := { State.reset.fw with ctxs := [{ ctx3 with root := tableAddr 0 }], ptUsed := [(0, 3, 1)] } }
  match mapLeaves s (drv 3 [0, 0, 0, 1, 7]) (tableAddr 0) with
  | .inl (s1, _) => s1
  | .inr _ => s

theorem wit_CommandChecks :
    (let c := drv 3 [1]
     (2, c) ∉ State.reset.fw.long ∧ Nat.testBit 0 0 = false ∧ c.p.getD 0 0 ≠ 0 ∧ State.reset.ctxOf c.ctx.toNat = none) ∧
    (let s := { ctxSt with fw := { ctxSt.fw with ckpt := some ⟨drv 0 [], 1, 0, 0, [], []⟩ } }
     s.fw.ckpt.isSome = true ∧ s.fw.settling = [] ∧ 4 ∉ [2, 0x15, 0x16, 0x1B, 0x1C] ∧ (s.ctxOf 3).isSome = true) ∧
    allowed ctxSt (drv 3 [0, 0, 0, 1, 7]) 4 true 0x3F := by
  refine ⟨⟨?_, ?_, ?_, ?_⟩, ⟨?_, ?_, ?_, ?_⟩, ?_⟩ <;> first | decide +kernel | (unfold allowed; decide +kernel)

/-- A machine of context 3 where firmware holds a capability, of the rights given, for the frozen strand 2. -/
def heldSt (rights : Nat) (run : RunState) : State :=
  { ctxSt with
    others := [{ peer 2 0 with run := run, serial := 3 }]
    fw := { ctxSt.fw with caps := [⟨9, BitVec.ofNat 128 (2 ^ 127 + rights * 2 ^ 122 + 3 * 2 ^ 32), none, false⟩] } }

theorem firstFree_full (l : List Nat) : ∀ n i, (∀ j, i ≤ j → j < i + n → j ∈ l) → firstFree l n i = i + n
  | 0, _, _ => rfl
  | n + 1, i, h => by
    rw [firstFree, if_pos (List.contains_iff_mem.2 (h i (le_refl i) (by omega))),
      firstFree_full l n (i + 1) fun j h1 h2 => h j (by omega) (by omega)]
    omega

theorem noTable : { ctxSt with fw := { ctxSt.fw with ptUsed := (List.range 2048).map fun i => (i, 0, 1) } }.newTable 3 = none := by
  rw [State.newTable]
  simp only [List.map_map, Function.comp_def, List.map_id', List.length_range]
  rw [firstFree_full _ 2048 0 fun j _ h => List.mem_range.2 (by omega)]
  simp

theorem wit_ContextAndQueueCommands :
    (allowed ctxSt (drv 0 [4095, 7]) 1 false 3 ∧ (4095 ≤ 4095 ∧ (7 : Nat) ≤ 7) ∧ ctxSt.ctxOf 4095 = none ∧ (ctxSt.newTable 3).isSome = true ∧
      (ctxSt.ctxOf 3).isSome = true) ∧
    { ctxSt with fw := { ctxSt.fw with ptUsed := (List.range 2048).map fun i => (i, 0, 1) } }.newTable 3 = none ∧
    (allowed ctxSt (drv 3 []) 2 true 0 ∧ (2, drv 3 []) ∉ ctxSt.fw.long) ∧
    (allowed ctxSt (drv 3 [4095, 16, 15]) 3 true 7 ∧ (ctxSt.ctxOf 3).any (fun x => x.group.isNone) = true) ∧
    (allowed ctxSt (drv 3 [63, 7]) 0xC true 3 ∧ (ctxSt.queueOf 3 63).isNone = true ∧ (ctxSt.queueOf 3 0).isSome = true) ∧
    (allowed ctxSt (drv 3 [0, 7]) 0xD true 3 ∧ ctx3.maxClass < 8) ∧
    (allowed ctxSt (drv 3 [0, 4096, 10]) 0xB true 7 ∧ 4096 % 4096 = 0 ∧ ctxSt.acceptedCount 3 0 = 0 ∧ ctxSt.memWf) ∧
    (0 < (launchSt 1).acceptedCount 3 0) ∧
    allowed ctxSt (drv 3 [8, 65536]) 0xE true 3 ∧ allowed ctxSt (drv 3 [1]) 0x18 true 1 ∧ allowed ctxSt (drv 3 [0, 65535]) 0x19 true 3 ∧
    allowed ctxSt (drv 3 [2 ^ 56 - 1]) 0xF true 1 ∧
    (let s := heldSt 0x1F .frozen
     allowed s (drv 0 [9, 2, 8]) 0x1E false 7 ∧ allowed s (drv 0 [9, 5, 1]) 0x1E false 7 ∧
       (s.fw.caps.find? fun h => decide (h.handle = 9)).isSome = true ∧ (s.fw.caps.find? fun h => decide (h.handle = 8)).isNone = true ∧
       (s.fw.caps.head?.bind fun h => (s.capStrand h.cap).map fun o =>
         o.isFrozen && decide (o.serial.toNat = capSerial h.cap) && capRight h.cap 2 && capRight h.cap 3) = some true ∧
       (match s.replayAs 2 (performAll 8) with | .done _ => true | _ => false) = true) ∧
    ((heldSt 0 .ready).fw.caps.head?.any fun h => !capRight h.cap 2 && ((heldSt 0 .ready).capStrand h.cap).any (fun o => !o.isFrozen)) = true := by
  refine ⟨⟨?_, ?_, ?_, ?_, ?_⟩, noTable, ⟨?_, ?_⟩, ⟨?_, ?_⟩, ⟨?_, ?_, ?_⟩, ⟨?_, ?_⟩, ⟨?_, ?_, ?_, ?_⟩, ?_, ?_, ?_, ?_, ?_, ⟨?_, ?_, ?_, ?_, ?_, ?_⟩, ?_⟩
  all_goals first | decide +kernel | (unfold allowed; decide +kernel) | (unfold State.memWf; decide +kernel)

theorem wit_MappingAndFrameCommands :
    (let c := drv 3 [65536, 65536, 0, 1, 7]
     let s := ctxSt
     (s.ctxOf 3).any (fun x => decide (x.root = tableAddr 0)) = true ∧ allowed s c 4 true 0x3F ∧ vaOk c = true ∧ pagePaOk 65536 0 = true ∧
       (match slotOfVa s (tableAddr 0) 65536 0 with | .at a => !bit (s.loadNat (.mem a) 8) 0 | _ => false) = true ∧
       pageKindOk s 65536 0 0 = true ∧ pageKindOk s 65536 0 1 = false ∧
       (match mapLeaves s c (tableAddr 0) with | .inl (_, n) => decide (n = 0) | .inr _ => false) = true) ∧
    (let c := drv 3 [0, 0, 0, 1]
     allowed ctxSt c 5 true 0xD ∧ vaOk c = true ∧ (mappedSlot ctxSt { ctx3 with root := tableAddr 0 } 0 0).isSome = true ∧
       (mappedSlot ctxSt { ctx3 with root := tableAddr 0 } 65536 0).isNone = true ∧ (settlingOf ctxSt 5 c).isNone = true ∧
       settled ctxSt [(0, 1)] = true ∧
       settled { ctxSt with homes := { ctxSt.homes with posted := [{ key := 1, round := 0, core := 0, rq := .own, slice := none, loc := .mem 0x40, pa := some 0x40, die := 0, rkey := 0, bs := [], upd := none }] } } [(0, 1)] = false ∧
       settlingOf { ctxSt with fw := { ctxSt.fw with settling := [(5, c, 1, [(0, 1)])] } } 5 c = some (5, c, 1, [(0, 1)])) ∧
    (let p := tableAddr 0
     allowed ctxSt (drv 0 [p, 1]) 6 false 0x1FF ∧ p % 64 = 0 ∧ paExists p = true ∧ ctxSt.kindOf (p / 65536) = .firmware ∧ ctxSt.kindOf 0 ≠ .firmware ∧
       liveLine ctxSt (tableAddr 100) = false ∧ ctxSt.memWf ∧ ctxSt.fw.caps = [] ∧
       (settlingOf ctxSt 6 (drv 0 [p, 1])).isNone = true ∧ ctxSt.homes.posted = [] ∧ settled ctxSt (lineFrames ctxSt p) = true ∧
       { ctxSt with fw := { ctxSt.fw with blocked := [p] } }.fw.blocked.contains p = true) ∧
    (allowed ctxSt (drv 0 [0, 2, 3]) 7 false 7 ∧ (∀ f ∈ [0, 1], paExists (f * 65536) = true ∧ frameUsed ctxSt f = false ∧ cacheFrame ctxSt f = false) ∧
      frameUsed ctxSt (tableAddr 0 / 65536) = true ∧ cacheFrame ctxSt (0x80000000000 / 65536) = true) ∧
    (let s := ctxSt
     allowed s (drv 0 [0, 65536]) 8 false 3 ∧ s.kindOf 0 = .plain ∧ s.kindOf 1 = .plain ∧ traceFrame s 0 = false ∧ migrating s 0 = false ∧ migrating s 1 = false ∧ s.fw.migrate = [] ∧
       (∀ l ∈ allLeaves s, leafNames 0 l = true → l.2.1 = 0) ∧ (∀ l ∈ allLeaves s, leafNames 1 l = false)) ∧
    (let s := { ctxSt with fw := { ctxSt.fw with migrate := [(0, 1, drv 0 [0, 65536])] } }
     s.fw.migrate = (0, 1, drv 0 [0, 65536]) :: [] ∧ s.memWf ∧ s.homes.coh = [] ∧
       (∀ l ∈ allLeaves (((s.gatherFrame 0).copyFrame 0 1).renameFrame 0 1), l.1 / 65536 ≠ 1 ∧ l.1 / 65536 ≠ 0)) ∧
    (allowed State.reset (drv 0 [3, 12]) 9 false 3 ∧ State.reset.fw.carve.getD 3 0 ≤ 12 ∧ State.reset.homes.vers = [] ∧ allLeaves State.reset = [] ∧
      (9, drv 0 [3, 12]) ∉ State.reset.fw.long ∧ busyFrames State.reset 3 ≤ roomBeside 12 ∧ (∀ k ∈ State.reset.cores, k.trcOn = false)) ∧
    (let f := 0x8000000 + 3 * 16384 + 16000
     let s := { State.reset with homes := { State.reset.homes with vers := [{ ver1 with st := .drafted, frames := [f * 65536] }] } }
     carveClear s 3 12 = false ∧ (carveNext s 3 12).isNone = true) ∧
    (let s := { State.reset with fw := { State.reset.fw with carve := State.reset.fw.carve.setIfInBounds 0 12 } }
     0 < s.fw.carve.getD 0 0 ∧ framesNamed { s with fw := { s.fw with ctxs := ctxSt.fw.ctxs }, mem := ctxSt.mem } (inUnits 0 0 12) = false) ∧
    (0 < State.reset.fw.carve.getD 3 0 ∨ State.reset.fw.carve.getD 3 0 = 0) ∧
    allowed State.reset (drv 0 [0xFFFF, 1000000]) 0xA false 3 := by
  refine ⟨⟨?_, ?_, ?_, ?_, ?_, ?_, ?_, ?_⟩, ⟨?_, ?_, ?_, ?_, ?_, ?_, ?_, ?_⟩, ⟨?_, ?_, ?_, ?_, ?_, ?_, ?_, rfl, ?_, rfl, ?_, ?_⟩, ⟨?_, ?_, ?_, ?_⟩,
    ⟨?_, ?_, ?_, ?_, ?_, ?_, ?_, ?_, ?_⟩, ⟨rfl, ?_, rfl, ?_⟩, ⟨?_, ?_, ?_, ?_, ?_, ?_, ?_⟩, ⟨?_, ?_⟩, ⟨?_, ?_⟩, ?_, ?_⟩
  all_goals first | decide +kernel | (unfold allowed; decide +kernel) | (unfold State.memWf; decide +kernel)

/-- An image of a machine right after reset, of a digest. -/
def image0 (d : BitVec 256) : Image :=
  { digest := d, strands := [], homes := State.reset.homes, crews := [], launches := [], gangs := [], sets := [], saved := [], cmds := [],
    ctxs := [], caps := [], ptUsed := [], fkinds := [], carve := State.reset.fw.carve, owners := [], tables := [], badTables := [], capWait := [],
    held := [] }

theorem wit_FirmwareCommands :
    (allowed ctxSt (drv 0 [0, 4096]) 0x1A false 3 ∧ (checkBundle ctxSt 0 4096).getLeft? = some 2) ∧
    (allowed ctxSt (drv 0 [0, 8192]) 0x1B false 3 ∧ ctxSt.fw.otpIndex < 2 ^ 20 ∧ ctxSt.memWf) ∧
    (allowed ctxSt (drv 0 []) 0x1C false 0 ∧ (0x1C, drv 0 []) ∉ ctxSt.fw.long ∧
      (let s := { ctxSt with fw := { ctxSt.fw with long := [(0x1C, drv 0 [])] } }
       (0x1C, drv 0 []) ∈ s.fw.long ∧ resetReady s = true) ∧
      (let s := { launchSt 1 with fw := { (launchSt 1).fw with long := [(0x1C, drv 0 [])] }, cmds := [{ tcmd .running [(2, 248)] with ctx := 3, launch := some 1 }] }
       (0x1C, drv 0 []) ∈ s.fw.long ∧ resetReady s = false)) ∧
    allowed ctxSt (drv 0 [400, 3600]) 0x1D false 3 ∧ allowed ctxSt (drv 0 [0]) 0x16 false 1 ∧
    allowed ctxSt (drv 0 [3, 0, 2048]) 0x15 false 7 ∧ allowed ctxSt (drv 0 [65536, 4096]) 0x14 false 3 ∧
    (let s := { ctxSt with fw := { ctxSt.fw with fkinds := [(7, .trace)] } }
     allowed s (drv 3 [2567, 7 * 65536, 1]) 0x12 true 7 ∧ s.kindOf 7 = .trace ∧ traceFrame s 7 = false ∧ (s.core 2567).trcOn = false ∧
       ctxSt.kindOf 7 ≠ .trace) ∧
    (let s := { ctxSt with cores := [{ CoreRec.blank 7 with trcOn := true }] }
     allowed s (drv 0 [7]) 0x13 false 1 ∧ (s.core 7).trcOn = true ∧ (s.core 8).trcOn = false) ∧
    (let s := ctxSt
     allowed s (drv 0 [0, 1]) 0x17 false 3 ∧ allowed s (drv 0 [0, 3]) 0x17 false 3 ∧ (s.link 0).serving = 0 ∧ s.fw.long = [] ∧ routineBusy s = false ∧
       ((s.setLink 0 fun x => { x with serving := 2 }).link 0).serving ≠ 0) ∧
    (allowed ctxSt (drv 0 [96, 5 + 256]) 0x17 false 3 ∧ (5 + 256) % 256 = 5 ∧ fld (5 + 256) 8 48 = 1 ∧ routesFree ctxSt 0 1 = true) ∧
    (exportOk ctxSt 0 0 = true ∧ allowed ctxSt (drv 0 [0, 7]) 0x17 false 3) ∧
    (allowed ctxSt (drv 0 [0, 2 ^ 40]) 0x10 false 3 ∧ allowed ctxSt (drv 0 [0, 0]) 0x10 false 3) ∧
    (allowed State.reset (drv 0 [0, 4096]) 0x11 false 3 ∧ State.reset.fw.ctxs = [] ∧ ctxSt.fw.ctxs ≠ []) ∧
    (let s := { State.reset with mem := [(ckey 0, 0x50), (ckey 1, 0x43), (ckey 2, 0x59), (ckey 3, 0x4B), (ckey 4, 1), (ckey 9, 0x10)] }
     let f := fun (i n : Nat) => s.loadNat (.mem (ckey (0 + i))) n
     f 0 4 = 0x4B594350 ∧ f 4 4 = 1 ∧ 4096 ≤ f 8 8 ∧ f 8 8 ≤ 4096) ∧
    (∀ d,
      let i := image0 d
      let s := { State.reset with fw := { State.reset.fw with images := [i] } }
      imageHeld s d = some i ∧ i.carve = s.fw.carve ∧ i.carve ≠ ({ s with fw := { s.fw with carve := s.fw.carve.setIfInBounds 0 12 } }).fw.carve) := by
  refine ⟨⟨?_, ?_⟩, ⟨?_, ?_, ?_⟩, ⟨?_, ?_, ⟨?_, ?_⟩, ?_, ?_⟩, ?_, ?_, ?_, ?_, ⟨?_, ?_, ?_, ?_, ?_⟩, ⟨?_, ?_, ?_⟩, ⟨?_, ?_, ?_, rfl, ?_, ?_⟩, ⟨?_, ?_, ?_, ?_⟩,
    ⟨?_, ?_⟩, ⟨?_, ?_⟩, ⟨?_, ?_, ?_⟩, ⟨?_, ?_, ?_, ?_⟩, fun d => ⟨by simp [imageHeld, image0], rfl,
      show State.reset.fw.carve ≠ State.reset.fw.carve.setIfInBounds 0 12 by decide +kernel⟩⟩
  all_goals first | decide +kernel | (unfold allowed; decide +kernel) | (unfold State.memWf; decide +kernel)

/-- A machine whose firmware serves, with mailbox 0 turned on at companion address 0. -/
def boxSt (m : List Host.Cell) (f : Mbx → Mbx) : State :=
  { State.reset with
    mem := m
    fw := { State.reset.fw with
      stage := 0x0A
      mbx := State.reset.fw.mbx.set 0 (f { (State.reset.box 0) with cfg := 1, on := true, base := 0, cm := 2, en := 2 }) } }

theorem wit_MailboxesPortsAndCheckpoints :
    (let s := boxSt [] id
     (s.box 0).cfg.getLsbD 0 = true ∧ s.fw.resetCmd = none ∧ (s.box 1).cfg.getLsbD 0 = false ∧ drainDue s 0 = false ∧ acceptDue s 0 = false) ∧
    (let s := boxSt [] fun b => { b with evq := [Vector.replicate 4 0] }
     drainDue s 0 = true ∧ s.memWf) ∧
    (let s := boxSt [(ckey 64, 0x16), (ckey (64 + 127), 0x80)] id
     let f := fun (i n : Nat) => leNat (((s.bytes (.mem (cmdSlot (s.box 0))) 128).drop i).take n)
     acceptDue s 0 = true ∧ f 2 2 = 0 ∧ f 10 6 = 0 ∧ f 112 15 = 0 ∧ (commandOf (f 0 2) (drv 0 [])).isSome = true) ∧
    (let s := boxSt [(ckey 64, 0xFF), (ckey 66, 1), (ckey (64 + 127), 0x80)] id
     let f := fun (i n : Nat) => leNat (((s.bytes (.mem (cmdSlot (s.box 0))) 128).drop i).take n)
     acceptDue s 0 = true ∧ f 2 2 = 1 ∧ (commandOf (f 0 2) (drv 0 [])).isNone = true) ∧
    (let e := drv 3 []
     mustWait { ctxSt with fw := { ctxSt.fw with long := [(2, e)] } } (0xF, drv 3 [1]) [] = true ∧ mustWait ctxSt (0xF, drv 3 [1]) [] = false) ∧
    (let s := { State.reset with fw := { State.reset.fw with igbase := State.reset.fw.igbase.set 0 1 } }
     devicePa s 64 = some 64 ∧ (devicePa State.reset 64).isNone = true ∧ (∀ i < 8, paExists (64 + i) = true) ∧ tileAt s 64 = none ∧ s.homes.coh = [] ∧
       s.homes.vers = [] ∧ s.memWf ∧ portHolds s true [64, 65] = false ∧
       portHolds { s with parked := [.companionAccess false 64 [0]] } true [64] = true ∧ inWindow s 64 = true ∧ inWindow State.reset 64 = false) ∧
    (let k : Ckpt := ⟨drv 0 [], 1, 0, 0, [], []⟩
     let s := { State.reset with fw := { State.reset.fw with ckpt := some k } }
     s.fw.ckpt = some k ∧ k.phase = 1 ∧ (inSlots s).isEmpty = true ∧ commandsQuiet s = true) ∧
    (let k : Ckpt := ⟨drv 0 [], 2, 0, 0, [], []⟩
     2 ≤ k.phase ∧ 3 < { k with phase := 4 }.phase) := by
  refine ⟨⟨?_, ?_, ?_, ?_, ?_⟩, ⟨?_, ?_⟩, ⟨?_, ?_, ?_, ?_, ?_⟩, ⟨?_, ?_, ?_⟩, ⟨?_, ?_⟩, ⟨?_, ?_, ?_, ?_, ?_, ?_, ?_, ?_, ?_, ?_, ?_⟩, ⟨rfl, rfl, ?_, ?_⟩, ?_, ?_⟩
  all_goals first | decide +kernel | (unfold State.memWf; decide +kernel)

/-- Whether the ROM's digest is sound is the implementation's (Config), so one of the two clauses on it holds and neither is shown here. -/
theorem wit_PowerClockAndReset :
    State.reset.power = true ∧ { State.reset with power := false }.power = false ∧ State.reset.memWf :=
  ⟨rfl, rfl, rfl⟩

theorem sampleRecord_pos (s : State) : 0 < (sampleRecord s).length := by
  refine List.length_pos_iff.2 ?_
  delta sampleRecord
  iterate 8 refine List.append_ne_nil_of_left_ne_nil ?_ _
  exact fun h => nomatch h

theorem wit_DebugPatrolAndSamples :
    (let s := { State.reset with me := { peer 1 0 with run := .stopped } }
     s.uniqueKeys ∧ stopWith s 0 = [0] ∧ s.strand 1 = some s.me ∧ s.me.run = .stopped ∧ s.me.park ≠ .steal ∧ s.memWf ∧
       selCause .firmware 0x10 (some 0) = none ∧ leads s s.me = true ∧ s.me.out = false) ∧
    (let s := State.reset.setCore 5 fun k => { k with stopped := true }
     (s.core 5).stopped = true ∧ (s.core 6).stopped = false ∧ s.memWf) ∧
    (let s := { State.reset with me := { peer 1 0 with run := .ready } }
     s.strand 1 = some s.me ∧ s.me.run ≠ .stopped ∧ (s.core s.me.core).stopped = false) ∧
    ((∀ l ∈ badPlaces State.reset 0x2000 4, granule l ∉ State.reset.poison) ∧ (badPlaces State.reset 0x2000 4).length = 8 ∧
      (∀ l ∈ badPlaces { State.reset with poison := [granule (.mem 0x2000)] } 0x2000 0,
        granule l ∈ ({ State.reset with poison := [granule (.mem 0x2000)] }).poison)) ∧
    (patrolOn { State.reset with ras := { State.reset.ras with ctl := 0 } } 0 = false ∧ patrolOn State.reset 0 = true ∧ patrolOn State.reset 7 = true ∧
      patrolOn State.reset 1 = true ∧ byAccess 0 = false ∧ errorUnit 0 = 0 ∧ byAccess 8 = true ∧ errorUnit 8 = 0 ∧ byAccess 12 = true ∧ errorUnit 12 = 4) ∧
    State.reset.fw.sample.period = 0 ∧
    (let s := { State.reset with tick := 65536, fw := { State.reset.fw with sample := { period := 65536, buf := 0, sseq := 0, abs := false, prev := [], last := 0 } } }
     s.fw.sample.period ≠ 0 ∧ s.tick % s.fw.sample.period = 0 ∧
       s.loadNat (.mem (ckey 0)) 8 - 64 < (s.loadNat (.mem (ckey 0 + 8)) 8 - s.loadNat (.mem (ckey 0 + 16)) 8) + (sampleRecord s).length) := by
  refine ⟨⟨?_, ?_, rfl, rfl, ?_, rfl, ?_, ?_, rfl⟩, ⟨?_, ?_, ?_⟩, ⟨rfl, ?_, ?_⟩, ⟨?_, ?_, ?_⟩, ⟨?_, ?_, ?_, ?_, ?_, ?_, ?_, ?_, ?_, ?_⟩, rfl, ?_, ?_, lt_of_eq_of_lt (b := 0) ?_ (Nat.add_pos_right _ (sampleRecord_pos _))⟩
  all_goals first | decide +kernel | (unfold State.uniqueKeys; decide +kernel) | (unfold State.memWf; decide +kernel)

theorem wit_StepRunsDecodedInstruction :
    let s := { State.reset with me := peer 1 0, mem := [(0x1000, 0x00), (0x1001, 0x14), (0x1002, 0x32), (0x1007, 0x00)].filter fun c => c.2 ≠ 0 }
    let o := peer 1 0
    let s1 := (s.focus o.key).setMe drainInbox
    let f := fetchWord (s1.noteFetch 0x1000) o.core 0x1000
    s.power = true ∧ s.agenda = [] ∧ (nextWake s).isNone = true ∧ s.uniqueKeys ∧ (nextStrand s).map (·.key) = some 1 ∧ o.run = .ready ∧ (s.core o.core).stopped = false ∧
    gangNoticeDue s o = false ∧ noticeDue o = false ∧ o.park ≠ .steal ∧ o.ganged = false ∧ o.gang = none ∧ o.pairLead = false ∧
    fetchPlace s1 s1.me s1.me.pc = .inl 0x1000 ∧ fetchWaits s1 o.core 0x1000 = false ∧ s1.poisonIn (.mem 0x1000) 8 = none ∧
    decodeBundle (isCompute o.core) (isCox o.core) (f.1 % 2 ^ 32) (f.1 / 2 ^ 32) =
      .good (.add 3 4 5 false) .vnop ∧
    bundlePair (.add 3 4 5 false) = (.add 3 4 5 false, .vnop) ∧ isFp64 .vnop = false ∧ o.fpTurn ≠ some s.tick ∧
    isSyllable (.add 3 4 5 false) ∧ isSyllable .vnop := by
  intro s o s1 f
  refine ⟨rfl, rfl, ?_, ?_, ?_, rfl, rfl, ?_, ?_, ?_, rfl, rfl, rfl, ?_, ?_, ?_, ?_, rfl, rfl, ?_, rfl, rfl⟩
  all_goals first | decide +kernel | (unfold State.uniqueKeys; decide +kernel)

theorem wit_RegisterInstructionsFrame : scalarDest (.add 3 1 2 true) = some 3 ∧ scalarDest (.div 0 1 2) = some 0 ∧ canIssue State.reset :=
  ⟨rfl, rfl, rfl⟩

theorem wit_DecodeOfEncode :
    (Instr.add 3 4 5 false).wf = true ∧ encode (.add 3 4 5 false) = some (0x00321400, 0) ∧ (Instr.mzero 0xFFF).wf = true ∧
    (encode (.mzero 0xFFF)).isSome = true := by
  refine ⟨rfl, ?_, rfl, ?_⟩ <;> decide +kernel

theorem wit_MemoryStaysCanonical :
    let s := { State.reset with agenda := [.fetchLineRefill 0] }
    s.memWf ∧ ∃ t, step s = .next t := ⟨rfl, _, rfl⟩

/-! ## Worked examples of the spec, one step each -/

/-- A register of the issuing strand after an instruction. -/
def gAfter (i : Instr) (s : State) (r : R5) : Word :=
  match exec i s with
  | .next t => t.me.g r
  | _ => 0

/-- What a test reads of the state after an instruction. -/
def after {α : Type} (i : Instr) (s : State) (f : State → α) : Option α :=
  match exec i s with
  | .next t => some (f t)
  | _ => none

/-- The registers of Example 6.1. -/
def ex61 : State :=
  st fun o => (((o.setG 1 0x7FFFFFFFFFFFFFF0).setG 2 0x20).setG 3 0x8000000000000000).setG 4 0xFFFFFFFFFFFFFFFF

/-- Example 6.1. -/
theorem test_scalar_arithmetic :
    gAfter (.add 5 1 2 false) ex61 5 = 0x8000000000000010 ∧
    after (.add 5 1 2 true) ex61 (fun t => (t.me.g 5, t.me.ev.getD 6 0)) = some (0x7FFFFFFFFFFFFFFF, 1) ∧
    gAfter (.div 5 3 4) ex61 5 = 0x8000000000000000 ∧ gAfter (.rem 5 3 4) ex61 5 = 0 ∧
    after (.divu 5 2 0) ex61 (fun t => (t.me.g 5, t.me.ev.getD 1 0)) = some (0xFFFFFFFFFFFFFFFF, 1) ∧
    gAfter (.rem 5 2 0) ex61 5 = 0x20 ∧ gAfter (.mulh 5 3 4) ex61 5 = 0 ∧ gAfter (.mulhu 5 3 4) ex61 5 = 0x7FFFFFFFFFFFFFFF := by
  refine ⟨?_, ?_, ?_, ?_, ?_, ?_, ?_, ?_⟩ <;> decide +kernel

/-- Example 6.1. -/
theorem test_scalar_bits :
    gAfter (.clz 5 2) ex61 5 = 58 ∧ gAfter (.ctz 5 0) ex61 5 = 64 ∧ gAfter (.bswap 5 2) ex61 5 = 0x2000000000000000 ∧
    gAfter (.extr 5 1 7 0) ex61 5 = 0xFFFFFFFFFFFFFFF0 ∧ gAfter (.extru 5 1 7 0) ex61 5 = 0xF0 ∧ gAfter (.insr 6 2 7 8) ex61 6 = 0x2000 := by
  refine ⟨?_, ?_, ?_, ?_, ?_, ?_⟩ <;> decide +kernel

/-- A destination that is also a source (06 R177), and g0 that keeps nothing (01 R21). -/
theorem test_destination_is_source :
    gAfter (.add 3 3 3 false) (regs 0 0 5) 3 = 10 ∧ gAfter (.add 0 3 3 false) (regs 0 0 5) 0 = 0 := by
  refine ⟨?_, ?_⟩ <;> decide +kernel

/-- Example 6.2: ADDPC and the windowed call and return at 0x4018 and 0x4038. -/
theorem test_windows :
    gAfter (.addpc 31 (.fld 0x20)) (st fun o => { o with pc := 0x4010 }) 31 = 0x4030 ∧
    after (.wcall (.fld 0)) (st fun o => { (((o.setG 24 20).setG 25 22).setG 31 0x4030) with pc := 0x4018 })
      (fun t => (t.me.pc, t.me.res, t.me.g 16, t.me.g 17, t.me.g 23)) = some (0x4030, 3, 20, 22, 0x4020) ∧
    after .wret (st fun o => { ((o.setG 16 42).setG 23 0x4020) with pc := 0x4038, older := [Vector.replicate 8 0] })
      (fun t => (t.me.pc, t.me.res, t.me.g 24)) = some (0x4020, 2, 42) := by
  refine ⟨?_, ?_, ?_⟩ <;> decide +kernel

/-- What freezes a strand, if anything. -/
def cause (i : Instr) (s : State) : Option Cause := after i { s with me := { s.me with run := .ready } } fun t => t.me.frz.cause

/-- Example 6.3. -/
theorem test_state_words :
    after (.mts 7 0x010) (st fun o => { o.setG 7 0x37 with run := .ready }) (fun t => t.me.fpmode) = some 0x30 ∧
    cause (.mfs 5 0x100) State.reset = some Cause.statePrivilege ∧ cause (.mts 7 0x000) State.reset = some Cause.stateReadonly ∧
    cause (.mts 1 0x048) (regs 0x1004 0 0) = some Cause.pcMisaligned := by
  refine ⟨?_, ?_, ?_, ?_⟩ <;> decide +kernel

/-- 06 R186, R187: a branch back by three bundles (Example 5.2), and one inside a clause. -/
theorem test_branches :
    after (.bne 1 0 (.fld 0x7FFD)) (st fun o => { o.setG 1 1 with pc := 0x2018 }) (fun t => t.me.pc) = some 0x2000 ∧
    after (.bne 1 0 (.fld 0x7FFD)) (st fun o => { o with pc := 0x2018 }) (fun t => t.me.pc) = some 0x2020 ∧
    cause (.j (.fld 1)) (st fun o => { o with armed := true }) = some Cause.clauseControl := by
  refine ⟨?_, ?_, ?_⟩ <;> decide +kernel

/-- 02 R98: a word is little-endian; 07 R201: a halfword load extends its sign, and a misaligned one freezes. -/
theorem test_loads_and_stores :
    after (.std 2 1 .own (.fld 0)) (regs (ownLocal 8) 0x1122334455667788 0) (fun t => (mget t.mem (lkey 0 8), mget t.mem (lkey 0 15))) =
      some (0x88, 0x11) ∧
    gAfter (.ldh 2 1 .own (.fld 0)) { regs (ownLocal 0) 0 0 with mem := [(lkey 0 0, 0xFE), (lkey 0 1, 0xFF)] } 2 = 0xFFFFFFFFFFFFFFFE ∧
    cause (.ldd 2 1 .own (.fld 0)) (regs (ownLocal 4) 0 0) = some Cause.misaligned := by
  refine ⟨?_, ?_, ?_⟩ <;> decide +kernel

/-- Example 0.1: ids, clusters and global local memory of one core. -/
theorem test_core_ids :
    coreAt 2 22 13 = 1693 ∧ dieOf 1693 = 2 ∧ rowOf 1693 = 22 ∧ colOf 1693 = 13 ∧ clusterOf 1693 = 105 ∧
    regionOf 0x00FC00000D3A0000 = .inr (.bank 1693 0) := by
  refine ⟨?_, ?_, ?_, ?_, ?_, ?_⟩ <;> decide +kernel

/-- Example 2.1: where the fp32 folds of one word and of two differ. -/
theorem test_fold_order :
    uCombine 9 false (uCombine 9 false 0x80000000 0x33800000) 0x33800000 = 0x34000000 ∧
    uCombine 9 false 0x3F800000 0x34000000 = 0x3F800001 ∧
    uCombine 9 false (uCombine 9 false 0x3F800000 0x33800000) 0x33800000 = 0x3F800000 := by
  refine ⟨?_, ?_, ?_⟩ <;> decide +kernel

/-- Example 2.2: the home of a local name. -/
theorem test_name_home : nameIndex 144 3 0x100 = 113 := by decide +kernel

/-- The table of Example 4.1. -/
def ex41 : List (BitVec 32) :=
  ([0, 0x3F000000, 0x3F800000, 0x3FC00000, 0x40000000, 0x40400000, 0x40800000, 0x40C00000,
    0x80000000, 0xBF000000, 0xBF800000, 0xBFC00000, 0xC0000000, 0xC0400000, 0xC0800000, 0xC0C00000] : List Nat).map
    fun x => BitVec.ofNat 32 (x / 2 ^ 13)

/-- Example 4.1: coding to the nearest, ties to the even code, and clamping. -/
theorem test_encode :
    tableOrdered ex41 true = true ∧ tableOrdered (ex41.set 5 0x1FD00) true = false ∧
    encLane ex41 true .near true false (some (1, 0)) 0x40200000 = (4, { Evs.zero with inx := 1 }) ∧
    encLane ex41 true .near true false (some (1, 0)) 0x40A00000 = (6, { Evs.zero with inx := 1 }) ∧
    encLane ex41 true .near true false (some (1, 0)) 0xBFA00000 = (10, { Evs.zero with inx := 1 }) ∧
    encLane ex41 true .near true false (some (1, 0)) 0x40E00000 = (7, { Evs.zero with sat := 1, inx := 1 }) ∧
    encLane ex41 true .near true false (some (1, 0)) 0x80000000 = (8, Evs.zero) := by
  refine ⟨?_, ?_, ?_, ?_, ?_, ?_, ?_⟩ <;> decide +kernel

/-- The table of Example 4.2. -/
def ex42 : List (BitVec 32) := [0, 0, 0, 0x200, 0x1C00]

/-- Example 4.2: a coded subnormal that the scale makes normal, and a product that flush mode clears. -/
theorem test_decode_table :
    decLane ex42 .near false true (s9 0x112) 3 = (0x05000000, Evs.zero) ∧
    decLane ex42 .near false true (s9 0x0C8) 4 = (0, { Evs.zero with sub := 1, unf := 1, inx := 1 }) ∧
    (decLane ex42 .near false false (s9 0x0C8) 4).1 = 4 := by
  refine ⟨?_, ?_, ?_⟩ <;> decide +kernel

/-- Example 4.3: the group dot truncates its products at the quantum. -/
theorem test_group_dot :
    let g := fun (p : Fx) => groupValue [some (.num false 1 0), some (.num true 1 0), some p] (some (1, 0)) (some (1, 0))
    (g (.num false 5 (-52))).map (·.1) = some 0 ∧
    (g (.num false 5 (-48))).map (·.1) = some (ff32.round .near false false false 5 (-48)).1 := by
  refine ⟨?_, ?_⟩ <;> decide +kernel

/-- 08 R231: an inactive lane keeps its value; 08 R236: VCMP leaves 0 above its lanes. -/
theorem test_masked_lanes :
    after (.vadd 1 (.reg 2) 3 1 .e32) (st fun o => ((o.setV 1 5).setV 2 7).setK 1 0) (fun t => t.me.vr 1) = some 5 ∧
    after (.vcmpEq 2 (.reg 1) 1 0 .e64) State.reset (fun t => t.me.kr 2) = some 0xFF := by
  refine ⟨?_, ?_⟩ <;> decide +kernel

/-- 04 R133: trap mode freezes on a subnormal source; flush mode counts it in EVSUB (counter 5). -/
theorem test_subnormal_source :
    cause (.vfadd 2 (.reg 1) 3 0 .f32) (subSt 0) = some Cause.subnormalOperand ∧
    after (.vfadd 2 (.reg 1) 3 0 .f32) (subSt 0x10) (fun t => (t.me.vr 2).toNat % 2 ^ 64) = some 0 := by
  refine ⟨?_, ?_⟩ <;> decide +kernel

/-- 10 R289, R290: a word pushed east waits at the output; a pop takes the oldest word, and waits where there is none. -/
theorem test_queues :
    after (.qpush 1 2) (meshSt 0 id id) (fun t => t.me.qout.getD 1 []) = some [5, 0] ∧
    gAfter (.qpop 3 0) (q0St [6, 7]) 3 = 6 ∧ after (.qpop 3 0) (q0St []) (fun t => t.me.run) = some .parked := by
  refine ⟨?_, ?_, ?_⟩ <;> decide +kernel

/-- 11 R336: a service call freezes with its cause, and HALT below firmware level is privileged. -/
theorem test_system :
    cause .ecall State.reset = some Cause.serviceCall ∧ cause .halt State.reset = some Cause.privilegedOp ∧
    (Cause.serviceCall : Cause) = 0x1F0 := by
  refine ⟨?_, ?_, ?_⟩ <;> decide +kernel

/-- 11 R317: an umpire starts at the vector of its group with the cause in g1 (Example 11.2: UMPVEC[0x1F] for SERVICE_CALL). -/
theorem test_umpire_starts :
    (let o := { peer 1 2 with run := .frozen, ctx := 3, frz := { Strand.blank.frz with cause := Cause.serviceCall } }
     let x := { ctx3 with umpvec := (Vector.replicate 32 0).set 31 0x4000 }
     let s := { State.reset with me := o, fw := { State.reset.fw with ctxs := [x] } }
     after (.umpireSpawn 1) s fun t => t.strands.filterMap fun u => if u.level = .umpire then some (u.pc, u.sid, u.lo.getD 1 0) else none) =
      some [(0x4000, 7, 0x1F0)] := by decide +kernel

/-! ## Terms that are not well-formed -/

/-- One for each check of Instr.wf. -/
theorem test_ill_formed :
    (Instr.add 0 0 0 false).wf = false ∧ (Instr.extr 1 2 63 1).wf = false ∧ (Instr.extru 1 2 0 63).wf = true ∧
    (Instr.extru 1 2 1 63).wf = false ∧ (Instr.insr 1 2 32 32).wf = false ∧ (Instr.vldt 8 1 .own false).wf = false ∧
    (Instr.vldt 12 1 .own true).wf = false ∧ (Instr.odecl 1 2 false true 0).wf = false ∧ (Instr.odecl 1 2 false false 9).wf = false ∧
    (Instr.bar 1 2 false).wf = false ∧ (Instr.frdReg 1 0 true 8).wf = false ∧ (Instr.fwrReg 0 1 true 31).wf = false ∧
    (Instr.frq 1 0 10).wf = false ∧ (Instr.vtsum 5 (.reg 1) 2 0 .f64).wf = false ∧ (Instr.vmergeA 1 (.reg 2) 3).wf = false ∧
    (Instr.vmergeD 31 (.reg 2) 3).wf = false ∧ (Instr.vcvt 1 2 .c8 .fp32 .rne false 0).wf = false ∧
    (Instr.vcvt 1 2 .fp16 .fp32 .rne true 0).wf = false ∧ (Instr.vcvt 1 2 .int32 .fp32 .sr false 0).wf = false ∧
    (Instr.vdec 1 2 false .sr false 0 false).wf = false ∧ (Instr.vdecS 1 2 true .sr false 0 false).wf = false ∧
    (Instr.vred 1 (.reg 2) .fadd 0 .e16).wf = false ∧ (Instr.vscan 1 (.reg 2) .fmin 0 .e8).wf = false ∧
    (Instr.mmas (.que 4) (.regs 0) 0 false false false false).wf = false ∧
    (Instr.mmas (.que 1) (.que 1) 0 false false false false).wf = false ∧ (Instr.mtab false false).wf = false :=
  ⟨rfl, rfl, rfl, rfl, rfl, rfl, rfl, rfl, rfl, rfl, rfl, rfl, rfl, rfl, rfl, rfl, rfl, rfl, rfl, rfl, rfl, rfl, rfl, rfl, rfl, rfl⟩

end Sys2Proof.Tests
end

section
/-! Rules of the shared operations: issuing a bundle, finding and changing strands and cores, memory and the records of events. -/

namespace Sys2Proof.Machine

open Sys2Proof

/-! ## Issuing an A syllable -/

/-- A bundle that can issue ends as its A syllable answers. -/
theorem issueA_eq (f : Syl) {s : State} (h : canIssue s) : issueA f s = .next (s.begin.finish false (f s.begin.me s.begin)) := by
  rw [issueA, runSyl_eq false f s h]

theorem issueA_ok {f : Syl} {s s1 : State} {c : Ctl} (h : canIssue s) (hf : f s.begin.me s.begin = .ok s1 c) :
    issueA f s = .next (s1.complete s.begin.me c) := by
  rw [issueA_eq f h, hf]; rfl

theorem issueA_freeze {f : Syl} {s s1 : State} {r : Raise} {qa : Option Q4} (h : canIssue s)
    (hf : f s.begin.me s.begin = .freeze s1 r qa) : issueA f s = .next (s1.freezeMe r false qa) := by
  rw [issueA_eq f h, hf]; rfl

theorem issueA_park {f : Syl} {s s1 : State} {p : Park} (h : canIssue s) (hf : f s.begin.me s.begin = .park s1 p) :
    issueA f s = .next (s1.parkMe p) := by
  rw [issueA_eq f h, hf]; rfl

/-! ## A completed bundle -/

@[simp] theorem complete_next (s : State) (o : Strand) :
    s.complete o .next = s.setMe fun x => settle s.tick (clauseEnd o x) := rfl

@[simp] theorem ends_me (s : State) (f : Strand → Strand) : (ends s f).me = settle s.tick (clauseEnd s.me (f s.me)) := by
  simp [ends]

/-- A completed bundle changes the strand, and the launch's records of its start. -/
theorem ends_eq (s : State) (f : Strand → Strand) :
    ends s f = { s with me := settle s.tick (clauseEnd s.me (f s.me)), sched := s.noteStart.sched } := by
  simp only [ends, complete_next]
  rw [State.begin_eq]
  rfl

/-- The bundle before the last one of a clause's body, or outside a clause: the PC goes on (01 R36). -/
theorem clauseEnd_of_not_end {o : Strand} (x : Strand) (h : ¬(o.armed = true ∧ o.susp = false ∧ o.pc = o.lend)) :
    clauseEnd o x = { x with pc := o.pc + 8 } := by
  unfold clauseEnd
  rw [if_neg (by simpa [and_assoc] using h)]

/-- The bundle at LEND starts the next iteration, or ends the clause (01 R36). -/
theorem clauseEnd_of_end {o : Strand} (x : Strand) (h : o.armed = true ∧ o.susp = false ∧ o.pc = o.lend) :
    clauseEnd o x = if o.lcount.toNat ≤ 1 then { x with pc := o.lend + 8, lcount := 0, armed := false }
      else { x with pc := o.lstart, lcount := o.lcount - 1 } := by
  unfold clauseEnd
  rw [if_pos (by simpa [and_assoc] using h)]

/-! ## Cores -/

theorem State.core_id (s : State) (i : Nat) : (s.core i).id = i := by
  unfold State.core
  cases h : s.cores.find? fun c => decide (c.id = i) with
  | none => rfl
  | some c => simpa using List.find?_some h

/-- A core's record after a change of one that keeps its number. -/
theorem State.core_setCore (s : State) (i j : Nat) (f : CoreRec → CoreRec) (hf : (f (s.core i)).id = i) :
    (s.setCore i f).core j = if j = i then f (s.core i) else s.core j := by
  by_cases h : j = i
  · subst h
    simp [State.core, State.setCore] at hf ⊢
    rw [List.find?_cons_of_pos (by simpa using hf)]
    rfl
  · rw [if_neg h]
    unfold State.core
    rw [State.setCore_cores, List.find?_cons_of_neg (by simpa [hf] using Ne.symm h), List.find?_filter]
    congr 2
    funext c
    by_cases hc : c.id = j <;> simp [hc, h]

/-- A store leaves of a core's record all but the marks of its decode RAMs and their verdicts. -/
def ramsOnly (c d : CoreRec) : Prop := d = { c with ramA := d.ramA, ramB := d.ramB, verdicts := d.verdicts }

theorem State.core_of_map (s : State) (f : CoreRec → CoreRec) (hf : ∀ c, (f c).id = c.id) (i : Nat)
    (hb : f (CoreRec.blank i) = CoreRec.blank i) : ({ s with cores := s.cores.map f } : State).core i = f (s.core i) := by
  unfold State.core
  simp only [List.find?_map, Function.comp_def, hf]
  cases s.cores.find? fun c => decide (c.id = i) with
  | none => exact hb.symm
  | some c => rfl

theorem State.core_touchRams (s : State) (l : Loc) (n i : Nat) : ramsOnly (s.core i) ((s.touchRams l n).core i) := by
  unfold State.touchRams
  split
  · split
    · rw [State.core_of_map]
      · rfl
      · exact fun _ => rfl
      · rfl
    · rfl
  · rfl

/-! ## Memory -/

/-- A store of bytes at a memory key changes memory, poison and the cores' marks. -/
theorem State.put_mem_eq (s : State) (k : Nat) (bs : List Byte) :
    s.put (.mem k) bs = { s with mem := msetN s.mem k bs, poison := clearPoison s.poison (.mem k) bs.length,
                                 cores := (s.put (.mem k) bs).cores } := by
  simp only [State.put, State.touchRams]
  split <;> rfl

theorem State.core_put_mem (s : State) (k : Nat) (bs : List Byte) (i : Nat) : ramsOnly (s.core i) ((s.put (.mem k) bs).core i) :=
  State.core_touchRams _ _ _ _

end Sys2Proof.Machine
end

section
/-! Rules of the records of events: the trace, the black box, the events for the driver, and what a freeze records. -/

namespace Sys2Proof.Machine

open Sys2Proof

/-! ## What no record changes -/

/-- The state without what records of events change: memory and its poison, the cores' encoders, the firmware's and the error records,
and what is offered to happen next. -/
def State.noRecords (s : State) : State :=
  { s with mem := [], poison := [], cores := [], agenda := [], fw := State.reset.fw, ras := State.reset.ras }

@[simp] theorem State.noRecords_put (s : State) (k : Nat) (bs : List Byte) : (s.put (.mem k) bs).noRecords = s.noRecords := by
  rw [State.put_mem_eq]; rfl
@[simp] theorem State.noRecords_setCore (s : State) (i : Nat) (f : CoreRec → CoreRec) : (s.setCore i f).noRecords = s.noRecords := by
  simp only [State.noRecords, State.setCore]
@[simp] theorem State.noRecords_later (s : State) (e : Ev) : (s.later e).noRecords = s.noRecords := by
  simp only [State.noRecords, State.later]
@[simp] theorem State.noRecords_setFw (s : State) (f : Firmware → Firmware) : (s.setFw f).noRecords = s.noRecords := by
  simp only [State.noRecords, State.setFw]
@[simp] theorem State.noRecords_setRas (s : State) (f : Ras → Ras) : (s.setRas f).noRecords = s.noRecords := by
  simp only [State.noRecords, State.setRas]

@[simp] theorem State.noRecords_traceRecord (s : State) (core slot ctx typ : Nat) (pc datum : Word) (start : Nat) :
    (s.traceRecord core slot ctx typ pc datum start).noRecords = s.noRecords := by
  unfold State.traceRecord
  extract_lets c at0 bytes
  clear_value at0 bytes
  rw [State.noRecords_later, State.noRecords_setCore, State.noRecords_put]

@[simp] theorem State.noRecords_traceLost (s : State) (core : Nat) : (s.traceLost core).noRecords = s.noRecords := by
  unfold State.traceLost
  extract_lets c
  split <;> simp

@[simp] theorem State.noRecords_trace (s : State) (core slot ctx typ : Nat) (pc datum : Word) :
    (s.trace core slot ctx typ pc datum).noRecords = s.noRecords := by
  unfold State.trace
  extract_lets c s1
  have h1 : s1.noRecords = s.noRecords := by unfold s1; split <;> simp
  split
  · split <;> simp [h1]
  · rfl

@[simp] theorem State.noRecords_traceOf (s : State) (o : Strand) (typ : Nat) (x : Word) : (s.traceOf o typ x).noRecords = s.noRecords :=
  State.noRecords_trace ..

@[simp] theorem State.noRecords_blackBox (s : State) (die typ code who ctx : Nat) (x : Word) :
    (s.blackBox die typ code who ctx x).noRecords = s.noRecords := by
  unfold State.blackBox
  extract_lets d sev seq slot at0 bytes s1
  clear_value at0 bytes
  exact (s1.noRecords_setRas _).trans (s.noRecords_put at0 bytes)

@[simp] theorem State.noRecords_event (s : State) (code : Nat) (x y : Word) (n : Nat) : (s.event code x y n).noRecords = s.noRecords := rfl

@[simp] theorem State.noRecords_blockLine (s : State) (line level ctx : Nat) : (s.blockLine line level ctx).noRecords = s.noRecords := by
  unfold State.blockLine
  extract_lets s1
  split <;> simp [s1]

/-- What a freeze records changes none of the rest (11 R315). -/
@[simp] theorem noRecords_freezeRecords (s : State) (o : Strand) (r : Raise) : (freezeRecords s o r).noRecords = s.noRecords := by
  unfold freezeRecords
  extract_lets s1 s2 s3 s4
  have h1 : s1.noRecords = s.noRecords := by unfold s1; split <;> simp
  have h2 : s2.noRecords = s.noRecords := by unfold s2; split <;> simp [h1]
  have h3 : s3.noRecords = s.noRecords := by unfold s3; split <;> simp [h2]
  have h4 : s4.noRecords = s.noRecords := by simp [s4, h3]
  split <;> simp [h4]

/-! ## Trace records -/

/-- A trace record leaves of a core's record all but the encoder's counters and the marks of its decode RAMs. -/
def tracesOnly (c d : CoreRec) : Prop :=
  d = { c with ramA := d.ramA, ramB := d.ramB, verdicts := d.verdicts, trcSeq := d.trcSeq, trcLost := d.trcLost, trcBusy := d.trcBusy }

theorem tracesOnly.trans {c d e : CoreRec} (h : tracesOnly c d) (h' : tracesOnly d e) : tracesOnly c e := by
  unfold tracesOnly at *
  rw [h', h]

theorem tracesOnly.line {c d : CoreRec} (h : tracesOnly c d) : d.line = c.line := by rw [h]

theorem State.core_traceRecord (s : State) (core slot ctx typ : Nat) (pc datum : Word) (start i : Nat) :
    tracesOnly (s.core i) ((s.traceRecord core slot ctx typ pc datum start).core i) := by
  unfold State.traceRecord
  extract_lets c at0 bytes
  clear_value at0 bytes
  have h := s.core_put_mem at0 bytes i
  unfold ramsOnly at h
  show tracesOnly _ (((s.put (.mem at0) bytes).setCore core fun c => { c with trcSeq := c.trcSeq + 1, trcBusy := start + 4 }).core i)
  rw [State.core_setCore _ _ _ _ (State.core_id _ _)]
  split
  · rename_i he
    subst he
    rw [h]; rfl
  · rw [h]; rfl

theorem State.core_traceLost (s : State) (core i : Nat) : tracesOnly (s.core i) ((s.traceLost core).core i) := by
  unfold State.traceLost
  extract_lets c
  split
  · rfl
  · have h := s.core_traceRecord core 0 0 8 0 (BitVec.ofNat 64 c.trcLost) c.trcBusy i
    rw [State.core_setCore _ _ _ _ (State.core_id _ _)]
    split
    · rename_i he
      subst he
      exact h.trans rfl
    · exact h

theorem State.core_trace (s : State) (core slot ctx typ : Nat) (pc datum : Word) (i : Nat) :
    tracesOnly (s.core i) ((s.trace core slot ctx typ pc datum).core i) := by
  unfold State.trace
  extract_lets c s1
  have h1 : tracesOnly (s.core i) (s1.core i) := by
    unfold s1
    split
    · exact s.core_traceLost core i
    · rfl
  split
  · split
    · rw [State.core_setCore _ _ _ _ (State.core_id _ _)]
      split
      · rename_i he
        subst he
        exact h1.trans rfl
      · exact h1
    · exact h1.trans (s1.core_traceRecord ..)
  · rfl

/-- Without the filter's permission a core records nothing. -/
theorem State.trace_of_off (s : State) (core slot ctx typ : Nat) (pc datum : Word) (h : (s.core core).trcOn = false) :
    s.trace core slot ctx typ pc datum = s := by
  simp [State.trace, h]

@[simp] theorem State.traceOf_me (s : State) (o : Strand) (typ : Nat) (x : Word) : (s.traceOf o typ x).me = s.me :=
  (congrArg State.me (s.noRecords_traceOf o typ x) :)
@[simp] theorem State.traceOf_others (s : State) (o : Strand) (typ : Nat) (x : Word) : (s.traceOf o typ x).others = s.others :=
  (congrArg State.others (s.noRecords_traceOf o typ x) :)
@[simp] theorem State.traceOf_tick (s : State) (o : Strand) (typ : Nat) (x : Word) : (s.traceOf o typ x).tick = s.tick :=
  (congrArg State.tick (s.noRecords_traceOf o typ x) :)
@[simp] theorem freezeRecords_me (s : State) (o : Strand) (r : Raise) : (freezeRecords s o r).me = s.me :=
  (congrArg State.me (noRecords_freezeRecords s o r) :)
@[simp] theorem freezeRecords_others (s : State) (o : Strand) (r : Raise) : (freezeRecords s o r).others = s.others :=
  (congrArg State.others (noRecords_freezeRecords s o r) :)
@[simp] theorem freezeRecords_tick (s : State) (o : Strand) (r : Raise) : (freezeRecords s o r).tick = s.tick :=
  (congrArg State.tick (noRecords_freezeRecords s o r) :)
@[simp] theorem freezeRecords_sched (s : State) (o : Strand) (r : Raise) : (freezeRecords s o r).sched = s.sched :=
  (congrArg State.sched (noRecords_freezeRecords s o r) :)
@[simp] theorem freezeRecords_pools (s : State) (o : Strand) (r : Raise) : (freezeRecords s o r).pools = s.pools :=
  (congrArg State.pools (noRecords_freezeRecords s o r) :)
@[simp] theorem freezeRecords_undo (s : State) (o : Strand) (r : Raise) : (freezeRecords s o r).undo = s.undo :=
  (congrArg State.undo (noRecords_freezeRecords s o r) :)
@[simp] theorem freezeRecords_uid (s : State) (o : Strand) (r : Raise) : (freezeRecords s o r).uid = s.uid :=
  (congrArg State.uid (noRecords_freezeRecords s o r) :)
@[simp] theorem freezeRecords_homes (s : State) (o : Strand) (r : Raise) : (freezeRecords s o r).homes = s.homes :=
  (congrArg State.homes (noRecords_freezeRecords s o r) :)
@[simp] theorem freezeRecords_cmds (s : State) (o : Strand) (r : Raise) : (freezeRecords s o r).cmds = s.cmds :=
  (congrArg State.cmds (noRecords_freezeRecords s o r) :)

theorem State.core_traceOf (s : State) (o : Strand) (typ : Nat) (x : Word) (i : Nat) :
    tracesOnly (s.core i) ((s.traceOf o typ x).core i) := State.core_trace ..

/-! ## The fetch line -/

/-- A dropped fetch line changes the core's record alone. -/
theorem State.dropLine_eq (s : State) (o : Strand) (t : Word) : ∃ c, s.dropLine o t = { s with cores := c } := by
  unfold State.dropLine
  split
  · split
    · exact ⟨_, rfl⟩
    · exact ⟨_, rfl⟩
  · exact ⟨_, rfl⟩

@[simp] theorem State.dropLine_me (s : State) (o : Strand) (t : Word) : (s.dropLine o t).me = s.me := by
  obtain ⟨_, h⟩ := s.dropLine_eq o t
  rw [h]
@[simp] theorem State.dropLine_others (s : State) (o : Strand) (t : Word) : (s.dropLine o t).others = s.others := by
  obtain ⟨_, h⟩ := s.dropLine_eq o t
  rw [h]
@[simp] theorem State.dropLine_tick (s : State) (o : Strand) (t : Word) : (s.dropLine o t).tick = s.tick := by
  obtain ⟨_, h⟩ := s.dropLine_eq o t
  rw [h]

/-- After a jump no fetch line of the core holds its target (06 R188). -/
theorem State.dropLine_line (s : State) (o : Strand) (t : Word) (k a : Nat) (bs : List Byte) (hk : fetchPlace s o t = .inl k)
    (h : ((s.dropLine o t).core o.core).line = some (a, bs)) : a ≠ k / 64 := by
  unfold State.dropLine at h
  rw [hk] at h
  split at h
  · rename_i a' bs' k' hl hk'
    cases hk'
    split at h
    · rw [State.core_setCore _ _ _ _ (State.core_id _ _), if_pos rfl] at h
      cases h
    · rw [hl] at h
      cases h
      assumption
  · rename_i hn
    exact (hn a bs k h rfl).elim

end Sys2Proof.Machine
end

section
/-! Rules of the strands of a machine: finding one by its handle, making it the issuing one, changing it. -/

namespace Sys2Proof.Machine

open Sys2Proof

/-! ## Finding a strand -/

theorem State.strand_some {s : State} {k : Nat} {o : Strand} (h : s.strand k = some o) : o ∈ s.strands ∧ o.key = k ∧ o.run ≠ .empty := by
  have hp := List.find?_some h
  simp only [Bool.and_eq_true, decide_eq_true_eq, Bool.not_eq_true', decide_eq_false_iff_not] at hp
  exact ⟨List.mem_of_find?_eq_some h, hp.1, hp.2⟩

/-- Strands of one handle are one strand. -/
theorem State.uniqueKeys.eq {s : State} (hu : s.uniqueKeys) {a b : Strand} (ha : a ∈ s.strands) (hb : b ∈ s.strands)
    (h : a.key = b.key) : a = b := List.inj_on_of_nodup_map hu ha hb h

theorem State.uniqueKeys.strand {s : State} (hu : s.uniqueKeys) {o : Strand} (ho : o ∈ s.strands) (hr : o.run ≠ .empty) :
    s.strand o.key = some o := by
  have hs : (s.strand o.key).isSome = true := by
    unfold State.strand
    rw [List.find?_isSome]
    exact ⟨o, ho, by simp [hr]⟩
  obtain ⟨x, hx⟩ := Option.isSome_iff_exists.1 hs
  obtain ⟨hm, hk, _⟩ := State.strand_some hx
  rw [hx, hu.eq hm ho hk]

theorem State.strand_me {s : State} (h : s.me.run ≠ .empty) : s.strand s.me.key = some s.me := by
  unfold State.strand State.strands
  rw [List.find?_cons_of_pos (by simp [h])]

/-! ## The issuing strand -/

theorem State.focus_of_me {s : State} {k : Nat} (h : s.me.key = k) (hr : s.me.run ≠ .empty) : s.focus k = s := by
  unfold State.focus
  rw [if_pos ⟨h, hr⟩]

/-- The strand of a handle becomes the issuing one. -/
theorem State.focus_me {s : State} (hu : s.uniqueKeys) {k : Nat} {o : Strand} (h : s.strand k = some o) : (s.focus k).me = o := by
  obtain ⟨hm, hk, hr⟩ := State.strand_some h
  by_cases hme : s.me.key = k ∧ s.me.run ≠ .empty
  · rw [State.focus_of_me hme.1 hme.2]
    exact hu.eq (List.mem_cons_self) hm (hme.1.trans hk.symm)
  · have ho : o ∈ s.others := by
      rcases List.mem_cons.1 hm with rfl | ho
      · exact (hme ⟨hk, hr⟩).elim
      · exact ho
    have hs : (s.others.find? fun o => decide (o.key = k)).isSome = true := by
      rw [List.find?_isSome]
      exact ⟨o, ho, by simp [hk]⟩
    obtain ⟨x, hx⟩ := Option.isSome_iff_exists.1 hs
    have hxo : x = o := hu.eq (List.mem_cons_of_mem _ (List.mem_of_find?_eq_some hx)) hm
      ((by simpa using List.find?_some hx : x.key = k).trans hk.symm)
    unfold State.focus
    rw [if_neg hme, hx]
    exact hxo

/-! ## Changing a strand -/

/-- The strand has a handle, and its slot is not empty. -/
def present (j : Nat) (o : Strand) : Bool := decide (o.key = j) && !decide (o.run = .empty)

theorem present_iff {j : Nat} {o : Strand} : present j o = true ↔ o.key = j ∧ o.run ≠ .empty := by simp [present]

/-- The issuing strand where it has the handle, else the first other one that has. -/
theorem State.strand_eq (s : State) (j : Nat) : s.strand j = if present j s.me = true then some s.me else s.others.find? (present j) := by
  show (s.me :: s.others).find? (present j) = _
  rw [List.find?_cons]
  cases present j s.me <;> rfl

theorem present_of_keeps {g : Strand → Strand} (hk : ∀ o, (g o).key = o.key) (hr : ∀ o, (g o).run = .empty ↔ o.run = .empty) (j : Nat) :
    present j ∘ g = present j := by
  funext o
  simp [present, hk, hr]

/-- A change of a strand that keeps its handle and its presence: what it makes of the strand of every handle. -/
theorem State.strand_upd (s : State) (k : Nat) (f : Strand → Strand) (hk : ∀ o, (f o).key = o.key)
    (hr : ∀ o, (f o).run = .empty ↔ o.run = .empty) (j : Nat) :
    (s.upd k f).strand j = (s.strand j).map fun o => if o.key = k then f o else o := by
  have hg : present j ∘ (fun o : Strand => if o.key = k then f o else o) = present j := by
    refine present_of_keeps (fun o => ?_) (fun o => ?_) j
    · split
      · exact hk o
      · rfl
    · split
      · exact hr o
      · rfl
  have hm : present j s.me = true → (s.upd k f).me = if s.me.key = k then f s.me else s.me := fun h => by
    simp [(present_iff.1 h).2]
  have hp : present j (s.upd k f).me = present j s.me := by
    rw [State.upd_me]
    split
    · simp [present, hk, hr]
    · rfl
  rw [State.strand_eq, State.strand_eq, hp, State.upd_others, List.find?_map, hg]
  split
  · rw [hm (by assumption)]; rfl
  · rfl

theorem State.strand_congr {s t : State} (hm : t.me = s.me) (ho : t.others = s.others) (k : Nat) : t.strand k = s.strand k := by
  unfold State.strand State.strands
  rw [hm, ho]

/-! ## Deliveries to a strand -/

/-- The strand without what deliveries change: its inbound queues, their counts of lost words, and its inbox. -/
def Strand.undelivered (o : Strand) : Strand :=
  { o with q5 := [], q7 := [], q8 := [], qin := Vector.replicate 4 [], lost := Vector.replicate 16 0, ovf := false, inbox := [] }

theorem undelivered_enterWord (q : Nat) (w : Word) (o : Strand) : (enterWord q w o).undelivered = o.undelivered := by
  unfold enterWord
  split
  · rfl
  · rfl
  · rfl
  · split <;> rfl

theorem undelivered_dropNotice8 (o : Strand) : (dropNotice8 o).undelivered = o.undelivered := rfl

theorem undelivered_drainItems (l : List InItem) (o : Strand) : (drainItems l o).1.undelivered = o.undelivered := by
  induction l generalizing o with
  | nil => rfl
  | cons i l ih =>
    unfold drainItems
    extract_lets q
    split
    · rw [ih, undelivered_enterWord]
    · split
      · rw [ih, undelivered_dropNotice8]
      · exact ih o

/-- Held deliveries that enter change a strand's inbound queues alone (11 R333). -/
theorem undelivered_drainInbox (o : Strand) : (drainInbox o).undelivered = o.undelivered := undelivered_drainItems o.inbox o

theorem drainInbox_sid (o : Strand) : (drainInbox o).sid = o.sid := (congrArg Strand.sid (undelivered_drainInbox o) :)
theorem drainInbox_key (o : Strand) : (drainInbox o).key = o.key := (congrArg Strand.key (undelivered_drainInbox o) :)
theorem drainInbox_run (o : Strand) : (drainInbox o).run = o.run := (congrArg Strand.run (undelivered_drainInbox o) :)

/-- An empty inbox leaves a strand as it is. -/
theorem drainInbox_nil {o : Strand} (h : o.inbox = []) : drainInbox o = o := by
  cases o
  cases h
  rfl

/-- Whose turn it is changes neither the clock nor any strand. -/
@[simp] theorem State.focus_tick (s : State) (k : Nat) : (s.focus k).tick = s.tick := by
  unfold State.focus
  split
  · rfl
  · split <;> rfl

end Sys2Proof.Machine
end

section
/-! Rules of bundles that complete with the strand's registers kept, and of bundles that park. -/

namespace Sys2Proof.Machine

open Sys2Proof

/-- Two strands agree in what `completedAs` compares: the register files, the clause and the run state. -/
structure alike (o x : Strand) : Prop where
  lo : x.lo = o.lo
  inG : x.inG = o.inG
  outG : x.outG = o.outG
  v : x.v = o.v
  k : x.k = o.k
  h : x.h = o.h
  run : x.run = o.run
  lcount : x.lcount = o.lcount
  armed : x.armed = o.armed

theorem alike.self {o : Strand} : alike o o := ⟨.refl _, .refl _, .refl _, .refl _, .refl _, .refl _, .refl _, .refl _, .refl _⟩

theorem alike.g {o x : Strand} (h : alike o x) (r : R5) : x.g r = o.g r := by
  unfold Strand.g
  rw [h.lo, h.inG, h.outG]

theorem alike.vr {o x : Strand} (h : alike o x) (r : R5) : x.vr r = o.vr r := by
  unfold Strand.vr
  rw [h.v]

theorem alike.kr {o x : Strand} (h : alike o x) (r : K3) : x.kr r = o.kr r := by
  unfold Strand.kr
  rw [h.k]

/-- What a write to a g register keeps. -/
theorem Strand.setG_eq (o : Strand) (r : R5) (x : Word) :
    ∃ l i u, o.setG r x = { o with lo := l, inG := i, outG := u } := by
  unfold Strand.setG
  split
  · exact ⟨_, _, _, rfl⟩
  · split
    · exact ⟨_, _, _, rfl⟩
    · split
      · exact ⟨_, _, _, rfl⟩
      · exact ⟨_, _, _, rfl⟩

theorem alike.setG {o x : Strand} (h : alike o x) (d : R5) (w : Word) : alike (o.setG d w) (x.setG d w) := by
  obtain ⟨hlo, hin, hout, hv, hk, hh, hr, hl, ha⟩ := h
  unfold Strand.setG
  split
  · exact ⟨hlo, hin, hout, hv, hk, hh, hr, hl, ha⟩
  · split
    · exact ⟨by rw [hlo], hin, hout, hv, hk, hh, hr, hl, ha⟩
    · split
      · exact ⟨hlo, by rw [hin], hout, hv, hk, hh, hr, hl, ha⟩
      · exact ⟨hlo, hin, by rw [hout], hv, hk, hh, hr, hl, ha⟩

/-! ## What ends a bundle -/

/-- The end of a bundle changes the PC and the clause alone. -/
theorem clauseEnd_eq (o x : Strand) : ∃ pc n a, clauseEnd o x = { x with pc := pc, lcount := n, armed := a } := by
  unfold clauseEnd
  split
  · split
    · exact ⟨_, _, _, rfl⟩
    · exact ⟨_, _, _, rfl⟩
  · exact ⟨_, _, _, rfl⟩

/-- The PC and the clause after a bundle depend on those before it (01 R36). -/
theorem clauseEnd_clause (o x y : Strand) (hl : x.lcount = y.lcount) (ha : x.armed = y.armed) :
    (clauseEnd o x).pc = (clauseEnd o y).pc ∧ (clauseEnd o x).lcount = (clauseEnd o y).lcount ∧
      (clauseEnd o x).armed = (clauseEnd o y).armed := by
  unfold clauseEnd
  split
  · split
    · exact ⟨rfl, rfl, rfl⟩
    · exact ⟨rfl, rfl, ha⟩
  · exact ⟨rfl, hl, ha⟩

theorem clauseEnd_g (o x : Strand) (r : R5) : (clauseEnd o x).g r = x.g r := by
  obtain ⟨_, _, _, h⟩ := clauseEnd_eq o x; rw [h]; rfl
theorem clauseEnd_vr (o x : Strand) (r : R5) : (clauseEnd o x).vr r = x.vr r := by
  obtain ⟨_, _, _, h⟩ := clauseEnd_eq o x; rw [h]; rfl
theorem clauseEnd_kr (o x : Strand) (r : K3) : (clauseEnd o x).kr r = x.kr r := by
  obtain ⟨_, _, _, h⟩ := clauseEnd_eq o x; rw [h]; rfl
theorem clauseEnd_h (o x : Strand) : (clauseEnd o x).h = x.h := by
  obtain ⟨_, _, _, h⟩ := clauseEnd_eq o x; rw [h]
theorem clauseEnd_run (o x : Strand) : (clauseEnd o x).run = x.run := by
  obtain ⟨_, _, _, h⟩ := clauseEnd_eq o x; rw [h]
theorem clauseEnd_key (o x : Strand) : (clauseEnd o x).key = x.key := by
  obtain ⟨_, _, _, h⟩ := clauseEnd_eq o x; rw [h]

/-- The run state after a bundle depends on that before it (01 R16). -/
theorem settle_clauseEnd_run (n m : Nat) (o x y : Strand) (h : x.run = y.run) :
    (settle n (clauseEnd o x)).run = (settle m (clauseEnd o y)).run := by
  show (if _ then RunState.follower else RunState.ready) = if _ then _ else _
  rw [clauseEnd_run, clauseEnd_run, h]

/-! ## Completed and parked bundles -/

/-- A bundle that completes with the registers kept. -/
theorem completedAs_of_alike {s t : State} {n : Nat} {x : Strand} (ht : t.me = settle n (clauseEnd s.me x)) (h : alike s.me x) :
    completedAs s t := by
  obtain ⟨hpc, hl, ha⟩ := clauseEnd_clause s.me x s.me h.lcount h.armed
  unfold completedAs
  rw [ends_me, ht]
  exact ⟨hpc, hl, ha, fun r => (clauseEnd_g _ _ r).trans (h.g r), fun r => (clauseEnd_vr _ _ r).trans (h.vr r),
    fun r => (clauseEnd_kr _ _ r).trans (h.kr r), (clauseEnd_h _ _).trans h.h, settle_clauseEnd_run _ _ _ _ _ h.run, rfl⟩

/-- A bundle that completes with one g register written. -/
theorem completedWith_of_alike {s t : State} {n : Nat} {x : Strand} {d : R5} {w : Word} (ht : t.me = settle n (clauseEnd s.me (x.setG d w)))
    (h : alike s.me x) : completedWith s t d w := by
  obtain ⟨l, i, u, hg⟩ := x.setG_eq d w
  obtain ⟨hpc, hl, ha⟩ := clauseEnd_clause s.me (x.setG d w) s.me (by rw [hg]; exact h.lcount) (by rw [hg]; exact h.armed)
  unfold completedWith
  rw [ends_me, ht]
  refine ⟨hpc, hl, ha, fun r => (clauseEnd_g _ _ r).trans ((h.setG d w).g r), fun r => (clauseEnd_vr _ _ r).trans ?_,
    fun r => (clauseEnd_kr _ _ r).trans ?_, (clauseEnd_h _ _).trans ?_, settle_clauseEnd_run _ _ _ _ _ ?_, rfl⟩
  · rw [hg]; exact h.vr r
  · rw [hg]; exact h.kr r
  · rw [hg]; exact h.h
  · rw [hg]; exact h.run

/-- A parked bundle leaves the strand at its PC with its registers (01 R16, R17). -/
theorem parkedAs_parkMe {s s1 : State} {p : Park} (hm : s1.me = s.me) (hmem : s1.mem = s.mem) (hp : p ≠ .none) (hb : p ≠ .brk) :
    parkedAs s (s1.parkMe p) := by
  have hme : (s1.parkMe p).me =
      { s.me with run := if s.me.run = .follower then .follower else .parked, park := p, turn := s1.tick + 8 } := by
    simp [State.parkMe, hb, hm]
  unfold parkedAs
  rw [hme, State.parkMe_mem _ _ hb, hmem]
  refine ⟨rfl, ?_, hp, fun _ => rfl, fun _ => rfl, fun _ => rfl, rfl⟩
  dsimp only
  by_cases hf : s.me.run = .follower
  · exact .inr ⟨hf, by rw [if_pos hf]⟩
  · exact .inl (by rw [if_neg hf])

/-- A syllable that waits parks its bundle. -/
theorem issueA_parks {f : Syl} {s : State} {p : Park} (h : canIssue s) (hf : f s.begin.me s.begin = .park s.begin p) (hp : p ≠ .none)
    (hb : p ≠ .brk) : ∃ t, issueA f s = .next t ∧ parkedAs s t :=
  ⟨_, issueA_park h hf, parkedAs_parkMe (State.begin_me s) (State.begin_mem s) hp hb⟩

end Sys2Proof.Machine
end

section
/-! Rules of a freeze: what becomes of the strand that freezes, and of the strands that wait at GANG for it. -/

namespace Sys2Proof.Machine

open Sys2Proof

/-! ## The strand that freezes -/

theorem freezeRec_cases (s : State) (o : Strand) (r : Raise) (b : Bool) (qa : Option Q4) (x : Strand) :
    freezeRec s o r b qa x = frozenStrand x r b (bundleAt s o) (qa.orElse fun _ => heldQa s o) ∨
      freezeRec s o r b qa x =
        { frozenStrand x r b (bundleAt s o) (qa.orElse fun _ => heldQa s o) with run := .frozenPending, since := s.tick } := by
  unfold freezeRec
  extract_lets f
  split
  · exact .inr rfl
  · exact .inl rfl

@[simp] theorem freezeRec_key (s : State) (o : Strand) (r : Raise) (b : Bool) (qa : Option Q4) (x : Strand) :
    (freezeRec s o r b qa x).key = x.key := by
  obtain h | h := freezeRec_cases s o r b qa x <;> rw [h] <;> rfl
@[simp] theorem freezeRec_gang (s : State) (o : Strand) (r : Raise) (b : Bool) (qa : Option Q4) (x : Strand) :
    (freezeRec s o r b qa x).gang = x.gang := by
  obtain h | h := freezeRec_cases s o r b qa x <;> rw [h] <;> rfl
@[simp] theorem freezeRec_pair (s : State) (o : Strand) (r : Raise) (b : Bool) (qa : Option Q4) (x : Strand) :
    (freezeRec s o r b qa x).pair = x.pair := by
  obtain h | h := freezeRec_cases s o r b qa x <;> rw [h] <;> rfl
@[simp] theorem freezeRec_gangReq (s : State) (o : Strand) (r : Raise) (b : Bool) (qa : Option Q4) (x : Strand) :
    (freezeRec s o r b qa x).gangReq = none := by
  obtain h | h := freezeRec_cases s o r b qa x <;> rw [h] <;> rfl
@[simp] theorem freezeRec_cause (s : State) (o : Strand) (r : Raise) (b : Bool) (qa : Option Q4) (x : Strand) :
    (freezeRec s o r b qa x).frz.cause = r.cause := by
  obtain h | h := freezeRec_cases s o r b qa x <;> rw [h] <;> rfl
@[simp] theorem freezeRec_pc (s : State) (o : Strand) (r : Raise) (b : Bool) (qa : Option Q4) (x : Strand) :
    (freezeRec s o r b qa x).pc = x.pc := by
  obtain h | h := freezeRec_cases s o r b qa x <;> rw [h] <;> rfl
@[simp] theorem freezeRec_g (s : State) (o : Strand) (r : Raise) (b : Bool) (qa : Option Q4) (x : Strand) (d : R5) :
    (freezeRec s o r b qa x).g d = x.g d := by
  obtain h | h := freezeRec_cases s o r b qa x <;> rw [h] <;> rfl

theorem freezeRec_run (s : State) (o : Strand) (r : Raise) (b : Bool) (qa : Option Q4) (x : Strand) :
    (freezeRec s o r b qa x).run = .frozen ∨ (freezeRec s o r b qa x).run = .frozenPending := by
  obtain h | h := freezeRec_cases s o r b qa x
  · exact .inl (by rw [h]; rfl)
  · exact .inr (by rw [h])

@[simp] theorem freezeRec_isFrozen (s : State) (o : Strand) (r : Raise) (b : Bool) (qa : Option Q4) (x : Strand) :
    (freezeRec s o r b qa x).isFrozen = true := by
  obtain h | h := freezeRec_run s o r b qa x <;> simp [Strand.isFrozen, h]

theorem freezeRec_present (s : State) (o : Strand) (r : Raise) (b : Bool) (qa : Option Q4) (x : Strand) :
    (freezeRec s o r b qa x).run ≠ .empty := by
  obtain h | h := freezeRec_run s o r b qa x <;> simp [h]

/-- A strand whose umpire has its frame, or that has none, is Frozen. -/
theorem freezeRec_of_served {s : State} {o : Strand} (r : Raise) (b : Bool) (qa : Option Q4) (x : Strand)
    (h : ¬(o.attached = true ∧ ∃ p ∈ s.pools, p.pend.contains o.key = true)) :
    freezeRec s o r b qa x = frozenStrand x r b (bundleAt s o) (qa.orElse fun _ => heldQa s o) := by
  unfold freezeRec
  rw [if_neg]
  simpa [List.any_eq_true] using h

/-- A strand whose umpire still waits for a frame is Frozen, pending (11 R319, R332). -/
theorem freezeRec_of_pending {s : State} {o : Strand} (r : Raise) (b : Bool) (qa : Option Q4) (x : Strand)
    (h : o.attached = true ∧ ∃ p ∈ s.pools, p.pend.contains o.key = true) :
    freezeRec s o r b qa x =
      { frozenStrand x r b (bundleAt s o) (qa.orElse fun _ => heldQa s o) with run := .frozenPending, since := s.tick } := by
  unfold freezeRec
  rw [if_pos]
  simpa [List.any_eq_true] using h

/-! ## One freeze -/

/-- The freeze of a strand that is in no pair: its record, and an umpire called unless one is attached (11 R315, R317). -/
theorem freezeOne_eq {s : State} {k : Nat} {o : Strand} (h : s.strand k = some o) (hp : o.pair = none) (r : Raise) (b : Bool)
    (qa : Option Q4) : s.freezeOne k r b qa =
      if o.attached then freezeRecords (s.upd k (freezeRec s o r b qa)) o r
      else (freezeRecords (s.upd k (freezeRec s o r b qa)) o r).later (.umpireSpawn k) := by
  simp only [State.freezeOne, h, hp]

theorem freezeOne_noRecords {s : State} {k : Nat} {o : Strand} (h : s.strand k = some o) (hp : o.pair = none) (r : Raise) (b : Bool)
    (qa : Option Q4) : (s.freezeOne k r b qa).noRecords = (s.upd k (freezeRec s o r b qa)).noRecords := by
  rw [freezeOne_eq h hp]
  split <;> simp

theorem freezeOne_me {s : State} {k : Nat} {o : Strand} (h : s.strand k = some o) (hp : o.pair = none) (r : Raise) (b : Bool)
    (qa : Option Q4) :
    (s.freezeOne k r b qa).me = if s.me.key = k ∧ s.me.run ≠ .empty then freezeRec s o r b qa s.me else s.me :=
  ((congrArg State.me (freezeOne_noRecords h hp r b qa) :)).trans (State.upd_me ..)

theorem freezeOne_others {s : State} {k : Nat} {o : Strand} (h : s.strand k = some o) (hp : o.pair = none) (r : Raise) (b : Bool)
    (qa : Option Q4) :
    (s.freezeOne k r b qa).others = s.others.map fun x => if x.key = k then freezeRec s o r b qa x else x :=
  ((congrArg State.others (freezeOne_noRecords h hp r b qa) :)).trans (State.upd_others ..)

/-- After a freeze every strand is as it was, or has the handle and is frozen. -/
theorem freezeOne_strands {s : State} {k : Nat} {o y : Strand} (h : s.strand k = some o) (hp : o.pair = none) (r : Raise) (b : Bool)
    (qa : Option Q4) (hy : y ∈ (s.freezeOne k r b qa).strands) :
    ∃ x ∈ s.strands, y = x ∨ x.key = k ∧ y = freezeRec s o r b qa x := by
  rcases List.mem_cons.1 hy with rfl | hy
  · refine ⟨s.me, List.mem_cons_self, ?_⟩
    rw [freezeOne_me h hp]
    split
    · rename_i hk
      exact .inr ⟨hk.1, rfl⟩
    · exact .inl rfl
  · rw [freezeOne_others h hp, List.mem_map] at hy
    obtain ⟨x, hx, rfl⟩ := hy
    refine ⟨x, List.mem_cons_of_mem _ hx, ?_⟩
    split
    · rename_i hk
      exact .inr ⟨hk, rfl⟩
    · exact .inl rfl

/-- What becomes of a strand when the strand of a handle freezes. -/
theorem mem_freezeOne {s : State} {k : Nat} {o x : Strand} (h : s.strand k = some o) (hp : o.pair = none) (r : Raise) (b : Bool)
    (qa : Option Q4) (hx : x ∈ s.strands) (he : x.run ≠ .empty) :
    (if x.key = k then freezeRec s o r b qa x else x) ∈ (s.freezeOne k r b qa).strands := by
  rcases List.mem_cons.1 hx with rfl | hx
  · refine List.mem_cons.2 (.inl ?_)
    simp [freezeOne_me h hp, he]
  · refine List.mem_cons_of_mem _ ?_
    rw [freezeOne_others h hp]
    exact List.mem_map.2 ⟨x, hx, rfl⟩

/-- A freeze leaves handles as they are. -/
theorem freezeOne_uniqueKeys {s : State} {k : Nat} {o : Strand} (h : s.strand k = some o) (hp : o.pair = none) (r : Raise) (b : Bool)
    (qa : Option Q4) (hu : s.uniqueKeys) : (s.freezeOne k r b qa).uniqueKeys := by
  have hm : (s.freezeOne k r b qa).me.key = s.me.key := by
    rw [freezeOne_me h hp]
    split <;> simp
  have ho : (s.freezeOne k r b qa).others.map (·.key) = s.others.map (·.key) := by
    rw [freezeOne_others h hp, List.map_map]
    congr 1
    funext x
    simp only [Function.comp_apply]
    split <;> simp
  unfold State.uniqueKeys State.strands at hu ⊢
  rw [List.map_cons, hm, ho]
  exact hu

/-! ## The strands that wait at GANG -/

/-- The freezes of strands that wait at GANG, one after another: what each keeps, all keep (01 R41). -/
theorem failFormers_keeps {P : State → Prop} (hu : ∀ s, P s → s.gangsUnpaired)
    (hP : ∀ s k x, P s → s.strand k = some x → x.gangReq.isSome = true → x.pair = none →
      P (s.freezeOne k (Raise.of Cause.gangFormFailed) false none)) :
    ∀ (n : Nat) (keys : List Nat) (s : State), P s → P (s.failFormers n keys)
  | 0, _, _, h => h
  | n + 1, keys, s, h => by
    unfold State.failFormers
    refine List.foldlRecOn keys _ h fun u hP' k _ => ?_
    split
    · exact hP'
    · rename_i x hx
      split
      · exact hP'
      · rename_i hr
        have hr : x.gangReq.isSome = true := by simpa [Option.isSome_iff_ne_none] using hr
        exact failFormers_keeps hu hP n _ _ (hP u k x hP' hx hr (hu u hP' x (State.strand_some hx).1 hr))

/-- Freezing a strand makes no pair of those that wait at GANG. -/
theorem freezeOne_gangsUnpaired {s : State} {k : Nat} {o : Strand} (h : s.strand k = some o) (hp : o.pair = none) (r : Raise) (b : Bool)
    (qa : Option Q4) (hu : s.gangsUnpaired) : (s.freezeOne k r b qa).gangsUnpaired := by
  intro y hy hr
  obtain ⟨x, hx, rfl | ⟨_, rfl⟩⟩ := freezeOne_strands h hp r b qa hy
  · exact hu _ hx hr
  · simp at hr

/-- No strand of the handle waits at GANG. -/
def State.askless (s : State) (k : Nat) : Prop := ∀ x ∈ s.strands, x.key = k → x.run ≠ .empty → x.gangReq = none

/-- What the freezes of strands that wait at GANG keep of the strands of a handle none of which waits there. -/
structure sameOf (s : State) (k : Nat) (t : State) : Prop where
  unpaired : t.gangsUnpaired
  askless : t.askless k
  me : s.me.key = k → t.me = s.me
  others : ∀ o ∈ t.others, o.key = k → o ∈ s.others

theorem failFormers_sameOf {s : State} {k : Nat} (hu : s.gangsUnpaired) (ha : s.askless k) (n : Nat) (keys : List Nat) :
    sameOf s k (s.failFormers n keys) := by
  refine failFormers_keeps (P := sameOf s k) (fun _ h => h.unpaired) ?_ n keys s ⟨hu, ha, fun _ => rfl, fun _ h _ => h⟩
  intro u j x ⟨hun, hau, hme, hot⟩ hx hr hp
  have hj : j ≠ k := by
    rintro rfl
    obtain ⟨hm, hk, he⟩ := State.strand_some hx
    simp [hau x hm hk he] at hr
  refine ⟨freezeOne_gangsUnpaired hx hp _ _ _ hun, ?_, ?_, ?_⟩
  · intro y hy hk he
    obtain ⟨z, hz, rfl | ⟨_, rfl⟩⟩ := freezeOne_strands hx hp _ _ _ hy
    · exact hau _ hz hk he
    · simp
  · intro hk
    rw [freezeOne_me hx hp, if_neg (fun h => hj (by rw [← h.1, hme hk, hk]))]
    exact hme hk
  · intro y hy hk
    rw [freezeOne_others hx hp, List.mem_map] at hy
    obtain ⟨z, hz, rfl⟩ := hy
    by_cases hzj : z.key = j
    · rw [if_pos hzj, freezeRec_key] at hk
      exact (hj (hzj.symm.trans hk)).elim
    · rw [if_neg hzj] at hk ⊢
      exact hot z hz hk

/-- The freezes of strands that wait at GANG form no gang. -/
theorem failFormers_gang {s : State} {u : Nat} (hu : s.gangsUnpaired) (hg : ∀ o ∈ s.strands, o.gang ≠ some u) (n : Nat) (keys : List Nat) :
    ∀ o ∈ (s.failFormers n keys).strands, o.gang ≠ some u := by
  refine (failFormers_keeps (P := fun t => t.gangsUnpaired ∧ ∀ o ∈ t.strands, o.gang ≠ some u) (fun _ h => h.1) ?_ n keys s ⟨hu, hg⟩).2
  intro t k x ⟨hun, hgt⟩ hx _ hp
  refine ⟨freezeOne_gangsUnpaired hx hp _ _ _ hun, fun y hy => ?_⟩
  obtain ⟨z, hz, rfl | ⟨_, rfl⟩⟩ := freezeOne_strands hx hp _ _ _ hy
  · exact hgt _ hz
  · rw [freezeRec_gang]; exact hgt z hz

/-- The strand of a handle waits at GANG, or has failed to form its gang. -/
structure formFails (failed : Bool) (k : Nat) (s : State) : Prop where
  unique : s.uniqueKeys
  unpaired : s.gangsUnpaired
  strand : ∃ y, s.strand k = some y ∧
    (failed = false ∧ y.gangReq.isSome = true ∨ y.gangReq = none ∧ y.isFrozen = true ∧ y.frz.cause = Cause.gangFormFailed)

/-- One more failure: of another strand, or of the strand itself. -/
theorem formFails_freezeOne {f : Bool} {k j : Nat} {s : State} {x : Strand} (h : formFails f k s) (hx : s.strand j = some x)
    (hp : x.pair = none) : formFails (f || decide (j = k)) k (s.freezeOne j (Raise.of Cause.gangFormFailed) false none) := by
  obtain ⟨hu, hun, y, hy, hc⟩ := h
  refine ⟨freezeOne_uniqueKeys hx hp _ _ _ hu, freezeOne_gangsUnpaired hx hp _ _ _ hun, ?_⟩
  obtain ⟨hm, hk, he⟩ := State.strand_some hy
  have hmem := mem_freezeOne hx hp (Raise.of Cause.gangFormFailed) false none hm he
  have hu' := freezeOne_uniqueKeys hx hp (Raise.of Cause.gangFormFailed) false none hu
  by_cases hj : y.key = j
  · rw [if_pos hj] at hmem
    refine ⟨_, by simpa [hk] using hu'.strand hmem (freezeRec_present s x _ false none y), .inr ?_⟩
    exact ⟨freezeRec_gangReq .., freezeRec_isFrozen .., freezeRec_cause ..⟩
  · rw [if_neg hj] at hmem
    refine ⟨y, by simpa [hk] using hu'.strand hmem he, ?_⟩
    have : j ≠ k := fun h => hj (hk.trans h.symm)
    simpa [this] using hc

theorem formFails_failFormers {f : Bool} {k : Nat} (n : Nat) (keys : List Nat) {s : State} (h : formFails f k s) :
    formFails f k (s.failFormers n keys) := by
  refine failFormers_keeps (P := formFails f k) (fun _ h => h.unpaired) ?_ n keys s h
  intro u j x hu hx _ hp
  have h' := formFails_freezeOne hu hx hp
  obtain ⟨h1, h2, y, hy, hc⟩ := h'
  refine ⟨h1, h2, y, hy, ?_⟩
  rcases hc with ⟨hf, hr⟩ | hc
  · exact .inl ⟨by simpa using (Bool.or_eq_false_iff.1 hf).1, hr⟩
  · exact .inr hc

/-- A strand that waits at GANG freezes, and with it those that wait for it (01 R41). -/
def State.failFormer (n : Nat) (s : State) (k : Nat) : State :=
  match s.strand k with
  | none => s
  | some x =>
    if x.gangReq.isNone then s
    else State.failFormers n (gangWaiters s x) (s.freezeOne k (Raise.of Cause.gangFormFailed) false none)

theorem failFormers_succ (n : Nat) (keys : List Nat) (s : State) : s.failFormers (n + 1) keys = keys.foldl (State.failFormer n) s := rfl

theorem formFails_failFormer {f : Bool} {k : Nat} (n j : Nat) {s : State} (h : formFails f k s) :
    formFails (f || decide (j = k)) k (s.failFormer n j) := by
  unfold State.failFormer
  split
  · rename_i hn
    by_cases hj : j = k
    · obtain ⟨y, hy, _⟩ := h.strand
      rw [hj, hy] at hn
      cases hn
    · simpa [hj] using h
  · rename_i x hx
    split
    · rename_i hr
      by_cases hj : j = k
      · obtain ⟨hu, hun, y, hy, hc⟩ := h
        rw [hj, hy] at hx
        cases hx
        refine ⟨hu, hun, x, hy, .inr ?_⟩
        rcases hc with ⟨_, hs⟩ | hc
        · simp [Option.isNone_iff_eq_none.1 hr] at hs
        · exact hc
      · simpa [hj] using h
    · rename_i hr
      have hr : x.gangReq.isSome = true := by simpa [Option.isSome_iff_ne_none] using hr
      exact formFails_failFormers n _ (formFails_freezeOne h hx (h.unpaired x (State.strand_some hx).1 hr))

/-- Every strand of the list that waits at GANG fails to form its gang (01 R41). -/
theorem failFormers_fails (n : Nat) {k : Nat} {keys : List Nat} {s : State} (h : formFails false k s) (hk : k ∈ keys) :
    formFails true k (s.failFormers (n + 1) keys) := by
  rw [failFormers_succ]
  induction keys generalizing s with
  | nil => cases hk
  | cons j keys ih =>
    rw [List.foldl_cons]
    by_cases hj : j = k
    · have h' : formFails true k (s.failFormer n j) := by simpa [hj] using formFails_failFormer n j h
      exact List.foldlRecOn keys _ h' fun u hu i _ => by simpa using formFails_failFormer n i hu
    · have h' : formFails false k (s.failFormer n j) := by simpa [hj] using formFails_failFormer n j h
      exact ih h' ((List.mem_cons.1 hk).resolve_left (Ne.symm hj))

end Sys2Proof.Machine
end

section
/-! Rules of bytes and words of memory: reading back what a store wrote. -/

namespace Sys2Proof.Machine

open Sys2Proof

theorem natLE_length : ∀ n x : Nat, (natLE n x).length = n
  | 0, _ => rfl
  | n + 1, x => congrArg (· + 1) (natLE_length n (x / 256))

/-- The bytes of a number give it back (00 R6). -/
theorem leNat_natLE : ∀ n x : Nat, leNat (natLE n x) = x % 256 ^ n
  | 0, x => by simp [natLE, leNat, Nat.mod_one]
  | n + 1, x => by
    have hm : (BitVec.ofNat 8 (x % 256)).toNat = x % 256 := by rw [BitVec.toNat_ofNat]; omega
    rw [natLE, leNat, leNat_natLE n, hm, pow_succ', Nat.mod_mul]

theorem mgetN_eq_map (m : List Host.Cell) (a n : Nat) : mgetN m a n = (List.range n).map fun i => mget m (a + i) := by
  induction n generalizing a with
  | zero => rfl
  | succ n ih =>
    rw [mgetN, ih, List.range_succ_eq_map, List.map_cons, List.map_map]
    simp only [Function.comp_def, Nat.add_zero, Nat.succ_eq_add_one, Nat.add_assoc, Nat.add_comm 1]

/-- Bytes of memory. -/
theorem State.bytes_mem (s : State) (k n : Nat) : s.bytes (.mem k) n = mgetN s.mem k n := by
  induction n generalizing k with
  | zero => rfl
  | succ n ih =>
    rw [State.bytes, mgetN]
    exact congrArg _ (ih (k + 1))

/-- Part of what a store wrote reads back. -/
theorem mgetN_msetN_part {m : List Host.Cell} {k i n : Nat} {bs : List Byte} (hm : Memory.wf m = true) (h : i + n ≤ bs.length) :
    mgetN (msetN m k bs) (k + i) n = (bs.drop i).take n := by
  rw [mgetN_eq_map]
  refine List.ext_getElem (by simp; omega) fun j hj _ => ?_
  have hj : j < n := by simpa using hj
  rw [List.getElem_map, List.getElem_range, Nat.add_assoc, mget_msetN_in (i + j) hm (by omega), List.getElem_take, List.getElem_drop,
    List.getD_eq_getElem?_getD, List.getElem?_eq_getElem (by omega)]
  rfl

theorem State.word_eq (s : State) (k : Nat) : s.word k = BitVec.ofNat 64 (leNat (mgetN s.mem k 8)) := by
  unfold State.word State.loadNat
  rw [State.bytes_mem]

theorem State.loadNat_mem (s : State) (k n : Nat) : s.loadNat (.mem k) n = leNat (mgetN s.mem k n) := by
  unfold State.loadNat
  rw [State.bytes_mem]

/-- A word among the bytes that a store wrote. -/
theorem State.word_put {s : State} {k i : Nat} {bs : List Byte} {x : Word} (hm : s.memWf) (h : i + 8 ≤ bs.length)
    (hx : (bs.drop i).take 8 = natLE 8 x.toNat) : (s.put (.mem k) bs).word (k + i) = x := by
  rw [State.word_eq, State.put_mem]
  show BitVec.ofNat 64 (leNat (mgetN (msetN s.mem k bs) (k + i) 8)) = x
  rw [mgetN_msetN_part hm h, hx, leNat_natLE]
  apply BitVec.eq_of_toNat_eq
  rw [BitVec.toNat_ofNat, Nat.mod_eq_of_lt (show x.toNat % 256 ^ 8 < 2 ^ 64 from Nat.mod_lt _ (by decide))]
  exact Nat.mod_eq_of_lt x.isLt

/-- A word that is stored reads back. -/
theorem State.loadNat_putNat {s : State} {k n x : Nat} (hm : s.memWf) : (s.putNat (.mem k) n x).loadNat (.mem k) n = x % 256 ^ n := by
  unfold State.putNat
  rw [State.loadNat_mem, State.put_mem]
  show leNat (mgetN (msetN s.mem k (natLE n x)) k n) = _
  have h := mgetN_msetN_part (k := k) (i := 0) (n := n) (bs := natLE n x) hm (by rw [natLE_length]; omega)
  rw [Nat.add_zero, List.drop_zero, List.take_of_length_le (by rw [natLE_length])] at h
  rw [h, leNat_natLE]

end Sys2Proof.Machine
end

section
/-! Branches, jumps and repeat clauses (01 R36; 06 R186-R188, R192). -/

namespace Sys2Proof.Machine

open Sys2Proof

/-- Where a completed bundle leaves the PC, and what it leaves alone (01 R36, 05 R142). -/
theorem ends_pc_and_frame (s : State) (f : Strand → Strand) :
    let o := s.me
    let t := ends s f
    (¬(o.armed = true ∧ o.susp = false ∧ o.pc = o.lend) → t.me.pc = o.pc + 8) ∧
    t.me.turn = s.tick + 8 ∧ t.me.park = .none ∧ t.mem = s.mem ∧ t.others = s.others ∧ t.homes = s.homes ∧ t.fw = s.fw := by
  intro o t
  have ht : t = _ := ends_eq s f
  refine ⟨fun h => ?_, ?_⟩
  · rw [ht, clauseEnd_of_not_end _ h]; rfl
  · rw [ht]; exact ⟨rfl, rfl, rfl, rfl, rfl, rfl⟩

theorem immScaled_eight {n : Nat} (i : Imm n) : immScaled 8 i = 8 * immVal i := rfl

/-- A conditional branch goes on, or to its target, or freezes inside a clause (06 R186). -/
theorem issueA_branch (a b : R5) (off : Imm 15) (c : Word → Word → Bool) {s : State} (h : canIssue s) :
    issueA (branch a b off c) s = .next
      (if c (s.me.g a) (s.me.g b) then
        (if s.me.armed && !s.me.susp then s.begin.freezeMe (Raise.of Cause.clauseControl) false none
          else s.begin.complete s.begin.me (.jump (s.me.pc + 8 * immVal off)))
        else ends s id) := by
  rw [issueA_eq _ h]
  unfold branch
  simp only [State.begin_me, Strand.inClause, immScaled_eight]
  split
  · split
    · rfl
    · simp [State.finish]
  · rfl

/-- A jump that no clause forbids ends as `f` of the state (06 R187). -/
theorem finish_unless_clause (s : State) (out : SylOut) :
    s.begin.finish false (if s.begin.me.inClause then frz s.begin Cause.clauseControl else out) =
      if s.me.armed && !s.me.susp then s.begin.freezeMe (Raise.of Cause.clauseControl) false none else s.begin.finish false out := by
  simp only [State.begin_me, Strand.inClause]
  split <;> rfl

theorem exec_j (off : Imm 25) {s : State} (h : canIssue s) :
    exec (.j off) s = .next (if s.me.armed && !s.me.susp then s.begin.freezeMe (Raise.of Cause.clauseControl) false none
      else s.begin.complete s.begin.me (.jump (s.me.pc + 8 * immVal off))) := by
  rw [show exec (.j off) s = issueA (sylJ off) s from rfl, issueA_eq _ h, sylJ, finish_unless_clause]
  simp [State.finish, immScaled_eight]

theorem exec_jl (d : R5) (off : Imm 12) {s : State} (h : canIssue s) :
    exec (.jl d off) s = .next (if s.me.armed && !s.me.susp then s.begin.freezeMe (Raise.of Cause.clauseControl) false none
      else (s.begin.wg d (s.me.pc + 8)).complete s.begin.me (.jump (s.me.pc + 8 * immVal off))) := by
  rw [show exec (.jl d off) s = issueA (sylJl d off) s from rfl, issueA_eq _ h, sylJl, finish_unless_clause]
  simp [State.finish, immScaled_eight]

theorem exec_jlr (d a : R5) (off : Imm 12) {s : State} (h : canIssue s) :
    exec (.jlr d a off) s = .next (if s.me.armed && !s.me.susp then s.begin.freezeMe (Raise.of Cause.clauseControl) false none
      else if (s.me.g a + 8 * immVal off).toNat % 8 ≠ 0 then s.begin.freezeMe (Raise.of Cause.pcMisaligned) false none
      else (s.begin.wg d (s.me.pc + 8)).complete s.begin.me (.jump (s.me.g a + 8 * immVal off))) := by
  rw [show exec (.jlr d a off) s = issueA (sylJlr d a off) s from rfl, issueA_eq _ h, sylJlr, finish_unless_clause]
  simp only [State.begin_me, immScaled_eight]
  split
  · rfl
  · split
    · rfl
    · simp [State.finish]

/-- A jump leaves the PC at its target, the registers as they were and no fetch line that holds the target (06 R187, R188). -/
theorem jump_completes (s : State) (t : Word) :
    let u := s.begin.complete s.begin.me (.jump t)
    u.me.pc = t ∧ u.me.turn = s.tick + 8 ∧ (∀ r, u.me.g r = s.me.g r) ∧ (∀ r, u.me.vr r = s.me.vr r) ∧ u.others = s.others ∧
      ∀ k, fetchPlace s.begin s.begin.me t = .inl k → ∀ a bs, (u.core s.me.core).line = some (a, bs) → a ≠ k / 64 := by
  intro u
  have hu : u = ((s.begin.dropLine s.begin.me t).traceOf s.begin.me 1 t).setMe fun x => settle s.begin.tick { x with pc := t } := rfl
  have hm : u.me = settle s.tick { s.me with pc := t } := by simp [hu]
  refine ⟨by rw [hm]; rfl, by rw [hm]; rfl, fun r => by rw [hm]; rfl, fun r => by rw [hm]; rfl, by simp [hu], fun k hk a bs ha => ?_⟩
  refine s.begin.dropLine_line s.begin.me t k a bs hk ?_
  rw [← ha, show s.begin.me.core = s.me.core by rw [State.begin_me]]
  exact ((s.begin.dropLine s.begin.me t).core_traceOf s.begin.me 1 t s.me.core).line.symm

/-- Settles O4: each jump and branch by the shared form of its answer, the rest from `complete`. -/
theorem pcBranchesAndJumps : Obligations.PcBranchesAndJumps := by
  refine ⟨ends_pc_and_frame, fun s d a b off off25 off12 h => ?_, jump_completes⟩
  intro x y go stop br
  exact ⟨issueA_branch a b off _ h, issueA_branch a b off _ h, issueA_branch a b off _ h, issueA_branch a b off _ h,
    issueA_branch a b off _ h, issueA_branch a b off _ h, exec_j off25 h, exec_jl d off12 h, exec_jlr d a off12 h⟩

/-! ## Repeat clauses -/

/-- REP with a count of 0 passes its body (01 R36). -/
theorem complete_rep_zero (s : State) (o : Strand) (len : Nat) :
    (s.complete o (.rep 0 len)).me = settle s.tick { s.me with pc := o.pc + 8 + BitVec.ofNat 64 (8 * len) } := rfl

/-- REP with another count arms the clause (01 R36). -/
theorem complete_rep_ne (s : State) (o : Strand) {n : Word} (len : Nat) (hn : n ≠ 0) :
    (s.complete o (.rep n len)).me = settle s.tick { s.me with
      pc := o.pc + 8, lstart := o.pc + 8, lend := o.pc + BitVec.ofNat 64 (8 * len), lcount := n, armed := true } := by
  show settle s.tick (if n = 0 then _ else _) = _
  rw [if_neg hn]

/-- Settles O6: REP by `complete_rep`, the end of an iteration by `clauseEnd`. -/
theorem repeatClauses : Obligations.RepeatClauses := by
  intro s a count lenm1 h o len
  refine ⟨fun ha n i hi => ?_, fun f => ?_⟩
  · have hx : exec i s = .next (s.begin.complete s.begin.me (.rep n (lenm1.toNat + 1))) := by
      rcases hi with ⟨rfl, rfl⟩ | ⟨rfl, rfl⟩
      · exact issueA_ok h (by simp [sylRepRegister, show s.me.armed = false from ha, o])
      · exact issueA_ok h (by simp [sylRepImmediate, show s.me.armed = false from ha])
    refine ⟨_, hx, fun hn => ?_, fun hn => ?_⟩
    · subst hn
      rw [complete_rep_zero, State.begin_me]
      exact ⟨rfl, ha⟩
    · rw [complete_rep_ne _ _ _ hn, State.begin_me]
      exact ⟨rfl, rfl, rfl, rfl, rfl⟩
  · intro t atEnd
    have ht : t.me = settle s.tick (clauseEnd o (f o)) := ends_me s f
    refine ⟨issueA_ok h rfl, fun hn => ?_, fun he hc => ?_, fun he hc => ?_⟩
    · rw [ht, clauseEnd_of_not_end _ hn]; rfl
    · rw [ht, clauseEnd_of_end _ he, if_neg (by omega)]; exact ⟨rfl, rfl⟩
    · rw [ht, clauseEnd_of_end _ he, if_pos hc]; exact ⟨rfl, rfl, rfl⟩

end Sys2Proof.Machine
end

section
/-! The state at cold reset, and the frame of the register instructions. -/

namespace Sys2Proof.Machine

open Sys2Proof

/-- Every link is up at cold reset (17 R441). -/
theorem link_reset {n : Nat} (hn : n < 114) : State.reset.link n = Link.up := by
  show (Vector.replicate 114 Link.up).getD n Link.up = Link.up
  simp [Vector.getD, hn]

/-- Settles O57: the counters by their values at reset, links and cores by their blank records. -/
theorem valuesAtReset : Obligations.ValuesAtReset := by
  refine ⟨rfl, rfl, rfl, rfl, rfl, rfl, rfl, rfl, rfl, rfl, rfl, rfl, rfl, rfl, fun n hn => ?_, fun n => ⟨rfl, rfl⟩, fun d hd => ?_, ?_⟩
  · rw [link_reset hn]; exact ⟨rfl, rfl, rfl⟩
  · show (Vector.replicate 4 1).getD d 0 = 1
    simp [Vector.getD, hd]
  · decide

end Sys2Proof.Machine
end

section
/-! The frame of the register instructions of the scalar slot (06 R177-R185). -/

namespace Sys2Proof.Machine

open Sys2Proof

/-! ## Registers and event counters -/

theorem Strand.g_zero (o : Strand) : o.g 0 = 0 := rfl

theorem Vector.getD_setIfInBounds_ne {α : Type} {n i j : Nat} (v : Vector α n) (x d : α) (h : i ≠ j) :
    (v.setIfInBounds i x).getD j d = v.getD j d := by
  simp [Vector.getD, Array.getD_eq_getD_getElem?, h]

/-- A write to a g register leaves every other one (01 R21). -/
theorem Strand.g_setG_ne (o : Strand) {r q : R5} (x : Word) (h : q ≠ r) : (o.setG r x).g q = o.g q := by
  have hn : r.toNat ≠ q.toNat := fun e => h (BitVec.eq_of_toNat_eq e.symm)
  unfold Strand.setG
  split
  · rfl
  all_goals (try split)
  all_goals (try split)
  all_goals
    unfold Strand.g
    dsimp only
    repeat' split
  all_goals first | rfl | exact Vector.getD_setIfInBounds_ne _ _ _ (by omega)

theorem Strand.count_ev_ne (o : Strand) {i j : Nat} (n : Nat) (h : i ≠ j) : (o.count i n).ev.getD j 0 = o.ev.getD j 0 :=
  Vector.getD_setIfInBounds_ne _ _ _ h

/-- The events that a register instruction may count: divisions by zero and clamps (06 R178, R179). -/
def Evs.scalar (dz sat : Nat) : Evs := { Evs.zero with dz := dz, sat := sat }

theorem Strand.count_none (o : Strand) (i : Nat) : o.count i 0 = o := o.count_zero i

theorem Strand.tally_scalar (o : Strand) (dz sat : Nat) : o.tally (Evs.scalar dz sat) = (o.count 1 dz).count 6 sat := by
  simp [Strand.tally, Evs.scalar, Evs.zero, Strand.count_none]

theorem Strand.tally_zero (o : Strand) : o.tally Evs.zero = o := by
  simp [Strand.tally, Evs.zero, Strand.count_none]

/-! ## What a register instruction answers -/

/-- The syllable writes register `d` and counts in EVDZ and EVSAT alone. -/
def writesScalar (d : R5) (f : Syl) : Prop :=
  ∀ o s, ∃ x dz sat, f o s = .ok (s.setMe fun o => (o.setG d x).tally (Evs.scalar dz sat)) .next

theorem writesScalar_retG (d : R5) (f : Strand → Word) : writesScalar d fun o s => retG s d (f o) := fun o s =>
  ⟨f o, 0, 0, by show _ = SylOut.ok (s.setMe fun o => Strand.tally _ Evs.zero) _; simp only [Strand.tally_zero]; rfl⟩

theorem writesScalar_rr (d a b : R5) (f : Word → Word → Word) : writesScalar d (rr d a b f) :=
  writesScalar_retG d fun o => f (o.g a) (o.g b)

theorem writesScalar_r1 (d a : R5) (f : Word → Word) : writesScalar d (r1 d a f) := writesScalar_retG d fun o => f (o.g a)

theorem writesScalar_divResult (d a b : R5) (z : Word → Word) (f : Word → Word → Word) : writesScalar d (divResult d a b z f) := by
  intro o s
  unfold divResult
  split
  · exact ⟨_, 1, 0, rfl⟩
  · exact writesScalar_rr d a b f o s

theorem writesScalar_satResult (d : R5) (x : Strand → Int) : writesScalar d fun o s => satResult d (x o) o s := by
  intro o s
  unfold satResult
  dsimp only
  split
  · exact ⟨_, 0, 0, rfl⟩
  · exact ⟨_, 0, 1, rfl⟩

theorem writesScalar_sat (d a b : R5) (sat : Bool) (f : Word → Word → Word) (x : Strand → Int) :
    writesScalar d (if sat then fun o s => satResult d (x o) o s else rr d a b f) := by
  cases sat
  · exact writesScalar_rr d a b f
  · exact writesScalar_satResult d x

/-- Each register instruction runs a syllable that writes its destination (06 R177-R185). -/
theorem exec_scalar : ∀ (i : Instr) (d : R5), scalarDest i = some d → ∃ f, writesScalar d f ∧ ∀ s, exec i s = issueA f s := by
  intro i d h
  cases i
  case add | sub | mul => cases h; exact ⟨_, writesScalar_sat _ _ _ _ _ _, fun _ => rfl⟩
  case mulh | mulhu | and | or | xor | andn | orn | sll | srl | sra | rol | ror | min | max | minu | maxu | slt | sltu | seq | sne
      | adds =>
    cases h; exact ⟨_, writesScalar_rr _ _ _ _, fun _ => rfl⟩
  case div | divu | rem | remu => cases h; exact ⟨_, writesScalar_divResult _ _ _ _ _, fun _ => rfl⟩
  case clz | ctz | popc | brev | bswap | addi | andi | ori | xori | slli | srli | srai | slti | sltui | extr | extru =>
    cases h; exact ⟨_, writesScalar_r1 _ _ _, fun _ => rfl⟩
  case sel => cases h; exact ⟨_, writesScalar_retG _ _, fun _ => rfl⟩
  case lui | lit | lith | addpc | insr => cases h; exact ⟨_, writesScalar_retG _ _, fun _ => rfl⟩
  all_goals (cases h)

/-- What ends a bundle leaves of a strand: all but the PC, the clause and the state of waiting. -/
theorem settle_clauseEnd_eq (t : Nat) (o x : Strand) :
    ∃ pc n a, settle t (clauseEnd o x) = settle t { x with pc := pc, lcount := n, armed := a } := by
  obtain ⟨pc, n, a, h⟩ := clauseEnd_eq o x
  exact ⟨pc, n, a, by rw [h]⟩

/-- The strand after a register instruction, but for the clause and its registers. -/
def scalarKept (o m : Strand) : Prop :=
  m.k = o.k ∧ m.v = o.v ∧ m.h = o.h ∧ (∀ j, j ≠ 1 → j ≠ 6 → m.ev.getD j 0 = o.ev.getD j 0) ∧ m.fpmode = o.fpmode ∧ m.win = o.win ∧
    m.qin = o.qin ∧ m.qout = o.qout ∧ m.q4 = o.q4 ∧ m.q6 = o.q6 ∧ m.wsp = o.wsp ∧ m.nepc = o.nepc ∧ m.frz = o.frz

theorem scalarKept_setG_tally (o : Strand) (d : R5) (x : Word) (dz sat : Nat) :
    scalarKept o ((o.setG d x).tally (Evs.scalar dz sat)) := by
  obtain ⟨l, i, u, h⟩ := o.setG_eq d x
  rw [Strand.tally_scalar, h]
  refine ⟨rfl, rfl, rfl, fun j h1 h6 => ?_, rfl, rfl, rfl, rfl, rfl, rfl, rfl, rfl, rfl⟩
  rw [Strand.count_ev_ne _ _ h6.symm, Strand.count_ev_ne _ _ h1.symm]

/-- Settles O56: every register instruction ends its bundle with one g register written and events counted. -/
theorem registerInstructionsFrame : Obligations.RegisterInstructionsFrame := by
  intro s i d hd h
  obtain ⟨f, hf, he⟩ := exec_scalar i d hd
  obtain ⟨x, dz, sat, hx⟩ := hf s.begin.me s.begin
  refine ⟨_, (he s).trans (issueA_ends f _ s h hx), ?_⟩
  have hk := scalarKept_setG_tally s.me d x dz sat
  have hg : ∀ q, q ≠ d → ((s.me.setG d x).tally (Evs.scalar dz sat)).g q = s.me.g q := fun q hq => by
    rw [Strand.tally_scalar]
    exact s.me.g_setG_ne x hq
  rw [ends_eq]
  dsimp only
  generalize (s.me.setG d x).tally (Evs.scalar dz sat) = y at hk hg ⊢
  obtain ⟨pc, n, a, hc⟩ := settle_clauseEnd_eq s.tick s.me y
  obtain ⟨hk, hv, hh, hev, hfp, hwin, hqi, hqo, h4, h6, hw, hn, hz⟩ := hk
  rw [hc]
  exact ⟨hg, rfl, hk, hv, hh, hev, hfp, hwin, hqi, hqo, h4, h6, hw, hn, hz, fun _ => rfl, rfl, rfl, rfl, rfl, rfl, rfl, rfl, rfl, rfl⟩

end Sys2Proof.Machine
end

section
/-! A step of a strand whose turn has come runs the instruction that its bundle decodes to (01 R14, 05 R142, 06 R188). -/

namespace Sys2Proof.Machine

open Sys2Proof

/-- A bundle with one idle syllable: the other one is the instruction (05 R142). -/
theorem bundlePair_eq (i : Instr) : bundlePair i = (.anop, i) ∨ bundlePair i = (i, .vnop) := by
  unfold bundlePair
  split
  case h_79 => exact .inr rfl
  all_goals exact .inl rfl

theorem isSyllable_of_bundlePair {i a b : Instr} (h : bundlePair i = (a, b)) (ha : isSyllable a) (hb : isSyllable b) : isSyllable i := by
  rcases bundlePair_eq i with e | e
  · rw [e] at h; cases h; exact hb
  · rw [e] at h; cases h; exact ha

/-- The next strand is one of those whose turn has come. -/
theorem nextStrand_mem {s : State} {o : Strand} (h : nextStrand s = some o) : o ∈ s.strands ∧ due s o = true := by
  have key : ∀ (l : List Strand) (b : Option Strand), (∀ x, b = some x → x ∈ s.strands ∧ due s x = true) →
      (∀ x ∈ l, x ∈ s.strands ∧ due s x = true) →
      l.foldl (fun b o => match b with
        | none => some o
        | some x => if sooner o x then some o else b) b = some o → o ∈ s.strands ∧ due s o = true := by
    intro l
    induction l with
    | nil => exact fun b hb _ h => hb o h
    | cons x l ih =>
      intro b hb hl h
      refine ih _ (fun y hy => ?_) (fun y hy => hl y (List.mem_cons_of_mem _ hy)) h
      have hx := hl x List.mem_cons_self
      dsimp only at hy
      split at hy
      · cases hy; exact hx
      · split at hy
        · cases hy; exact hx
        · exact hb y hy
  exact key _ none (fun _ h => by cases h) (fun x hx => List.mem_filter.1 hx) h

/-- The turn of a strand with nothing else due issues its bundle (01 R14). -/
theorem turnOf_issues {s : State} {o : Strand} (hr : o.run = .ready) (hs : (s.core o.core).stopped = false) (hg : gangNoticeDue s o = false)
    (hn : noticeDue o = false) (hp : o.park ≠ .steal) (hm : o.ganged = false) :
    turnOf o s = .next ((issue (s.focus o.key)).strokeDone o) := by
  unfold turnOf bundleTurn
  rw [if_neg (by simp [hr]), if_neg (by simp [hs]), if_neg (by simp [hg]), if_neg (by simp [hn]), if_neg hp, if_neg (by simp [hm])]
  rfl

/-- A strand in no gang and no pair issues its own bundle alone. -/
theorem issue_alone {s : State} (hg : s.me.gang = none) (hp : s.me.pairLead = false) : issue s = issueOne s := by
  have h : s.gangOf s.me = none := by simp [State.gangOf, hg]
  unfold issue
  simp [h, hp]

/-- A fetched and decoded bundle (06 R188, 05 R146). -/
theorem fetchDecode_run {s : State} {k : Nat} {a b : Instr} (hk : fetchPlace s s.me s.me.pc = .inl k) (hw : fetchWaits s s.me.core k = false)
    (hp : s.poisonIn (.mem k) 8 = none)
    (hd : decodeBundle (isCompute s.me.core) (isCox s.me.core) ((fetchWord (s.noteFetch k) s.me.core k).1 % 2 ^ 32)
      ((fetchWord (s.noteFetch k) s.me.core k).1 / 2 ^ 32) = .good a b) :
    fetchDecode s = .run (fetchWord (s.noteFetch k) s.me.core k).2 a b := by
  unfold fetchDecode
  simp only [hk, hw, hp, hd]
  rfl

/-- Settles O54: the step is the turn of the strand, and its bundle's meaning that of `exec`. -/
theorem stepRunsDecodedInstruction : Obligations.StepRunsDecodedInstruction := by
  intro s o k a b i hpow hag hnw hu hns hrun hstop hgn hnd hpark hgd hg hpl s1 f hk hw hpo hdec hpair ha hb hfp
  obtain ⟨hmem, -⟩ := nextStrand_mem hns
  have hme : (s.focus o.key).me = o := State.focus_me hu (hu.strand hmem (by rw [hrun]; decide))
  have hcore : s1.me.core = o.core := by
    show coreOf (drainInbox (s.focus o.key).me).sid = coreOf o.sid
    rw [drainInbox_sid, hme]
  have hf : fetchDecode s1 = .run f.2 a b := by
    have := fetchDecode_run (s := s1) hk (by rw [hcore]; exact hw) hpo (by rw [hcore]; exact hdec)
    rw [this, hcore]
  have hex : exec i f.2 = .next (runBundle a b f.2) := by
    have := exec_isBundle i (isSyllable_of_bundlePair hpair ha hb) f.2
    rw [isBundle, hpair] at this
    exact this
  have hi : issue (s.focus o.key) = noteFp64 o.key b (runBundle a b f.2) := by
    rw [issue_alone (by rw [hme]; exact hg) (by rw [hme]; exact hpl)]
    have hsp : spaced (s.focus o.key) b = false := by
      unfold spaced
      rw [hme, State.focus_tick]
      cases hb : isFp64 b with
      | false => rfl
      | true => simp [hfp hb]
    show (match fetchDecode s1 with
      | .stop s2 r b => s2.freezeMe r b none
      | .wait s2 => s2.parkMe .turn
      | .run s2 a b => if spaced (s.focus o.key) b then s2.parkMe .turn else noteFp64 (s.focus o.key).me.key b (runBundle a b s2)) = _
    rw [hf]
    simp only [hsp, hme]
    rfl
  refine ⟨_, hex, ?_⟩
  unfold step State.advance State.happen
  rw [if_pos hpow, hag]
  simp only [hnw, hns, turnOf_issues hrun hstop hgn hnd hpark hgd, hi]
  rfl

end Sys2Proof.Machine
end

section
/-! Queue words and their status (01 R25, R26; 10 R289, R290, R292). -/

namespace Sys2Proof.Machine

open Sys2Proof

/-- A push of a word to a mesh channel with room (01 R26, 10 R289). -/
theorem State.pushQ_mesh {s : State} {o : Strand} {q : Q4} {w : Word} (hq : q.toNat < 4) (h : (s.me.qout.getD q.toNat []).length < 16) :
    s.pushQ o q [w] = some ((s.setMe fun x => { x with qout := x.qout.setIfInBounds q.toNat (s.me.qout.getD q.toNat [] ++ [w]) }).later
      (.meshWordArrival o.key q)) := by
  unfold State.pushQ
  split
  · omega
  · omega
  · rw [if_neg (by simpa using h)]
    rfl

/-- QPUSH answers as its queue takes the word (10 R289). -/
theorem sylQpush_eq {s s1 : State} {o : Strand} {q : Q4} {a : R5} (hc : queueCause o true q = none) (hp : s.pushQ o q [o.g a] = some s1) :
    sylQpush q a o s = .ok s1 .next := by
  simp only [sylQpush, hc, hp]

theorem sylQpop_eq {s s1 : State} {o : Strand} {q : Q4} {d : R5} {ws : List Word} (hc : queueCause o false q = none)
    (hp : s.popQ o q 1 = some (ws, s1)) (hb : poisonedPop o q 1 = none) : sylQpop d q o s = retG s1 d (ws.headD 0) := by
  simp only [sylQpop, hc, hp, hb]

/-- A pop of q5 takes its oldest word (01 R25). -/
theorem State.popQ_five {s : State} {x : Word} {l : List Word} (h : s.me.q5 = x :: l) :
    s.popQ s.me 5 1 = some ([x], s.setMe (dropWords 5 1)) := by
  have hw : inWords s.me 5 = x :: l := h
  have he : popsEcho s.me 5 = false := rfl
  unfold State.popQ
  rw [he, hw]
  rfl

theorem exec_qpush (q : Q4) (a : R5) (s : State) : exec (.qpush q a) s = issueA (sylQpush q a) s := rfl
theorem exec_qpop (d : R5) (q : Q4) (s : State) : exec (.qpop d q) s = issueA (sylQpop d q) s := rfl

/-- What a completed bundle leaves in a queue that its syllable changed. -/
theorem complete_next_me (s : State) (o : Strand) : (s.complete o .next).me = settle s.tick (clauseEnd o s.me) := rfl

theorem Vector.getD_setIfInBounds_self {α : Type} {n i : Nat} (v : Vector α n) (x d : α) (h : i < n) :
    (v.setIfInBounds i x).getD i d = x := by
  simp [Vector.getD, Array.getD_eq_getD_getElem?, h]

/-- A push to a mesh channel of this core appends the word (01 R26). -/
theorem exec_qpush_mesh {s : State} {q : Q4} {a : R5} (h : canIssue s) (hq : q.toNat < 4) (hc : queueCause s.me true q = none)
    (hl : (s.me.qout.getD q.toNat []).length < 16) :
    ∃ t, exec (.qpush q a) s = .next t ∧ completedAs s t ∧ t.me.qout.getD q.toNat [] = s.me.qout.getD q.toNat [] ++ [s.me.g a] ∧
      t.mem = s.mem := by
  have hp := State.pushQ_mesh (s := s.begin) (o := s.begin.me) (q := q) (w := s.begin.me.g a) hq (by rw [State.begin_me]; exact hl)
  refine ⟨_, issueA_ok h (sylQpush_eq (by rw [State.begin_me]; exact hc) hp), ?_⟩
  have hm := complete_next_me ((s.begin.setMe fun x => { x with qout := x.qout.setIfInBounds q.toNat (s.begin.me.qout.getD q.toNat [] ++
    [s.begin.me.g a]) }).later (.meshWordArrival s.begin.me.key q)) s.begin.me
  rw [State.later_me, State.setMe_me, State.begin_me] at hm
  rw [State.begin_me]
  refine ⟨completedAs_of_alike hm ⟨rfl, rfl, rfl, rfl, rfl, rfl, rfl, rfl, rfl⟩, ?_, State.begin_mem s⟩
  obtain ⟨_, _, _, he⟩ := clauseEnd_eq s.me { s.me with qout := s.me.qout.setIfInBounds q.toNat (s.me.qout.getD q.toNat [] ++ [s.me.g a]) }
  rw [hm, he]
  exact Vector.getD_setIfInBounds_self _ _ _ hq

/-- A pop of q5 takes its oldest word (01 R25). -/
theorem exec_qpop_five {s : State} {d : R5} {x : Word} {l : List Word} (h : canIssue s) (hq : s.me.q5 = x :: l)
    (hb : poisonedPop s.me 5 1 = none) :
    ∃ t, exec (.qpop d 5) s = .next t ∧ completedWith s t d x ∧ t.me.q5 = l ∧ t.mem = s.mem := by
  have hp : s.begin.popQ s.begin.me 5 1 = _ := State.popQ_five (s := s.begin) (by rw [State.begin_me]; exact hq)
  refine ⟨_, issueA_ok h (sylQpop_eq (d := d) rfl hp (by rw [State.begin_me]; exact hb)), ?_⟩
  have hm := complete_next_me ((s.begin.setMe (dropWords 5 1)).wg d x) s.begin.me
  rw [State.wg_me, State.setMe_me, State.begin_me] at hm
  rw [State.begin_me]
  refine ⟨completedWith_of_alike hm ⟨rfl, rfl, rfl, rfl, rfl, rfl, rfl, rfl, rfl⟩, ?_, State.begin_mem s⟩
  · obtain ⟨_, _, _, he⟩ := clauseEnd_eq s.me ((dropWords 5 1 s.me).setG d x)
    obtain ⟨_, _, _, hg⟩ := (dropWords 5 1 s.me).setG_eq d x
    refine (congrArg Strand.q5 hm).trans ?_
    rw [he, hg]
    exact (congrArg (List.drop 1) hq :)

/-- QSTAT answers a queue's status and clears what was lost (10 R292). -/
theorem exec_qstat {s : State} {q : Q4} (d : R5) (h : canIssue s) :
    (q.toNat < 11 → exec (.qstat d q) s = .next (ends s fun o => (clearStatus q.toNat o).setG d (queueStatus s.me q.toNat))) ∧
    (11 ≤ q.toNat → exec (.qstat d q) s = .next (s.begin.freezeMe (Raise.of Cause.queueReserved) false none)) := by
  constructor
  · intro hq
    refine issueA_ends _ _ s h ?_
    rw [sylQstat, if_neg (by omega), State.begin_me]
    rfl
  · intro hq
    exact issueA_freeze h (by rw [sylQstat, if_pos hq]; rfl)

theorem queueStatus_five (o : Strand) : queueStatus o 5 = BitVec.ofNat 64 (16 * 2 ^ 16 + o.q5.length) := by
  unfold queueStatus
  rw [if_neg (by omega)]
  simp [statDepth, statOut, statIn, inWords]

theorem queueStatus_eight (o : Strand) : queueStatus o 8 =
    BitVec.ofNat 64 ((o.lost.getD 8 0).toNat * 2 ^ 32 + (if o.ovf then 2 ^ 24 else 0) + 16 * 2 ^ 16 + o.q8.length) := by
  unfold queueStatus
  rw [if_neg (by omega)]
  simp [statDepth, statOut, statIn, inWords]

/-- Settles O20: QPUSH and QPOP by what their queue answers, QSTAT from the status words. -/
theorem queueWordsAndStatus : Obligations.QueueWordsAndStatus := by
  refine ⟨fun s q a d h => ?_, fun s q d h => ⟨(exec_qstat d h).1, (exec_qstat d h).2, fun _ => queueStatus_five _, fun _ => queueStatus_eight _⟩⟩
  intro o
  have ho : o = s.me := State.begin_me s
  refine ⟨fun c hc => ?_, fun c hc => ?_, fun s1 hc hp => ?_, fun hc hp => ?_, fun hq hc hl => ?_, fun ws s1 hc hp hb => ?_,
    fun x l hq h5 hb => ?_, fun hc hp => ?_⟩
  · exact issueA_freeze h (by simp only [sylQpush, show queueCause s.begin.me true q = some c from hc]; rfl)
  · exact issueA_freeze h (by simp only [sylQpop, show queueCause s.begin.me false q = some c from hc]; rfl)
  · exact issueA_ok h (sylQpush_eq hc (by rw [← hp, show o.g a = s.me.g a from by rw [ho]]))
  · refine issueA_parks h (p := .poll) ?_ (by decide) (by decide)
    rw [ho] at hc hp
    simp only [sylQpush, State.begin_me, hc, hp]
  · exact exec_qpush_mesh h hq (by rw [← ho]; exact hc) hl
  · exact issueA_ok h (sylQpop_eq hc hp hb)
  · subst hq
    exact exec_qpop_five h h5 (by rw [← ho]; exact hb)
  · refine issueA_parks h (p := .poll) ?_ (by decide) (by decide)
    rw [ho] at hc hp
    simp only [sylQpop, State.begin_me, hc, hp]

end Sys2Proof.Machine
end

section
/-! Leaving a notice's handler, waiting and yielding (01 R30-R32; 10 R312-R314). -/

namespace Sys2Proof.Machine

open Sys2Proof

/-! ## The shadow registers -/

theorem Vector.getD_ofFn {α : Type} {n : Nat} (f : Fin n → α) (d : α) {i : Nat} (h : i < n) : (Vector.ofFn f).getD i d = f ⟨i, h⟩ := by
  simp [Vector.getD, Array.getD_eq_getD_getElem?, h]

theorem swapShadow_lo_low (o : Strand) {i : Nat} (h : i < 8) : (swapShadow o).lo.getD i 0 = o.lo.getD i 0 := by
  unfold swapShadow
  rw [Vector.getD_ofFn _ _ (by omega), if_pos h]

theorem swapShadow_lo_high (o : Strand) {i : Nat} (h : i < 8) : (swapShadow o).lo.getD (8 + i) 0 = o.h.getD i 0 := by
  unfold swapShadow
  rw [Vector.getD_ofFn _ _ (by omega), if_neg (by dsimp only; omega), Nat.add_sub_cancel_left]

theorem swapShadow_h (o : Strand) {i : Nat} (h : i < 8) : (swapShadow o).h.getD i 0 = o.lo.getD (8 + i) 0 := by
  unfold swapShadow
  rw [Vector.getD_ofFn _ _ h, Nat.add_comm]

/-- g1-g15 are the low group (01 R21). -/
theorem Strand.g_of_lt (o : Strand) {r : R5} (h0 : r.toNat ≠ 0) (h : r.toNat < 16) : o.g r = o.lo.getD r.toNat 0 := by
  unfold Strand.g
  rw [if_neg h0, if_pos h]

theorem Strand.g_shadowed (o : Strand) {i : Nat} (h : i < 8) : o.g (BitVec.ofNat 5 (8 + i)) = o.lo.getD (8 + i) 0 := by
  have ht : (BitVec.ofNat 5 (8 + i)).toNat = 8 + i := by rw [BitVec.toNat_ofNat]; omega
  rw [o.g_of_lt (by omega) (by omega), ht]

/-- The exchange with the shadow registers reaches g8-g15 alone (01 R30). -/
theorem swapShadow_g_other (o : Strand) {r : R5} (h : r.toNat < 8 ∨ 16 ≤ r.toNat) : (swapShadow o).g r = o.g r := by
  unfold Strand.g
  split
  · rfl
  · split
    · exact swapShadow_lo_low o (by omega)
    · rfl

/-! ## The instructions -/

/-- The strand after NRET (10 R312). -/
def afterNret (n : Nat) (o : Strand) : Strand :=
  { settle n (swapShadow (clauseEnd o o)) with susp := false, nhbusy := false, pc := o.nepc }

theorem exec_nret {s : State} (h : canIssue s) (hb : s.me.nhbusy = true) :
    exec .nret s = .next (s.begin.setMe fun _ => afterNret s.tick s.me) := by
  rw [show exec .nret s = issueA sylNret s from rfl, issueA_eq _ h, sylNret, if_neg (by simp [hb])]
  simp only [State.finish, State.complete, State.setMe, State.begin_me, State.begin_tick, afterNret]

/-- The handler's registers go back to the shadow, the interrupted ones come back (01 R30, 10 R312). -/
theorem afterNret_regs (n : Nat) (o : Strand) :
    (∀ i : Fin 8, (afterNret n o).g (BitVec.ofNat 5 (8 + i.val)) = o.h.getD i.val 0 ∧
      (afterNret n o).h.getD i.val 0 = o.g (BitVec.ofNat 5 (8 + i.val))) ∧
    (∀ r : R5, r.toNat < 8 ∨ 16 ≤ r.toNat → (afterNret n o).g r = o.g r) := by
  obtain ⟨_, _, _, hc⟩ := clauseEnd_eq o o
  have hg : ∀ r, (afterNret n o).g r = (swapShadow o).g r := fun r => by unfold afterNret; rw [hc]; rfl
  have hh : (afterNret n o).h = (swapShadow o).h := by unfold afterNret; rw [hc]; rfl
  refine ⟨fun i => ⟨?_, ?_⟩, fun r hr => (hg r).trans (swapShadow_g_other o hr)⟩
  · rw [hg, Strand.g_shadowed _ i.isLt, swapShadow_lo_high o i.isLt]
  · rw [hh, swapShadow_h o i.isLt, Strand.g_shadowed _ i.isLt]

/-- WAIT goes on where an enabled source is pending (10 R313). -/
theorem sylWait_eq {o : Strand} {s : State} (hg : o.gang = none) (hm : o.nhmask.toNat % 32 ≠ 0) (hn : noticesOn o = true ∨ o.nhbusy = true) :
    sylWait o s = if enabledSources o ≠ 0 then .ok s .next else .park s .poll := by
  unfold sylWait
  rw [if_neg (by simp [Strand.ganged, hg]), if_neg]
  rcases hn with h | h <;> simp [hm, h]

/-- Settles O23: each instruction by its one path. -/
theorem noticesWaitingAndYielding : Obligations.NoticesWaitingAndYielding := by
  intro s h
  have hm := State.begin_me s
  refine ⟨fun hb => ?_, fun hb => ?_, fun hg hn hon => ⟨fun he => ?_, fun he => ?_⟩, fun hg => ?_, fun hg => ?_⟩
  · obtain ⟨hr, ho⟩ := afterNret_regs s.tick s.me
    exact ⟨_, exec_nret h hb, rfl, rfl, rfl, hr, ho, State.begin_mem s⟩
  · exact issueA_freeze h (by rw [sylNret, if_pos (by simp [hb])]; rfl)
  · exact issueA_ok h (by rw [sylWait_eq (by rw [hm]; exact hg) (by rw [hm]; exact hn) (by rw [hm]; exact hon), if_pos (by rw [hm]; exact he)]; rfl)
  · exact issueA_parks h (p := .poll) (by rw [sylWait_eq (by rw [hm]; exact hg) (by rw [hm]; exact hn) (by rw [hm]; exact hon),
      if_neg (by rw [hm, he]; simp)]) (by decide) (by decide)
  · exact issueA_ok h (by rw [sylYield, if_pos (by rw [hm]; exact hg)]; rfl)
  · refine (issueA_ok h (by rw [sylYield, if_neg (by rw [hm]; simp [Strand.ganged, hg])])).trans ?_
    rw [hm]

end Sys2Proof.Machine
end

section
/-! What taking a freeze records, changes and keeps (11 R315, R317, R329). -/

namespace Sys2Proof.Machine

open Sys2Proof

/-! ## The black box -/

/-- The black box of a die (18 R465). -/
def boxOf (die : Nat) : Nat := sram (if die < 4 then die else 0) (2 ^ 30 - 65536)

/-- Nothing of memory changes but in the black box of a die. -/
structure boxOnly (die : Nat) (s t : State) : Prop where
  outside : s.memWf → t.memWf ∧ sameMemOutside s t (boxOf die) 65536

theorem boxOnly.trans {die : Nat} {s t u : State} (h : boxOnly die s t) (h' : boxOnly die t u) : boxOnly die s u := ⟨fun hw =>
  have ⟨hw1, h1⟩ := h.outside hw
  have ⟨hw2, h2⟩ := h'.outside hw1
  ⟨hw2, fun a ha => (h2 a ha).trans (h1 a ha)⟩⟩

theorem boxOnly_of_mem {die : Nat} {s t : State} (h : t.mem = s.mem) : boxOnly die s t := ⟨fun hw =>
  ⟨by unfold State.memWf; rw [h]; exact hw, fun a _ => by rw [h]⟩⟩

theorem blockLine_mem (s : State) (line level ctx : Nat) : (s.blockLine line level ctx).mem = s.mem := by
  unfold State.blockLine
  extract_lets s1
  split
  · rfl
  · rfl

theorem record_in_box (b : Nat) {slot : Nat} (h : slot < 2048) : b ≤ b + slot * 32 ∧ b + slot * 32 + 32 ≤ b + 65536 := by omega

theorem boxOnly_put (s : State) (die : Nat) {k : Nat} {bs : List Byte} (hk : boxOf die ≤ k ∧ k + bs.length ≤ boxOf die + 65536) :
    boxOnly die s (s.put (.mem k) bs) := ⟨fun hw =>
  ⟨State.put_memWf _ bs hw, fun a h => State.put_outside _ bs hw a (by omega)⟩⟩

/-- A black-box record: a store in the black box of its die, and the counts of records (18 R465). -/
theorem blackBox_eq (s : State) (die typ code who ctx : Nat) (x : Word) : ∃ k bs f,
    (boxOf die ≤ k ∧ k + bs.length ≤ boxOf die + 65536) ∧ s.blackBox die typ code who ctx x = (s.put (.mem k) bs).setRas f := by
  unfold State.blackBox
  extract_lets d sev seq slot at0 bytes s1
  have hs : slot < 2048 := by unfold slot; split <;> omega
  have hb : bytes.length = 32 := by simp [bytes, natLE_length]
  have hk : boxOf die ≤ at0 ∧ at0 + bytes.length ≤ boxOf die + 65536 := by
    rw [hb]
    exact record_in_box (boxOf die) hs
  clear_value at0 bytes
  exact ⟨at0, bytes, _, hk, rfl⟩

theorem boxOnly_blackBox (s : State) (die typ code who ctx : Nat) (x : Word) : boxOnly die s (s.blackBox die typ code who ctx x) := by
  obtain ⟨k, bs, f, hk, h⟩ := blackBox_eq s die typ code who ctx x
  rw [h]
  exact (boxOnly_put s die hk).trans (boxOnly_of_mem (State.setRas_mem _ _))

theorem core_setRas (s : State) (f : Ras → Ras) (i : Nat) : (s.setRas f).core i = s.core i := rfl

theorem blackBox_trcOn (s : State) (die typ code who ctx : Nat) (x : Word) (i : Nat) :
    ((s.blackBox die typ code who ctx x).core i).trcOn = (s.core i).trcOn := by
  obtain ⟨k, bs, f, _, h⟩ := blackBox_eq s die typ code who ctx x
  have hr : ramsOnly (s.core i) ((s.put (.mem k) bs).core i) := s.core_put_mem k bs i
  rw [h]
  show ((s.put (.mem k) bs).core i).trcOn = _
  rw [hr]

/-- What a freeze records stands in the black box alone where the core's trace is off, and nowhere where the cause leaves no record there
(11 R315, 18 R465). -/
theorem mem_freezeRecords (s : State) (o : Strand) (r : Raise) (ht : (s.core o.core).trcOn = false) :
    boxOnly (dieOf o.core) s (freezeRecords s o r) ∧ (quietCause r.cause = true → (freezeRecords s o r).mem = s.mem) := by
  unfold freezeRecords
  extract_lets s1 s2 s3 s4
  have h1 : boxOnly (dieOf o.core) s s1 ∧ (s1.core o.core).trcOn = false ∧ (quietCause r.cause = true → s1.mem = s.mem) := by
    unfold s1
    split
    · exact ⟨boxOnly_of_mem rfl, ht, fun _ => rfl⟩
    · rename_i hq
      exact ⟨boxOnly_blackBox .., (blackBox_trcOn ..).trans ht, fun h => (hq h).elim⟩
  have h2 : boxOnly (dieOf o.core) s s2 ∧ (s2.core o.core).trcOn = false ∧ (quietCause r.cause = true → s2.mem = s.mem) := by
    unfold s2
    split
    · rename_i hm
      refine ⟨h1.1.trans ((boxOnly_blackBox ..).trans (boxOnly_of_mem (State.setRas_mem _ _))), ?_, ?_⟩
      · rw [core_setRas, blackBox_trcOn]
        exact h1.2.1
      · rw [hm]
        exact fun h => absurd h (by decide)
    · exact h1
  have h3 : boxOnly (dieOf o.core) s s3 ∧ (s3.core o.core).trcOn = false ∧ (quietCause r.cause = true → s3.mem = s.mem) := by
    unfold s3
    split
    · rw [core_setRas, State.setRas_mem]
      exact ⟨h2.1.trans (boxOnly_of_mem (State.setRas_mem _ _)), h2.2⟩
    · exact h2
  have h4 : s4 = s3 := s3.trace_of_off _ _ _ _ _ _ h3.2.1
  rw [h4]
  split
  · exact ⟨h3.1, h3.2.2⟩
  · have hb := blockLine_mem s3
    exact ⟨h3.1.trans (boxOnly_of_mem (hb ..)), fun h => (hb ..).trans (h3.2.2 h)⟩

/-! ## Taking a freeze -/

/-- The umpire attached to the issuing strand waits for its frame (11 R319). -/
def State.umpireWaits (s : State) : Prop := s.me.attached = true ∧ ∃ p ∈ s.pools, p.pend.contains s.me.key = true

theorem freezeKey_me_eq {s : State} (he : s.me.run ≠ .empty) (r : Raise) (b : Bool) (qa : Option Q4) :
    s.freezeKey s.me.key r b qa = (s.freezeOne s.me.key r b qa).failFormers 8 (gangWaiters s s.me) := by
  simp only [State.freezeKey, State.strand_me he]

theorem freezeMe_alone {s : State} (hg : s.gangOf s.me = none) (r : Raise) (b : Bool) (qa : Option Q4) :
    s.freezeMe r b qa = s.freezeKey s.me.key r b qa := by
  simp only [State.freezeMe, hg]

theorem gangWaiters_mem {s : State} {o : Strand} {k : Nat} (h : k ∈ gangWaiters s o) :
    ∃ x ∈ s.strands, x.key ≠ o.key ∧ x.run ≠ .empty ∧ x.gangReq.isSome = true ∧ x.key = k := by
  unfold gangWaiters at h
  split at h
  · cases h
  · obtain ⟨x, hx, rfl⟩ := List.mem_map.1 h
    obtain ⟨hm, hc⟩ := List.mem_filter.1 hx
    simp only [Bool.and_eq_true, Bool.not_eq_true', decide_eq_false_iff_not, decide_eq_true_eq] at hc
    obtain ⟨⟨⟨⟨⟨hk, _⟩, he⟩, _⟩, _⟩, hr⟩ := hc
    refine ⟨x, hm, hk, he, ?_, rfl⟩
    cases hq : x.gangReq with
    | none => rw [hq] at hr; cases hr
    | some => rfl

/-- The strand that freezes waits at GANG no more. -/
theorem freezeOne_askless {s : State} (he : s.me.run ≠ .empty) (hp : s.me.pair = none) (r : Raise) (b : Bool) (qa : Option Q4) :
    (s.freezeOne s.me.key r b qa).askless s.me.key := by
  intro x hx hk _
  have hs := State.strand_me he
  rcases List.mem_cons.1 hx with rfl | hx
  · rw [freezeOne_me hs hp, if_pos ⟨rfl, he⟩, freezeRec_gangReq]
  · rw [freezeOne_others hs hp, List.mem_map] at hx
    obtain ⟨y, _, rfl⟩ := hx
    split
    · exact freezeRec_gangReq ..
    · rename_i hn
      rw [if_neg hn] at hk
      exact (hn hk).elim

/-- The strand's record of its freeze, whoever else freezes with it (11 R315). -/
theorem freezeKey_me {s : State} (he : s.me.run ≠ .empty) (hp : s.me.pair = none) (hu : s.gangsUnpaired) (r : Raise) (b : Bool)
    (qa : Option Q4) : (s.freezeKey s.me.key r b qa).me = freezeRec s s.me r b qa s.me := by
  have hs := State.strand_me he
  have hm : (s.freezeOne s.me.key r b qa).me = freezeRec s s.me r b qa s.me := by rw [freezeOne_me hs hp, if_pos ⟨rfl, he⟩]
  rw [freezeKey_me_eq he]
  rw [(failFormers_sameOf (freezeOne_gangsUnpaired hs hp r b qa hu) (freezeOne_askless he hp r b qa) _ _).me (by rw [hm, freezeRec_key]), hm]

/-- Whoever waits at GANG for the strand fails to form its gang (01 R41). -/
theorem freezeKey_formers {s : State} (he : s.me.run ≠ .empty) (hp : s.me.pair = none) (hu : s.gangsUnpaired) (hq : s.uniqueKeys)
    (r : Raise) (b : Bool) (qa : Option Q4) {k : Nat} (hk : k ∈ gangWaiters s s.me) :
    ∃ y, (s.freezeKey s.me.key r b qa).strand k = some y ∧ y.isFrozen = true ∧ y.frz.cause = Cause.gangFormFailed := by
  have hs := State.strand_me he
  obtain ⟨x, hx, hne, he', hr, rfl⟩ := gangWaiters_mem hk
  have hm := mem_freezeOne hs hp r b qa hx he'
  rw [if_neg hne] at hm
  have hq' := freezeOne_uniqueKeys hs hp r b qa hq
  have hf := failFormers_fails 7 (keys := gangWaiters s s.me)
    ⟨hq', freezeOne_gangsUnpaired hs hp r b qa hu, x, hq'.strand hm he', .inl ⟨rfl, hr⟩⟩ hk
  rw [freezeKey_me_eq he]
  obtain ⟨_, _, y, hy, ⟨h, _⟩ | ⟨_, hz, hc⟩⟩ := hf
  · cases h
  · exact ⟨y, hy, hz, hc⟩

/-- Where nobody waits at GANG for the strand, it alone freezes. -/
theorem freezeKey_unasked {s : State} (he : s.me.run ≠ .empty) (hw : gangWaiters s s.me = []) (r : Raise) (b : Bool) (qa : Option Q4) :
    s.freezeKey s.me.key r b qa = s.freezeOne s.me.key r b qa := by
  rw [freezeKey_me_eq he, hw]; rfl

/-- Another strand that waits at no GANG stays as it is. -/
theorem freezeKey_others {s : State} (he : s.me.run ≠ .empty) (hp : s.me.pair = none) (hu : s.gangsUnpaired) (r : Raise) (b : Bool)
    (qa : Option Q4) {o : Strand} (ho : o ∈ (s.freezeKey s.me.key r b qa).others) (hk : o.key ≠ s.me.key) (ha : s.askless o.key) :
    o ∈ s.others := by
  have hs := State.strand_me he
  rw [freezeKey_me_eq he] at ho
  have ha' : (s.freezeOne s.me.key r b qa).askless o.key := by
    intro x hx hxk hxe
    obtain ⟨y, hy, rfl | ⟨_, rfl⟩⟩ := freezeOne_strands hs hp r b qa hx
    · exact ha _ hy hxk hxe
    · exact freezeRec_gangReq ..
  have h1 := (failFormers_sameOf (freezeOne_gangsUnpaired hs hp r b qa hu) ha' _ _).others o ho rfl
  rw [freezeOne_others hs hp, List.mem_map] at h1
  obtain ⟨y, hy, rfl⟩ := h1
  by_cases h : y.key = s.me.key
  · rw [if_pos h, freezeRec_key] at hk
    exact (hk h).elim
  · rw [if_neg h]; exact hy

/-- A freeze puts no strand into a gang. -/
theorem freezeKey_gang {s : State} (he : s.me.run ≠ .empty) (hp : s.me.pair = none) (hu : s.gangsUnpaired) (r : Raise) (b : Bool)
    (qa : Option Q4) {u : Nat} (hg : ∀ o ∈ s.strands, o.gang ≠ some u) : ∀ o ∈ (s.freezeKey s.me.key r b qa).strands, o.gang ≠ some u := by
  have hs := State.strand_me he
  rw [freezeKey_me_eq he]
  refine failFormers_gang (freezeOne_gangsUnpaired hs hp r b qa hu) (fun o ho => ?_) _ _
  obtain ⟨y, hy, rfl | ⟨_, rfl⟩⟩ := freezeOne_strands hs hp r b qa ho
  · exact hg _ hy
  · rw [freezeRec_gang]; exact hg y hy

/-! ## A gang that freezes -/

/-- What undoing a matrix step keeps of a strand: its handle, its gang, its pair, whether it waits at GANG, and its run state. -/
structure staysIn (x y : Strand) : Prop where
  key : y.key = x.key
  run : y.run = x.run
  gang : y.gang = x.gang
  gangReq : y.gangReq = x.gangReq
  pair : y.pair = x.pair

theorem staysIn.refl (x : Strand) : staysIn x x := ⟨rfl, rfl, rfl, rfl, rfl⟩

theorem staysIn.trans {x y z : Strand} (h : staysIn x y) (h' : staysIn y z) : staysIn x z :=
  ⟨h'.key.trans h.key, h'.run.trans h.run, h'.gang.trans h.gang, h'.gangReq.trans h.gangReq, h'.pair.trans h.pair⟩

theorem staysIn_unpopWords (q : Q4) (ws : List Word) (bad : Option Word) (o : Strand) : staysIn o (unpopWords q ws bad o) := by
  unfold unpopWords
  split
  iterate 5 exact ⟨rfl, rfl, rfl, rfl, rfl⟩
  split
  · exact ⟨rfl, rfl, rfl, rfl, rfl⟩
  · exact .refl o

theorem staysIn_unpopStep (m : MStep) (o : Strand) : staysIn o (unpopStep m o) := by
  have hb : ∀ (src : MSrc) (ws : List Word) (bad : Option Word) (o : Strand),
      staysIn o (match src with | .que q => unpopWords q ws bad o | .regs _ => o) := by
    intro src ws bad o
    split
    · exact staysIn_unpopWords ..
    · exact .refl o
  unfold unpopStep
  split
  · exact (hb ..).trans (hb ..)
  · exact hb ..

theorem staysIn_withRegs (a b : Strand) : staysIn a (withRegs a b) := ⟨rfl, rfl, rfl, rfl, rfl⟩

/-- What undoing the matrix steps of other strands keeps. -/
structure undone (s u : State) : Prop where
  me : u.me = s.me
  pools : u.pools = s.pools
  sched : u.sched = s.sched
  undo : ∀ p ∈ u.undo, p ∈ s.undo
  others : ∀ y ∈ u.others, ∃ x ∈ s.others, staysIn x y

theorem undone.refl (s : State) : undone s s := ⟨rfl, rfl, rfl, fun _ h => h, fun y h => ⟨y, h, .refl y⟩⟩

theorem undone.trans {s u v : State} (h : undone s u) (h' : undone u v) : undone s v :=
  ⟨h'.me.trans h.me, h'.pools.trans h.pools, h'.sched.trans h.sched, fun p hp => h.undo p (h'.undo p hp), fun z hz => by
    obtain ⟨y, hy, hyz⟩ := h'.others z hz
    obtain ⟨x, hx, hxy⟩ := h.others y hy
    exact ⟨x, hx, hxy.trans hyz⟩⟩

theorem undone_undoStep {s : State} (hn : ∀ p ∈ s.undo, p.key ≠ s.me.key) (k : Nat) : undone s (s.undoStep k) := by
  unfold State.undoStep
  split
  · exact .refl s
  · rename_i p hp
    extract_lets step s1
    have hk : p.key = k := by simpa using List.find?_some hp
    have hme : s.me.key ≠ k := fun h => hn p (List.mem_of_find?_eq_some hp) (hk.trans h.symm)
    refine ⟨?_, rfl, rfl, fun q hq => (List.mem_filter.1 hq).1, fun y hy => ?_⟩
    · rw [State.upd_me, if_neg (fun h => hme h.1)]
    · rw [State.upd_others, List.mem_map] at hy
      obtain ⟨x, hx, rfl⟩ := hy
      refine ⟨x, hx, ?_⟩
      split
      · have hu : staysIn x (step.elim x fun m => unpopStep m x) := by
          cases step with
          | none => exact .refl x
          | some m => exact staysIn_unpopStep m x
        split
        · exact hu.trans ⟨rfl, rfl, rfl, rfl, rfl⟩
        · exact hu.trans ⟨rfl, rfl, rfl, rfl, rfl⟩
      · exact .refl x

theorem undone_steps {s : State} (hn : ∀ p ∈ s.undo, p.key ≠ s.me.key) (keys : List Nat) : undone s (keys.foldl State.undoStep s) := by
  refine List.foldlRecOn keys _ (.refl s) fun u hu k _ => hu.trans (undone_undoStep (fun p hp => ?_) k)
  rw [hu.me]
  exact hn p (hu.undo p hp)

/-- What a fault in the strand of handle `key` makes of each strand of its gang: the others freeze (11 R329). -/
def gangMark (s : State) (g : Gang) (key : Nat) (r : Raise) (held : Option Nat) (o : Strand) : Strand :=
  if g.members.contains o.key ∧ o.key ≠ key ∧ o.run ≠ .empty then
    { freezeRec s o (Raise.of (otherCause r.cause)) false none o with heldSet := held }
  else if o.key = key ∧ o.run ≠ .empty then { o with heldSet := held } else o

/-- The members' steps undone. -/
def gangUndone (s : State) (g : Gang) : State := g.members.foldl State.undoStep s

/-- The set that a gang of 2 or 4 leaves (11 R330). -/
def gangHeld (s : State) (g : Gang) : Option Nat := if decide (g.members.length ≤ 4) then some (gangUndone s g).uid else none

/-- The gang over and its members marked, before the freezes are recorded. -/
def gangMarked (s : State) (g : Gang) (key : Nat) (r : Raise) : State :=
  (((gangUndone s g).fresh.2.dissolve g).setSched fun d =>
    { d with sets := { uid := (gangUndone s g).uid, nc := g.nc, south := g.south, members := g.members, marked := [] } :: d.sets }).updAll
    (gangMark s g key r (gangHeld s g))

/-- The gang over, and all its members but the one that faulted frozen. -/
def gangFrozen (s : State) (g : Gang) (key : Nat) (r : Raise) : State :=
  g.members.foldl (fun t k => match (gangUndone s g).fresh.2.strand k with
    | some m => if k = key then t else freezeRecords t m (Raise.of (otherCause r.cause))
    | none => t) (gangMarked s g key r)

/-- The member that faulted freezes last; one umpire is called for it (11 R329). -/
theorem freezeGang_eq (s : State) (g : Gang) (key : Nat) (r : Raise) (b : Bool) (qa : Option Q4) :
    s.freezeGang g key r b qa =
      if ((gangFrozen s g key r).strand key).any (·.attached) then ((gangFrozen s g key r).freezeKey key r b qa).later (.umpireSpawn key)
      else (gangFrozen s g key r).freezeKey key r b qa := rfl

theorem freezeGang_strands (s : State) (g : Gang) (key : Nat) (r : Raise) (b : Bool) (qa : Option Q4) :
    (s.freezeGang g key r b qa).me = ((gangFrozen s g key r).freezeKey key r b qa).me ∧
      (s.freezeGang g key r b qa).others = ((gangFrozen s g key r).freezeKey key r b qa).others := by
  rw [freezeGang_eq]
  split
  · exact ⟨rfl, rfl⟩
  · exact ⟨rfl, rfl⟩

/-- The records of the members' freezes change no strand and no umpire's frame. -/
theorem gangFrozen_noRecords (s : State) (g : Gang) (key : Nat) (r : Raise) :
    (gangFrozen s g key r).noRecords = (gangMarked s g key r).noRecords := by
  refine List.foldlRecOn (motive := fun t : State => t.noRecords = (gangMarked s g key r).noRecords) _ _ rfl fun t ht k _ => ?_
  split
  · split
    · exact ht
    · rw [noRecords_freezeRecords]; exact ht
  · exact ht

/-- A strand of the gang as it leaves it, or another one (01 R44). -/
def gangLeft (g : Gang) (o : Strand) : Strand := if o.gang = some g.uid then ungangStrand o else o

theorem gangFrozen_me (s : State) (g : Gang) (key : Nat) (r : Raise) :
    (gangFrozen s g key r).me = gangMark s g key r (gangHeld s g) (gangLeft g (gangUndone s g).me) :=
  (congrArg State.me (gangFrozen_noRecords s g key r) :)

theorem gangFrozen_others (s : State) (g : Gang) (key : Nat) (r : Raise) :
    (gangFrozen s g key r).others = ((gangUndone s g).others.map (gangLeft g)).map (gangMark s g key r (gangHeld s g)) :=
  (congrArg State.others (gangFrozen_noRecords s g key r) :)

theorem gangFrozen_pools (s : State) (g : Gang) (key : Nat) (r : Raise) : (gangFrozen s g key r).pools = (gangUndone s g).pools :=
  (congrArg State.pools (gangFrozen_noRecords s g key r) :)

/-- Whoever leaves a gang keeps its handle and its pair, waits at GANG as before, and is in the gang no more. -/
theorem gangLeft_keeps (g : Gang) (o : Strand) :
    (gangLeft g o).key = o.key ∧ (gangLeft g o).pair = o.pair ∧ (gangLeft g o).gangReq = o.gangReq ∧ (gangLeft g o).gang ≠ some g.uid ∧
      ((gangLeft g o).run = .empty ↔ o.run = .empty) := by
  unfold gangLeft
  split
  · refine ⟨rfl, rfl, rfl, nofun, ?_⟩
    show (if o.run = .follower then RunState.ready else o.run) = _ ↔ _
    split
    · simp [*]
    · rfl
  · exact ⟨rfl, rfl, rfl, by assumption, .rfl⟩

/-- What a member of a gang is after a fault in it: frozen with the others' cause, or the one that faulted; another strand is as it was. -/
theorem gangMark_keeps (s : State) (g : Gang) (key : Nat) (r : Raise) (held : Option Nat) (o : Strand) :
    (gangMark s g key r held o).key = o.key ∧ (gangMark s g key r held o).gang = o.gang ∧
      (gangMark s g key r held o).pair = o.pair ∧
      ((gangMark s g key r held o).gangReq.isSome = true → o.gangReq.isSome = true) := by
  unfold gangMark
  split
  · exact ⟨freezeRec_key .., freezeRec_gang .., freezeRec_pair .., fun h => by simp at h⟩
  · split
    · exact ⟨rfl, rfl, rfl, id⟩
    · exact ⟨rfl, rfl, rfl, id⟩

/-- The other members of the gang freeze (11 R329). -/
theorem gangMark_member (s : State) {g : Gang} {key : Nat} (r : Raise) (held : Option Nat) {o : Strand}
    (hm : g.members.contains o.key = true) (hk : o.key ≠ key) (he : (gangMark s g key r held o).run ≠ .empty) :
    (gangMark s g key r held o).gangReq = none ∧
      ((gangMark s g key r held o).run = .frozen ∨ (gangMark s g key r held o).run = .frozenPending) ∧
      (gangMark s g key r held o).frz.cause = otherCause r.cause := by
  by_cases ho : o.run = .empty
  · simp [gangMark, ho] at he
  · have h : gangMark s g key r held o = { freezeRec s o (Raise.of (otherCause r.cause)) false none o with heldSet := held } :=
      if_pos ⟨hm, hk, ho⟩
    rw [h]
    exact ⟨freezeRec_gangReq .., freezeRec_run .., freezeRec_cause ..⟩

/-- The strand that faulted, when the others have frozen. -/
theorem gangMark_self (s : State) (g : Gang) (r : Raise) (held : Option Nat) {o : Strand} (he : o.run ≠ .empty) :
    gangMark s g o.key r held o = { o with heldSet := held } := by
  unfold gangMark
  rw [if_neg (fun h => h.2.1 rfl), if_pos ⟨rfl, he⟩]

/-! ## A gang's member faults -/

section
variable {s : State} {g : Gang} (hu : s.gangsUnpaired) (hn : ∀ p ∈ s.undo, p.key ≠ s.me.key)
include hu hn

/-- No strand that waits at GANG is one of a pair when the members' steps are undone and the others have frozen. -/
theorem gangFrozen_unpaired (r : Raise) : (gangFrozen s g s.me.key r).gangsUnpaired := by
  have hd := undone_steps hn g.members
  have hx : ∀ y ∈ (gangUndone s g).strands, ∃ x ∈ s.strands, staysIn x y := by
    intro y hy
    rcases List.mem_cons.1 hy with rfl | hy
    · refine ⟨s.me, List.mem_cons_self, ?_⟩
      rw [show (gangUndone s g).me = s.me from hd.me]
      exact .refl _
    · obtain ⟨x, hx, h⟩ := hd.others y hy
      exact ⟨x, List.mem_cons_of_mem _ hx, h⟩
  intro z hz hr
  have hz' : ∃ y ∈ (gangUndone s g).strands, z = gangMark s g s.me.key r (gangHeld s g) (gangLeft g y) := by
    rcases List.mem_cons.1 hz with rfl | hz
    · exact ⟨_, List.mem_cons_self, gangFrozen_me ..⟩
    · rw [gangFrozen_others, List.map_map, List.mem_map] at hz
      obtain ⟨y, hy, rfl⟩ := hz
      exact ⟨y, List.mem_cons_of_mem _ hy, rfl⟩
  obtain ⟨y, hy, rfl⟩ := hz'
  obtain ⟨x, hx, hxy⟩ := hx y hy
  obtain ⟨_, _, hmp, hmr⟩ := gangMark_keeps s g s.me.key r (gangHeld s g) (gangLeft g y)
  obtain ⟨_, hlp, hlr, _, _⟩ := gangLeft_keeps g y
  rw [hmp, hlp, hxy.pair]
  exact hu x hx (by rw [← hxy.gangReq, ← hlr]; exact hmr hr)

end

/-- The strand of a gang before its own freeze: out of the gang, everything else of it as before. -/
theorem gangFrozen_self {s : State} {g : Gang} (he : s.me.run ≠ .empty) (hn : ∀ p ∈ s.undo, p.key ≠ s.me.key) (r : Raise) :
    (gangFrozen s g s.me.key r).me = { gangLeft g s.me with heldSet := gangHeld s g } := by
  have hl := gangLeft_keeps g s.me
  rw [gangFrozen_me, show (gangUndone s g).me = s.me from (undone_steps hn g.members).me, ← hl.1]
  exact gangMark_self _ _ _ _ (fun h => he (hl.2.2.2.2.1 h))

/-- After a fault in a gang the other members are frozen and no strand is in the gang (11 R329). -/
theorem gangFrozen_members {s : State} {g : Gang} (r : Raise) {z : Strand} (hz : z ∈ (gangFrozen s g s.me.key r).strands)
    (hm : g.members.contains z.key = true) (hk : z.key ≠ s.me.key) (he : z.run ≠ .empty) :
    z.gangReq = none ∧ (z.run = .frozen ∨ z.run = .frozenPending) ∧ z.frz.cause = otherCause r.cause := by
  have hz' : ∃ y, z = gangMark s g s.me.key r (gangHeld s g) y := by
    rcases List.mem_cons.1 hz with rfl | hz
    · exact ⟨_, gangFrozen_me ..⟩
    · rw [gangFrozen_others, List.mem_map] at hz
      obtain ⟨y, _, rfl⟩ := hz
      exact ⟨y, rfl⟩
  obtain ⟨y, rfl⟩ := hz'
  rw [(gangMark_keeps ..).1] at hm hk
  exact gangMark_member s r _ hm hk he

theorem gangFrozen_gang {s : State} {g : Gang} (r : Raise) : ∀ z ∈ (gangFrozen s g s.me.key r).strands, z.gang ≠ some g.uid := by
  intro z hz
  have hz' : ∃ y, z = gangMark s g s.me.key r (gangHeld s g) (gangLeft g y) := by
    rcases List.mem_cons.1 hz with rfl | hz
    · exact ⟨_, gangFrozen_me ..⟩
    · rw [gangFrozen_others, List.map_map, List.mem_map] at hz
      obtain ⟨y, _, rfl⟩ := hz
      exact ⟨y, rfl⟩
  obtain ⟨y, rfl⟩ := hz'
  rw [(gangMark_keeps ..).2.1]
  exact (gangLeft_keeps g y).2.2.2.1

theorem gangLeft_run (g : Gang) (o : Strand) (d : R5) :
    (gangLeft g o).pc = o.pc ∧ (gangLeft g o).attached = o.attached ∧ (gangLeft g o).g d = o.g d := by
  unfold gangLeft
  split
  · exact ⟨rfl, rfl, rfl⟩
  · exact ⟨rfl, rfl, rfl⟩

/-- A gang freezes at one boundary: the strand with its own cause, at its PC with its registers, the others with theirs, and the gang is
over (11 R329). -/
theorem freezeMe_gang {s : State} {g : Gang} (he : s.me.run ≠ .empty) (hp : s.me.pair = none) (hu : s.gangsUnpaired)
    (hw : ¬s.umpireWaits) (hn : ∀ p ∈ s.undo, p.key ≠ s.me.key) (r : Raise) (b : Bool) (qa : Option Q4) :
    let t := s.freezeGang g s.me.key r b qa
    t.me.run = .frozen ∧ t.me.frz.cause = r.cause ∧ t.me.pc = s.me.pc ∧ (∀ x, t.me.g x = s.me.g x) ∧
      (∀ o ∈ t.others, g.members.contains o.key = true → o.key ≠ s.me.key → o.run ≠ .empty →
        (o.run = .frozen ∨ o.run = .frozenPending) ∧ o.frz.cause = otherCause r.cause) ∧
      ∀ o ∈ t.strands, o.gang ≠ some g.uid := by
  intro t
  obtain ⟨htm, hto⟩ := freezeGang_strands s g s.me.key r b qa
  have hself := gangFrozen_self (g := g) he hn r
  have hun := gangFrozen_unpaired (g := g) hu hn r
  obtain ⟨hlk, hlp, _, _, hle⟩ := gangLeft_keeps g s.me
  have hk' : (gangFrozen s g s.me.key r).me.key = s.me.key := by rw [hself]; exact hlk
  have he' : (gangFrozen s g s.me.key r).me.run ≠ .empty := by rw [hself]; exact fun h => he (hle.1 h)
  have hp' : (gangFrozen s g s.me.key r).me.pair = none := by rw [hself]; exact hlp.trans hp
  have hw' : ¬(gangFrozen s g s.me.key r).umpireWaits := by
    unfold State.umpireWaits
    rw [hk', gangFrozen_pools, show (gangUndone s g).pools = s.pools from (undone_steps hn g.members).pools, hself]
    exact fun h => hw ⟨(gangLeft_run g s.me 0).2.1 ▸ h.1, h.2⟩
  have hme := freezeKey_me he' hp' hun r b qa
  rw [hk'] at hme
  have hrec := freezeRec_of_served r b qa (gangFrozen s g s.me.key r).me hw'
  refine ⟨?_, ?_, ?_, fun x => ?_, fun o ho hm hk hoe => ?_, fun o ho => ?_⟩
  · rw [htm, hme, hrec]; rfl
  · rw [htm, hme, freezeRec_cause]
  · rw [htm, hme, freezeRec_pc, hself]; exact (gangLeft_run g s.me 0).1
  · rw [htm, hme, freezeRec_g, hself]; exact (gangLeft_run g s.me x).2.2
  · have hstay := freezeKey_others he' hp' hun r b qa (o := o)
    rw [hk'] at hstay
    rw [hto] at ho
    have h := hstay ho hk
      (fun z hz hzk hze => (gangFrozen_members r hz (by rw [hzk]; exact hm) (by rw [hzk]; exact hk) hze).1)
    exact (gangFrozen_members r (List.mem_cons_of_mem _ h) hm hk hoe).2
  · have h := freezeKey_gang he' hp' hun r b qa (gangFrozen_gang (g := g) r)
    rw [hk'] at h
    rcases List.mem_cons.1 ho with rfl | ho
    · rw [htm]; exact h _ List.mem_cons_self
    · rw [hto] at ho; exact h o (List.mem_cons_of_mem _ ho)

/-! ## The obligation -/

/-- A freeze alone leaves memory as its records do. -/
theorem freezeOne_mem {s : State} {k : Nat} {o : Strand} (h : s.strand k = some o) (hp : o.pair = none) (r : Raise) (b : Bool)
    (qa : Option Q4) : (s.freezeOne k r b qa).mem = (freezeRecords (s.upd k (freezeRec s o r b qa)) o r).mem := by
  rw [freezeOne_eq h hp]
  split <;> rfl

/-- Settles O35: freezes are followed through the strands that wait at GANG by what each of those freezes keeps; in a gang, through the
members' undone steps and their marks. -/
theorem takingAFreeze : Obligations.TakingAFreeze := by
  unfold Obligations.TakingAFreeze
  intro s r b qa he hp hu
  have hs := State.strand_me he
  refine ⟨fun hw hg => ?_, fun hw hg hno => ?_, fun hg hq k hk => ?_, fun g hw hg hn => ?_⟩
  · rw [freezeMe_alone hg, freezeKey_me he hp hu, freezeRec_of_pending r b qa s.me hw]
    exact ⟨rfl, rfl, rfl, rfl⟩
  · rw [freezeMe_alone hg, freezeKey_unasked he hno]
    refine ⟨?_, freezeOne_others hs hp r b qa, fun ha => ?_, fun ht => ?_⟩
    · rw [freezeOne_me hs hp, if_pos ⟨rfl, he⟩, freezeRec_of_served r b qa s.me hw]
      rfl
    · rw [freezeOne_eq hs hp, ha]
      exact List.mem_append_right _ List.mem_cons_self
    · obtain ⟨hbox, hquiet⟩ := mem_freezeRecords (s.upd s.me.key (freezeRec s s.me r b qa)) s.me r ht
      rw [freezeOne_mem hs hp]
      refine ⟨fun hm => ?_, fun hc _ => hquiet hc⟩
      have h := (hbox.outside hm).2
      intro a ha
      rw [freezeOne_mem hs hp]
      exact h a ha
  · rw [freezeMe_alone hg]
    exact freezeKey_formers he hp hu hq r b qa hk
  · have h := freezeMe_gang (g := g) he hp hu hw hn r b qa
    have ht : s.freezeMe r b qa = s.freezeGang g s.me.key r b qa := by simp only [State.freezeMe, hg]
    rw [ht]
    obtain ⟨h1, h2, h3, h4, h5, h6⟩ := h
    refine ⟨h1, h2, h3, h4, fun o ho hm hk hoe => ?_, h6⟩
    obtain ⟨hr, hc⟩ := h5 o ho hm hk hoe
    refine ⟨hr, hc.trans ?_⟩
    unfold otherCause
    split
    · assumption
    · rfl

end Sys2Proof.Machine
end

section
/-! Words, messages and notices that arrive at a strand (01 R26, R27, R30, R33; 10 R290, R292, R294). -/

namespace Sys2Proof.Machine

open Sys2Proof

/-! ## Deliveries -/

/-- The strand of a slot is the strand of its handle. -/
theorem State.uniqueKeys.slotStrand {s : State} (hu : s.uniqueKeys) {sid ctx : Nat} {f : Strand} (h : s.slotStrand sid ctx = some f) :
    s.strand f.key = some f := by
  have hp := List.find?_some h
  simp only [Bool.and_eq_true, Bool.not_eq_true', decide_eq_true_eq, decide_eq_false_iff_not] at hp
  obtain ⟨⟨⟨⟨_, hr⟩, _⟩, _⟩, _⟩ := hp
  exact hu.strand (List.mem_of_find?_eq_some h) hr

/-- A word for a strand that takes deliveries, with nothing held for it. -/
theorem deliver_open {s : State} {k q : Nat} {o : Strand} (w : Word) (src : Nat) (h : s.strand k = some o) (hd : defersInbox o = false)
    (hi : o.inbox = []) : s.deliver k q w src =
      if inCount o q < qDepth q then (true, s.upd k (enterWord q w)) else if q = 8 then (true, s.upd k dropNotice8) else (false, s) := by
  unfold State.deliver
  simp only [h, hd, hi]
  rfl

theorem enterWord_keeps (q : Nat) (w : Word) (o : Strand) : (enterWord q w o).key = o.key ∧ (enterWord q w o).run = o.run :=
  have h := undelivered_enterWord q w o
  ⟨(congrArg Strand.key h :), (congrArg Strand.run h :)⟩

/-- What a delivered word makes of a strand. -/
theorem strand_enterWord {s : State} {k q : Nat} {w : Word} {j : Nat} {o : Strand} (h : s.strand j = some o) :
    (s.upd k (enterWord q w)).strand j = some (if j = k then enterWord q w o else o) := by
  rw [State.strand_upd _ _ _ (fun x => (enterWord_keeps q w x).1) (fun x => by rw [(enterWord_keeps q w x).2]), h, Option.map_some,
    (State.strand_some h).2.1]

/-- A change of a strand that keeps its handle and its presence. -/
theorem strand_change {s : State} {k : Nat} {f : Strand → Strand} (hk : ∀ x, (f x).key = x.key) (hr : ∀ x, (f x).run = x.run) {j : Nat}
    {o : Strand} (h : s.strand j = some o) : (s.upd k f).strand j = some (if j = k then f o else o) := by
  rw [State.strand_upd _ _ _ hk (fun x => by rw [hr]), h, Option.map_some, (State.strand_some h).2.1]

theorem inCount_mesh (o : Strand) {q : Nat} (h : q < 4) : inCount o q = (o.qin.getD q []).length := by
  obtain rfl | rfl | rfl | rfl : q = 0 ∨ q = 1 ∨ q = 2 ∨ q = 3 := by omega
  · rfl
  · rfl
  · rfl
  · rfl

theorem enterWord_mesh (o : Strand) (w : Word) {q : Nat} (h : q < 4) :
    enterWord q w o = { o with qin := o.qin.setIfInBounds q (o.qin.getD q [] ++ [w]) } := by
  obtain rfl | rfl | rfl | rfl : q = 0 ∨ q = 1 ∨ q = 2 ∨ q = 3 := by omega
  · rfl
  · rfl
  · rfl
  · rfl

theorem oppositeQ_lt (q : Nat) : oppositeQ q < 4 := Nat.mod_lt _ (by decide)

theorem qDepth_mesh {q : Nat} (h : q < 4) : qDepth q = 16 := by
  unfold qDepth
  rw [if_neg (by omega), if_neg (by omega)]

/-! ## Lost words -/

/-- One more lost word, saturating (10 R292). -/
theorem addLost_lost (o : Strand) {q : Nat} (h : q < 16) :
    ((addLost q 1 o).lost.getD q 0).toNat = min 0xFFFF ((o.lost.getD q 0).toNat + 1) := by
  show ((o.lost.setIfInBounds q _).getD q 0).toNat = _
  rw [Vector.getD_setIfInBounds_self _ _ _ h, BitVec.toNat_ofNat]
  exact Nat.mod_eq_of_lt (lt_of_le_of_lt (Nat.min_le_left _ _) (by decide))

/-! ## Entering a notice in a gang -/

theorem enterNotice_key (src : Nat) (v : Word) (o : Strand) : (enterNotice src v o).key = o.key := by
  simp only [enterNotice, swapShadow]

theorem enterNotice_run (src : Nat) (v : Word) (o : Strand) : (enterNotice src v o).run = o.run := by
  simp only [enterNotice, swapShadow]

/-- Every member of a gang enters once (01 R33). -/
theorem strand_enterAll (v : Word) (keys : List Nat) (hn : keys.Nodup) {s : State} {k : Nat} {m : Strand} (h : s.strand k = some m) :
    (keys.foldl (fun s k => s.upd k (enterNotice 4 v)) s).strand k = some (if k ∈ keys then enterNotice 4 v m else m) := by
  induction keys generalizing s m with
  | nil => simpa using h
  | cons j keys ih =>
    obtain ⟨hj, hn⟩ := List.nodup_cons.1 hn
    have h1 := strand_change (k := j) (enterNotice_key 4 v) (enterNotice_run 4 v) h
    rw [List.foldl_cons, ih hn h1]
    by_cases hk : k = j
    · subst hk
      rw [if_neg hj, if_pos rfl, if_pos List.mem_cons_self]
    · rw [if_neg hk]
      simp only [List.mem_cons, hk, false_or]

/-! ## Words on the mesh -/

section
variable {s : State} {key : Nat} {o : Strand} {q : Q4} {w : Word} {r : List Word}

/-- The oldest outbound word has left its channel. -/
def sentWord (q : Q4) (r : List Word) (x : Strand) : Strand := { x with qout := x.qout.setIfInBounds q.toNat r }

/-- The strand that faces a channel (10 R290). -/
def State.faces (s : State) (o : Strand) (q : Q4) : Option Strand :=
  (facing o.core q.toNat).bind fun c => s.slotStrand (c * 8 + slotOf o.sid) o.ctx

/-- A word whose channel no strand faces is lost (01 R26). -/
theorem meshWordArrival_lost (ho : s.strand key = some o) (hw : o.qout.getD q.toNat [] = w :: r) (hn : s.faces o q = none) :
    execMeshWordArrival key q s = .next ((s.upd key (sentWord q r)).later (.dropNotice key q)) := by
  unfold State.faces at hn
  simp only [execMeshWordArrival, ho, hw, hn]
  rfl

/-- A word for the strand that faces its channel. -/
theorem meshWordArrival_faced {f : Strand} (hu : s.uniqueKeys) (ho : s.strand key = some o) (hw : o.qout.getD q.toNat [] = w :: r)
    (hf : s.faces o q = some f) (hd : defersInbox f = false) (hi : f.inbox = []) :
    execMeshWordArrival key q s = .next
      (if s.meshOpen o.core f.core = true ∧ (f.qin.getD (oppositeQ q.toNat) []).length < 16 then
        (s.upd f.key (enterWord (oppositeQ q.toNat) w)).upd key (sentWord q r)
      else s) := by
  have hs := hu.slotStrand (Option.bind_eq_some_iff.1 hf).choose_spec.2
  have hq := oppositeQ_lt q.toNat
  have hdel := deliver_open (q := oppositeQ q.toNat) w key hs hd hi
  rw [inCount_mesh f hq, qDepth_mesh hq, if_neg (show oppositeQ q.toNat ≠ 8 by omega)] at hdel
  unfold State.faces at hf
  simp only [execMeshWordArrival, ho, hw, hf, hdel]
  by_cases hm : s.meshOpen o.core f.core = true
  · by_cases hl : (f.qin.getD (oppositeQ q.toNat) []).length < 16
    · simp only [hm, hl]; rfl
    · simp only [hm, hl]; rfl
  · simp only [hm]; rfl

end

/-! ## Messages -/

section
variable {s : State} {key : Nat} {o : Strand} {d w : Word} {r : List (Word × Word)}

/-- The oldest message has left q6. -/
def sentMessage (r : List (Word × Word)) (x : Strand) : Strand := { x with q6 := r }

/-- A message for a slot of the context where no strand is, is lost (10 R294). -/
theorem messageDelivery_lost (ho : s.strand key = some o) (hw : o.q6 = (d, w) :: r) (hd : d.getLsbD 15 = false)
    (hn : s.slotStrand (d.toNat % 2 ^ 15) o.ctx = none) :
    execMessageDelivery key s = .next ((s.upd key (sentMessage r)).later (.dropNotice key 6)) := by
  have hs : sendHead s o d w = some .lost := by simp only [sendHead, hd, Bool.false_and, hn]; rfl
  simp only [execMessageDelivery, ho, hw, hs]
  rfl

/-- A message for a strand of the context. -/
theorem messageDelivery_found {f : Strand} (hu : s.uniqueKeys) (ho : s.strand key = some o) (hw : o.q6 = (d, w) :: r)
    (hd : d.getLsbD 15 = false) (hf : s.slotStrand (d.toNat % 2 ^ 15) o.ctx = some f) (hdef : defersInbox f = false) (hi : f.inbox = []) :
    execMessageDelivery key s = .next
      (if s.meshOpen o.core f.core = true ∧ f.q7.length < 32 then (s.upd f.key (enterWord 7 w)).upd key (sentMessage r) else s) := by
  have hkey : o.key = key := (State.strand_some ho).2.1
  have hdel := deliver_open (q := 7) w key (hu.slotStrand hf) hdef hi
  rw [show inCount f 7 = f.q7.length from rfl, show qDepth 7 = 32 from rfl, if_neg (by decide : ¬(7 = 8))] at hdel
  by_cases hm : s.meshOpen o.core f.core = true
  · by_cases hl : f.q7.length < 32
    · have hs : sendHead s o d w = some (.taken (s.upd f.key (enterWord 7 w))) := by
        simp only [sendHead, hd, Bool.false_and, hf, hm, hkey, hdel, hl]; rfl
      rw [if_pos ⟨hm, hl⟩]
      simp only [execMessageDelivery, ho, hw, hs]
      rfl
    · have hs : sendHead s o d w = none := by
        simp only [sendHead, hd, Bool.false_and, hf, hm, hkey, hdel, hl]; rfl
      rw [if_neg (fun h => hl h.2)]
      simp only [execMessageDelivery, ho, hw, hs]
      rfl
  · have hs : sendHead s o d w = none := by
      simp only [sendHead, hd, Bool.false_and, hf, hm]; rfl
    rw [if_neg (fun h => hm h.1)]
    simp only [execMessageDelivery, ho, hw, hs]
    rfl

end

/-! ## Notices -/

/-- An arrival notice that nothing keeps on its way (01 R27). -/
theorem arrivalNotice_open {s : State} {key : Nat} {o : Strand} {x : Word} (ho : s.strand key = some o) (hd : defersInbox o = false)
    (hi : o.inbox = []) (hn : noticeOpen s key x = true) (hq : ∀ p ∈ s.homes.notices, p.1 ≠ key) :
    execArrivalNotice key x s = .next (if o.q8.length < 16 then s.upd key (enterWord 8 x) else s.upd key dropNotice8) := by
  have hfind : (s.homes.notices.find? fun p => decide (p.1 = key)) = none :=
    List.find?_eq_none.2 fun p hp => by simpa using hq p hp
  have hdel := deliver_open (q := 8) x 0 ho hd hi
  rw [show inCount o 8 = o.q8.length from rfl, show qDepth 8 = 16 from rfl, if_pos rfl] at hdel
  by_cases hl : o.q8.length < 16
  · simp only [execArrivalNotice, hn, hfind, hdel, hl]; rfl
  · simp only [execArrivalNotice, hn, hfind, hdel, hl]; rfl

theorem withTrailer_alone {o : Strand} (hp : o.pair = none) (f : Strand → Strand) (s : State) : withTrailer o f s = s.upd o.key f := by
  unfold withTrailer
  rw [hp]
  cases o.pairLead
  · rfl
  · rfl

/-- The lowest pending enabled source is taken by a strand in no pair (01 R30). -/
theorem noticeEntry_due {s : State} {key : Nat} {o : Strand} (ho : s.strand key = some o) (hdue : noticeDue o = true) (hi : o.inbox = [])
    (hp : o.pair = none) : ∃ t, execNoticeEntry key s = .next t ∧
      t.strand key = some (enterNotice (lowBit (enabledSources o)) o.nhvec o) := by
  have hkey : o.key = key := (State.strand_some ho).2.1
  let s1 := (s.upd key drainInbox).traceOf o 4 (nhcause (enterNotice (lowBit (enabledSources o)) o.nhvec o))
  have h1 : s1.strand key = some o := by
    rw [State.strand_congr (State.traceOf_me ..) (State.traceOf_others ..), strand_change drainInbox_key drainInbox_run ho, if_pos rfl,
      drainInbox_nil hi]
  refine ⟨s1.upd key (enterNotice (lowBit (enabledSources o)) o.nhvec), ?_, ?_⟩
  · unfold execNoticeEntry
    simp only [ho, hdue, drainInbox_nil hi, withTrailer_alone hp, hkey]
    rfl
  · rw [strand_change (enterNotice_key _ _) (enterNotice_run _ _) h1, if_pos rfl]

theorem noticeEntry_not_due {s : State} {key : Nat} {o : Strand} (ho : s.strand key = some o) (hdue : noticeDue o = false) :
    execNoticeEntry key s = .next s := by
  simp only [execNoticeEntry, ho, hdue]; rfl

/-! ## The obligation -/

/-- Settles O41: each arrival by what the shared delivery does with a word, each entry by what becomes of the strand of a handle. -/
theorem wordsNoticesAndMessagesArrive : Obligations.WordsNoticesAndMessagesArrive := by
  unfold Obligations.WordsNoticesAndMessagesArrive
  intro s key o q x ho hu
  have hkey : o.key = key := (State.strand_some ho).2.1
  have hsent : ∀ (r : List Word) {t : State} {y : Strand}, t.strand key = some y →
      (t.upd key (sentWord q r)).strand key = some (sentWord q r y) := fun r t y h =>
    (strand_change (f := sentWord q r) (fun _ => rfl) (fun _ => rfl) h).trans (by rw [if_pos rfl])
  have hsentM : ∀ (r : List (Word × Word)) {t : State} {y : Strand}, t.strand key = some y →
      (t.upd key (sentMessage r)).strand key = some (sentMessage r y) := fun r t y h =>
    (strand_change (f := sentMessage r) (fun _ => rfl) (fun _ => rfl) h).trans (by rw [if_pos rfl])
  have hq : q.toNat < 4 → ∀ (r : List Word) (y : Strand), (sentWord q r y).qout.getD q.toNat [] = r := fun h r y =>
    Vector.getD_setIfInBounds_self _ _ _ h
  have hother : ∀ {f : Strand} {n : Nat} {w : Word}, s.strand f.key = some f → f.key ≠ key →
      (s.upd f.key (enterWord n w)).strand key = some o ∧ (s.upd f.key (enterWord n w)).strand f.key = some (enterWord n w f) :=
    fun hs hfk => ⟨(strand_enterWord ho).trans (by rw [if_neg (Ne.symm hfk)]), (strand_enterWord hs).trans (by rw [if_pos rfl])⟩
  refine ⟨fun w r hq4 hw => ⟨fun hn => ?_, fun f hf hfk hd hi => ⟨fun hm => ?_, fun hm hl => ?_, fun hl => ?_⟩⟩,
    fun d w r hw hd => ⟨fun hn => ?_, fun f hf hfk hdef hi => ⟨fun hm hl => ?_, fun hl => ?_⟩⟩, ?_, fun hd hi hn hnot => ?_,
    fun hdue hi hp => ?_, fun hdue => noticeEntry_not_due ho hdue, fun g hg hnd => ⟨fun hdue => ?_, fun k hk m hm => ?_, fun hdue => ?_⟩⟩
  · exact ⟨_, _, meshWordArrival_lost ho hw hn, hsent r ho, hq hq4 r o, rfl⟩
  · exact (meshWordArrival_faced hu ho hw hf hd hi).trans (by rw [if_neg (by simp [hm])])
  · have hs := hu.slotStrand (Option.bind_eq_some_iff.1 hf).choose_spec.2
    obtain ⟨hk1, hf1⟩ := hother (n := oppositeQ q.toNat) (w := w) hs hfk
    refine ⟨_, _, _, (meshWordArrival_faced hu ho hw hf hd hi).trans (by rw [if_pos ⟨hm, hl⟩]), hsent r hk1, hq hq4 r o,
      (strand_change (f := sentWord q r) (fun _ => rfl) (fun _ => rfl) hf1).trans (by rw [if_neg hfk]), ?_⟩
    rw [enterWord_mesh f w (oppositeQ_lt _)]
    exact Vector.getD_setIfInBounds_self _ _ _ (oppositeQ_lt _)
  · exact (meshWordArrival_faced hu ho hw hf hd hi).trans (by rw [if_neg (fun h => absurd h.2 (Nat.not_lt.2 hl))])
  · exact ⟨_, _, messageDelivery_lost ho hw hd hn, hsentM r ho, rfl, rfl⟩
  · obtain ⟨hk1, hf1⟩ := hother (n := 7) (w := w) (hu.slotStrand hf) hfk
    exact ⟨_, _, _, (messageDelivery_found hu ho hw hd hf hdef hi).trans (by rw [if_pos ⟨hm, hl⟩]), hsentM r hk1, rfl,
      (strand_change (f := sentMessage r) (fun _ => rfl) (fun _ => rfl) hf1).trans (by rw [if_neg hfk]), rfl⟩
  · exact (messageDelivery_found hu ho hw hd hf hdef hi).trans (by rw [if_neg (fun h => absurd h.2 (Nat.not_lt.2 hl))])
  · exact ⟨_, _, rfl, (strand_change (f := addLost q.toNat 1) (fun _ => rfl) (fun _ => rfl) ho).trans (by rw [if_pos rfl]),
      addLost_lost o q.isLt⟩
  · by_cases hl : o.q8.length < 16
    · exact ⟨_, enterWord 8 x o, (arrivalNotice_open ho hd hi hn hnot).trans (by rw [if_pos hl]),
        (strand_enterWord ho).trans (by rw [if_pos rfl]), fun _ => ⟨rfl, rfl⟩, fun h => absurd hl (Nat.not_lt.2 h)⟩
    · exact ⟨_, dropNotice8 o, (arrivalNotice_open ho hd hi hn hnot).trans (by rw [if_neg hl]),
        (strand_change (f := dropNotice8) (fun _ => rfl) (fun _ => rfl) ho).trans (by rw [if_pos rfl]), fun h => absurd h hl,
        fun _ => ⟨rfl, rfl, addLost_lost o (by decide)⟩⟩
  · obtain ⟨t, ht, hs⟩ := noticeEntry_due ho hdue hi hp
    refine ⟨t, _, ht, hs, rfl, rfl, rfl, rfl, rfl, fun i => ⟨swapShadow_lo_high o i.isLt, swapShadow_h o i.isLt, swapShadow_lo_low o i.isLt⟩⟩
  · show execGangNoticeEntry key s = _
    simp only [execGangNoticeEntry, ho, hg, hdue]; rfl
  · refine ⟨_, (strand_enterAll o.nhvec g.members hnd hm).trans (by rw [if_pos hk]), rfl, rfl, rfl, rfl⟩
  · show execGangNoticeEntry key s = _
    simp only [execGangNoticeEntry, ho, hg, hdue]; rfl

end Sys2Proof.Machine
end

section
/-! Window groups, fetch lines, gangs that form, and umpires: a strand that is Frozen, pending, and escalates (11 R317-R319). -/

namespace Sys2Proof.Machine

open Sys2Proof

/-- A strand that waits for its umpire's frame. -/
def waitingStrand : Strand := { Strand.blank with key := 1, run := .frozenPending }

/-- Its context has no umpire table. -/
def waitingState : State := { State.reset with me := waitingStrand, fw := { State.reset.fw with ctxs := [Ctx.fresh 0 0 0] } }

/-- The run state of the issuing strand after a step. -/
def runAfter : Out → Option RunState
  | .next t => some t.me.run
  | _ => none

/-- Where its umpire is spawned it waits no more: it is Frozen. -/
theorem runAfter_umpireSpawn : runAfter (exec (.umpireSpawn 1) waitingState) = some .frozen := by decide

/-- Marking its capabilities and escalating alone leave it Frozen, pending. -/
theorem runAfter_escalate : runAfter (.next ((waitingState.markGs waitingStrand).escalate waitingStrand 1)) = some .frozenPending := by
  decide

/-- Refutes O43: where a strand that is Frozen, pending, has no umpire to go to, UMPIRE_SPAWN makes it Frozen before it escalates
(11 R319), and the statement's escalation leaves it Frozen, pending. -/
theorem not_windowsFetchLinesGangsAndUmpires : ¬ Obligations.WindowsFetchLinesGangsAndUmpires := by
  unfold Obligations.WindowsFetchLinesGangsAndUmpires
  intro h
  obtain ⟨_, _, _, _, _, _, _, _, hvec, _⟩ := h waitingState 1 0 waitingStrand rfl (by unfold State.uniqueKeys; decide)
  have hstep := hvec (Ctx.fresh 0 0 0) rfl rfl rfl rfl rfl (.inl rfl)
  have hrun := congrArg runAfter hstep
  rw [runAfter_umpireSpawn, runAfter_escalate] at hrun
  cases hrun

end Sys2Proof.Machine
end

section
/-! Commands over contexts, queues, umpire tables, pairing and replay (16 R405-R409, R425; 18 R460, R473; 12 R360). -/

namespace Sys2Proof.Machine

open Sys2Proof

/-! ## Commands that end at once -/

section
variable {s u : State} {c : CmdRec} {i : Instr} {code used st r : Nat} {named : Bool} {f : State → CmdOut}

/-- A command that passes its checks and answers a status has no effect (16 R404). -/
theorem simple_refuses (hi : exec i s = done (s.simple code named used c f)) (ha : allowed s c code named used) (hf : f s = .inr st) :
    refuses s i c code st := by
  unfold refuses answers
  unfold allowed at ha
  rw [hi]
  simp only [State.simple, State.command, ha, hf]
  rfl

/-- A command that passes its checks and succeeds is answered from the state it leaves (16 R400). -/
theorem simple_answers (hi : exec i s = done (s.simple code named used c f)) (ha : allowed s c code named used) (hf : f s = .inl (u, r)) :
    answers s u i c code 0 (BitVec.ofNat 64 r) := by
  unfold answers
  unfold allowed at ha
  rw [hi]
  simp only [State.simple, State.command, ha, hf]
  rfl

end

/-! ## Contexts and their queues -/

/-- A change of a context that keeps its id. -/
theorem ctxOf_updCtx {s : State} {id : Nat} {x : Ctx} {f : Ctx → Ctx} (hf : ∀ y, (f y).id = y.id) (h : s.ctxOf id = some x) :
    (s.updCtx id f).ctxOf id = some (f x) := by
  have hp : (fun c : Ctx => decide (c.id = id)) ∘ (fun c => if c.id = id then f c else c) = fun c => decide (c.id = id) := by
    funext c
    simp only [Function.comp_apply]
    split
    · rw [hf]
    · rfl
  have hx : x.id = id := by simpa using List.find?_some h
  unfold State.ctxOf at h ⊢
  rw [State.updCtx_fw, List.find?_map, hp, h, Option.map_some, if_pos hx]

/-- A change of a queue that keeps its number. -/
theorem queueOf_updQueue {s : State} {id q : Nat} {y : LQueue} {f : LQueue → LQueue} (hf : ∀ y, (f y).id = y.id)
    (h : s.queueOf id q = some y) : (s.updQueue id q f).queueOf id q = some (f y) := by
  unfold State.queueOf at h
  obtain ⟨x, hx, hy⟩ := Option.bind_eq_some_iff.1 h
  have hq : y.id = q := by simpa using List.find?_some hy
  have hp : (fun c : LQueue => decide (c.id = q)) ∘ (fun c => if c.id = q then f c else c) = fun c => decide (c.id = q) := by
    funext c
    simp only [Function.comp_apply]
    split
    · rw [hf]
    · rfl
  have hc : (s.updQueue id q f).ctxOf id = some { x with queues := x.queues.map fun y => if y.id = q then f y else y } :=
    ctxOf_updCtx (f := fun x : Ctx => { x with queues := x.queues.map fun y => if y.id = q then f y else y }) (fun _ => rfl) hx
  unfold State.queueOf
  rw [hc, Option.bind_some, List.find?_map, hp, hy, Option.map_some, if_pos hq]

theorem queueOf_congr {s t : State} (h : t.fw.ctxs = s.fw.ctxs) (id q : Nat) : t.queueOf id q = s.queueOf id q := by
  unfold State.queueOf State.ctxOf
  rw [h]

theorem put_fw (s : State) (k : Nat) (bs : List Byte) : (s.put (.mem k) bs).fw = s.fw := by rw [State.put_mem_eq]

/-- A fresh table costs the contexts nothing (16 R416). -/
theorem newTable_keeps {s s1 : State} {level t : Nat} (h : s.newTable level = some (t, s1)) :
    s1.fw.ctxs = s.fw.ctxs ∧ s1.strands = s.strands := by
  unfold State.newTable at h
  extract_lets used i at h
  split at h
  · cases h
  · cases h
    exact ⟨rfl, rfl⟩

/-! ## CTX_CREATE (16 R407) -/

theorem ctxCreate_answers (s : State) (c : CmdRec) (ha : allowed s c 1 false 3) :
    (4095 < par c 0 ∨ 7 < par c 1 → refuses s (.ctxCreate c) c 1 2) ∧
      (par c 0 ≤ 4095 → par c 1 ≤ 7 → par c 0 ≠ 0 → (s.ctxOf (par c 0)).isSome = true → refuses s (.ctxCreate c) c 1 6) ∧
      (par c 0 ≤ 4095 → par c 1 ≤ 7 → s.newTable 3 = none → (par c 0 ≠ 0 → s.ctxOf (par c 0) = none) → refuses s (.ctxCreate c) c 1 5) ∧
      (∀ n t s1, par c 0 ≤ 4095 → par c 1 ≤ 7 → (par c 0 ≠ 0 → s.ctxOf (par c 0) = none) → s.newTable 3 = some (t, s1) →
          n = (if par c 0 = 0 then firstFree (s.fw.ctxs.map (·.id)) s.fw.ctxs.length 1 else par c 0) → n ≤ 4095 →
        ∃ u, answers s u (.ctxCreate c) c 1 0 (BitVec.ofNat 64 n) ∧ u.fw.ctxs = s.fw.ctxs ++ [Ctx.fresh n (par c 1) t] ∧
          u.strands = s.strands) := by
  have hnone : (par c 0 ≠ 0 → s.ctxOf (par c 0) = none) → ¬(par c 0 ≠ 0 ∧ (s.ctxOf (par c 0)).isSome = true) := by
    rintro h ⟨h0, hs⟩
    rw [h h0] at hs
    cases hs
  refine ⟨fun hb => ?_, fun h0 h1 hz hs => ?_, fun h0 h1 ht hn => ?_, fun n t s1 h0 h1 hn ht hid hle => ?_⟩
  · refine simple_refuses rfl ha ?_
    rw [if_pos hb]; rfl
  · refine simple_refuses rfl ha ?_
    rw [if_neg (by omega), if_pos ⟨hz, hs⟩]; rfl
  · refine simple_refuses rfl ha ?_
    rw [if_neg (by omega), if_neg (hnone hn)]
    simp only [ht, ite_self]
    rfl
  · obtain ⟨hc, hst⟩ := newTable_keeps ht
    refine ⟨_, simple_answers (u := s1.setFw fun f => { f with ctxs := f.ctxs ++ [Ctx.fresh n (par c 1) t] }) rfl ha ?_, ?_, hst⟩
    · rw [if_neg (by omega), if_neg (hnone hn)]
      simp only [List.length_map, ht]
      rw [← hid, if_neg (by omega)]
    · rw [State.setFw_fw, hc]

/-! ## CTX_DESTROY (16 R408) -/

theorem ctxDestroy_starts {s : State} {c : CmdRec} (ha : allowed s c 2 true 0) (hl : (2, c) ∉ s.fw.long) :
    exec (.ctxDestroy c) s = .next
      (let s1 := (s.abortCkpt.destroyStart (cctx c)).setFw fun f => { f with long := f.long ++ [(2, c)] }
       if destroyDue s1 (2, c) then s1.destroyFinish c else s1) := by
  have hl' : s.fw.long.contains (2, c) = false := by simpa using hl
  unfold allowed at ha
  show execCtxDestroy c s = _
  simp only [execCtxDestroy, hl', State.command, ha]
  rfl

theorem ctxDestroy_goesOn {s : State} {c : CmdRec} (hl : (2, c) ∈ s.fw.long) :
    exec (.ctxDestroy c) s = .next (if destroyDue s (2, c) then s.destroyFinish c else s) := by
  have hl' : s.fw.long.contains (2, c) = true := by simpa using hl
  show execCtxDestroy c s = _
  simp only [execCtxDestroy, hl', if_true]
  split
  · rfl
  · rfl

/-! ## NAMESPACE_CREATE (16 R409) -/

section
variable {s : State} {c : CmdRec} {x : Ctx}

/-- A context joins a group, and the package's window to the fleet counts for it (16 R409, 17 R449). -/
def State.joinGroup (s : State) (c : CmdRec) : State :=
  (s.updCtx (cctx c) fun x => { x with group := some (par c 0, par c 1, par c 2) }).setFw fun f =>
    { f with exports := (f.window.elim f.exports fun w => (par c 0, par c 2, w.1, w.2) ::
               f.exports.filter fun e => !(decide (e.1 = par c 0) && decide (e.2.1 = par c 2)))
             joined := if f.joined.contains (par c 0, par c 2) then f.joined else (par c 0, par c 2) :: f.joined }

theorem joinGroup_joined (s : State) (c : CmdRec) : (par c 0, par c 2) ∈ (s.joinGroup c).fw.joined := by
  show _ ∈ (if s.fw.joined.contains (par c 0, par c 2) then s.fw.joined else (par c 0, par c 2) :: s.fw.joined)
  split
  · rename_i h
    exact List.contains_iff_mem.1 h
  · exact List.mem_cons_self

theorem joinGroup_exports (s : State) (c : CmdRec) (w : Nat × Nat) (hw : s.fw.window = some w) :
    (par c 0, par c 2, w.1, w.2) ∈ (s.joinGroup c).fw.exports := by
  show _ ∈ s.fw.window.elim s.fw.exports fun w => (par c 0, par c 2, w.1, w.2) ::
    s.fw.exports.filter fun e => !(decide (e.1 = par c 0) && decide (e.2.1 = par c 2))
  rw [hw]
  exact List.mem_cons_self

theorem namespaceCreate_answers (hx : s.ctxOf (cctx c) = some x) (ha : allowed s c 3 true 7) :
    (par c 0 = 0 ∨ 4095 < par c 0 ∨ par c 1 = 0 ∨ 16 < par c 1 ∨ par c 1 ≤ par c 2 → refuses s (.namespaceCreate c) c 3 2) ∧
      (1 ≤ par c 0 → par c 0 ≤ 4095 → par c 1 ≤ 16 → par c 2 < par c 1 → x.group.isSome = true → refuses s (.namespaceCreate c) c 3 6) ∧
      (1 ≤ par c 0 → par c 0 ≤ 4095 → par c 1 ≤ 16 → par c 2 < par c 1 → x.group = none →
        ∃ u, answers s u (.namespaceCreate c) c 3 0 0 ∧ u.ctxOf (cctx c) = some { x with group := some (par c 0, par c 1, par c 2) } ∧
          (par c 0, par c 2) ∈ u.fw.joined ∧ ∀ w, s.fw.window = some w → (par c 0, par c 2, w.1, w.2) ∈ u.fw.exports) := by
  refine ⟨fun hb => ?_, fun h0 h1 h2 h3 hg => ?_, fun h0 h1 h2 h3 hg => ?_⟩
  · refine simple_refuses rfl ha ?_
    rw [if_pos hb]; rfl
  · refine simple_refuses rfl ha ?_
    rw [if_neg (by omega), if_pos (by rw [hx]; exact hg)]; rfl
  · refine ⟨s.joinGroup c, simple_answers (r := 0) rfl ha ?_, ctxOf_updCtx
      (f := fun x => { x with group := some (par c 0, par c 1, par c 2) }) (fun _ => rfl) hx, joinGroup_joined s c, joinGroup_exports s c⟩
    rw [if_neg (by omega), if_neg (by rw [hx]; simp [hg])]
    rfl

/-! ## Queues and rings (16 R425) -/

theorem queueCreate_answers (hx : s.ctxOf (cctx c) = some x) (ha : allowed s c 0xC true 3) (h0 : par c 0 ≤ 63) (h1 : par c 1 ≤ 7) :
    ((s.queueOf (cctx c) (par c 0)).isSome = true → refuses s (.queueCreate c) c 0xC 6) ∧
      (s.queueOf (cctx c) (par c 0) = none →
        ∃ u, answers s u (.queueCreate c) c 0xC 0 0 ∧ u.ctxOf (cctx c) =
          some { x with queues := x.queues ++ [(⟨par c 0, min (par c 1) x.maxClass, none, 0, 0, 0, 0, 0⟩ : LQueue)] }) := by
  refine ⟨fun hq => ?_, fun hq => ?_⟩
  · refine simple_refuses rfl ha ?_
    rw [if_neg (by omega), if_pos hq]; rfl
  · refine ⟨_, simple_answers (r := 0) rfl ha ?_, ctxOf_updCtx
      (f := fun x => { x with queues := x.queues ++ [(⟨par c 0, min (par c 1) x.maxClass, none, 0, 0, 0, 0, 0⟩ : LQueue)] })
      (fun _ => rfl) hx⟩
    rw [if_neg (by omega), if_neg (by rw [hq]; simp)]

theorem queuePriority_answers (hx : s.ctxOf (cctx c) = some x) (ha : allowed s c 0xD true 3) (h0 : par c 0 ≤ 63) :
    (x.maxClass < par c 1 → refuses s (.queuePriority c) c 0xD 2) ∧
      (par c 1 ≤ x.maxClass → s.queueOf (cctx c) (par c 0) = none → refuses s (.queuePriority c) c 0xD 7) ∧
      (∀ q, par c 1 ≤ x.maxClass → s.queueOf (cctx c) (par c 0) = some q →
        ∃ u, answers s u (.queuePriority c) c 0xD 0 0 ∧ u.queueOf (cctx c) (par c 0) = some { q with maxClass := par c 1 }) := by
  have hle : par c 1 ≤ x.maxClass → ¬(63 < par c 0 ∨ (s.ctxOf (cctx c)).any (fun x => decide (x.maxClass < par c 1)) = true) := by
    intro h
    rw [hx]
    simp
    omega
  refine ⟨fun hb => ?_, fun h1 hq => ?_, fun q h1 hq => ?_⟩
  · refine simple_refuses rfl ha ?_
    rw [if_pos (.inr (by rw [hx]; simpa using hb))]; rfl
  · refine simple_refuses rfl ha ?_
    rw [if_neg (hle h1), hq]; rfl
  · refine ⟨_, simple_answers (r := 0) rfl ha ?_, queueOf_updQueue (f := fun q => { q with maxClass := par c 1 }) (fun _ => rfl) hq⟩
    rw [if_neg (hle h1), if_neg (by rw [hq]; simp)]

/-- A queue gets its ring, with cons 0 in the ring's header (16 R425). -/
def State.setRing (s : State) (c : CmdRec) : State :=
  (s.updQueue (cctx c) (par c 0) fun q => { q with ring := some (par c 1, par c 2), cons := 0 }).put (.mem (ckey (par c 1))) (natLE 8 0)

theorem setRing_mem (s : State) (c : CmdRec) : (s.setRing c).mem = msetN s.mem (ckey (par c 1)) (natLE 8 0) := State.put_mem ..

theorem launchWindowConfig_answers {q : LQueue} (ha : allowed s c 0xB true 7) (h0 : par c 0 ≤ 63) (h1 : par c 1 % 4096 = 0)
    (hq : s.queueOf (cctx c) (par c 0) = some q) :
    (par c 1 ≠ 0 → par c 2 < 2 ∨ 10 < par c 2 → refuses s (.launchWindowConfig c) c 0xB 2) ∧
      ((par c 1 = 0 ∨ (2 ≤ par c 2 ∧ par c 2 ≤ 10)) → 0 < s.acceptedCount (cctx c) (par c 0) →
        refuses s (.launchWindowConfig c) c 0xB 1) ∧
      (s.acceptedCount (cctx c) (par c 0) = 0 → par c 1 = 0 →
        ∃ u, answers s u (.launchWindowConfig c) c 0xB 0 0 ∧ u.queueOf (cctx c) (par c 0) = some { q with ring := none }) ∧
      (s.acceptedCount (cctx c) (par c 0) = 0 → par c 1 ≠ 0 → 2 ≤ par c 2 → par c 2 ≤ 10 → s.memWf →
        ∃ u, answers s u (.launchWindowConfig c) c 0xB 0 0 ∧
          u.queueOf (cctx c) (par c 0) = some { q with ring := some (par c 1, par c 2), cons := 0 } ∧
          (∀ i < 8, mget u.mem (ckey (par c 1) + i) = 0) ∧ sameMemOutside s u (ckey (par c 1)) 8) := by
  have hsome : ¬(s.queueOf (cctx c) (par c 0)).isNone = true := by rw [hq]; simp
  refine ⟨fun hz hb => ?_, fun hb hn => ?_, fun hn hz => ?_, fun hn hz h2 h3 hm => ?_⟩
  · refine simple_refuses rfl ha ?_
    rw [if_pos (.inr (.inr ⟨hz, hb⟩))]; rfl
  · refine simple_refuses rfl ha ?_
    rw [if_neg (by omega), if_neg hsome, if_pos hn]; rfl
  · refine ⟨_, simple_answers (r := 0) rfl ha ?_, queueOf_updQueue (f := fun q => { q with ring := none }) (fun _ => rfl) hq⟩
    rw [if_neg (by omega), if_neg hsome, if_neg (by omega), if_pos hz]
  · refine ⟨s.setRing c, simple_answers (r := 0) rfl ha ?_, (queueOf_congr (congrArg Firmware.ctxs (put_fw _ _ _)) _ _).trans
      (queueOf_updQueue (f := fun q => { q with ring := some (par c 1, par c 2), cons := 0 }) (fun _ => rfl) hq), fun i hi => ?_,
      fun a h => ?_⟩
    · rw [if_neg (by omega), if_neg hsome, if_neg (by omega), if_neg hz]
      rfl
    · rw [setRing_mem, mget_msetN_in i hm (by rw [natLE_length]; exact hi)]
      interval_cases i <;> rfl
    · rw [setRing_mem, mget_msetN_out a hm (by rw [natLE_length]; exact h)]

/-! ## Umpire tables, pairing, replay (16 R405; 18 R460, R473) -/

theorem umpireTableSet_answers (hx : s.ctxOf (cctx c) = some x) (ha : allowed s c 0xE true 3) (h0 : par c 0 % 8 = 0)
    (h1 : par c 1 % 65536 = 0) : ∃ u, answers s u (.umpireTableSet c) c 0xE 0 0 ∧
      u.ctxOf (cctx c) = some { x with umparea := c.p.getD 1 0, umpvec := Vector.ofFn fun i : Fin 32 => s.word (ckey (par c 0 + 8 * i.val)) } := by
  refine ⟨_, simple_answers (r := 0) rfl ha ?_, ctxOf_updCtx
    (f := fun x => { x with umparea := c.p.getD 1 0, umpvec := Vector.ofFn fun i : Fin 32 => s.word (ckey (par c 0 + 8 * i.val)) })
    (fun _ => rfl) hx⟩
  rw [if_neg (by omega)]

theorem pairingSet_answers (hx : s.ctxOf (cctx c) = some x) (ha : allowed s c 0x18 true 1) :
    (par c 0 ≤ 1 → ∃ u, answers s u (.pairingSet c) c 0x18 0 0 ∧ u.ctxOf (cctx c) = some { x with pairing := decide (par c 0 = 1) }) ∧
      (1 < par c 0 → refuses s (.pairingSet c) c 0x18 2) := by
  refine ⟨fun h => ⟨_, simple_answers (r := 0) rfl ha ?_, ctxOf_updCtx (f := fun x => { x with pairing := decide (par c 0 = 1) })
    (fun _ => rfl) hx⟩, fun h => simple_refuses rfl ha ?_⟩
  · rw [if_neg (by omega)]
  · rw [if_pos h]; rfl

theorem partitionReplay_answers {q : LQueue} (ha : allowed s c 0x19 true 3) (h0 : par c 0 ≤ 63) (h1 : par c 1 ≤ 65535)
    (hn : s.acceptedCount (cctx c) (par c 0) = 0) (hq : s.queueOf (cctx c) (par c 0) = some q) :
    ∃ u, answers s u (.partitionReplay c) c 0x19 0 0 ∧ u.ras.divs = 0 ∧ u.ras.divTag = 0 ∧
      u.queueOf (cctx c) (par c 0) = some { q with replayWin := par c 1, replayLeft := par c 1, hashA := 0, hashB := 0 } := by
  refine ⟨((s.updQueue (cctx c) (par c 0) fun q => { q with replayWin := par c 1, replayLeft := par c 1, hashA := 0, hashB := 0 }).setRas
      fun r => { r with divs := 0, divTag := 0 }), simple_answers (r := 0) rfl ha ?_, rfl, rfl, queueOf_updQueue
    (f := fun q => { q with replayWin := par c 1, replayLeft := par c 1, hashA := 0, hashB := 0 }) (fun _ => rfl) hq⟩
  rw [if_neg (by omega), if_neg (by rw [hq]; simp), if_neg (by omega)]

/-! ## CAP_RESOLVE (16 R406) -/

theorem resolveParams_good (hp : par c 1 = 2 ∨ par c 1 = 5 ∨ (par c 1 ≤ 5 ∧ par c 2 = 0)) (hr : par c 1 = 2 → par c 2 % 8 = 0) :
    ¬(5 < par c 1 ∨ (par c 1 ≠ 2 ∧ par c 1 ≠ 5 ∧ par c 2 ≠ 0) ∨ (par c 1 = 2 ∧ par c 2 % 8 ≠ 0)) := by
  rintro (h | ⟨h2, h5, h0⟩ | ⟨h2, h8⟩)
  · omega
  · omega
  · exact h8 (hr h2)

/-- CAP_RESOLVE of a capability that firmware holds (16 R406). -/
theorem capResolve_eq (ha : allowed s c 0x1E false 7) (hp : par c 1 = 2 ∨ par c 1 = 5 ∨ (par c 1 ≤ 5 ∧ par c 2 = 0))
    (hr : par c 1 = 2 → par c 2 % 8 = 0) (h : FwCap) (hf : s.fw.caps.find? (fun h => decide (h.handle = par c 0)) = some h) :
    exec (.capResolve c) s = .next (match s.capStrand h.cap with
      | none => (s.freeHandle h.handle).reply c 0x1E stNotFound 0 0
      | some o =>
        if o.isFrozen && !decide (o.serial.toNat = capSerial h.cap) then (s.freeHandle h.handle).reply c 0x1E stNotFound 0 0
        else if !capRight h.cap (resolveRight (par c 1)) then s.reply c 0x1E 0xE 0 0
        else match (match par c 1 with
          | 0 => resolveFres s h o .retry
          | 1 => resolveFres s h o .skip
          | 2 => resolveFres s h o (.redirect (c.p.getD 2 0))
          | 3 => .inl ((s.kill none o.key false).freeHandle h.handle, 0)
          | 4 => .inl ((s.kill none o.key true).freeHandle h.handle, 0)
          | _ => resolveGive s h o (par c 2) : CmdOut) with
          | .inl (s1, r) => s1.reply c 0x1E 0 (BitVec.ofNat 64 r) 0
          | .inr st => s.reply c 0x1E st 0 0) := by
  unfold allowed at ha
  show execCapResolve c s = _
  unfold execCapResolve
  simp only [State.command, ha, if_neg (resolveParams_good hp hr), hf]
  rfl

theorem capResolve_unknown (ha : allowed s c 0x1E false 7) (hp : par c 1 = 2 ∨ par c 1 = 5 ∨ (par c 1 ≤ 5 ∧ par c 2 = 0))
    (hr : par c 1 = 2 → par c 2 % 8 = 0) (hf : s.fw.caps.find? (fun h => decide (h.handle = par c 0)) = none) :
    refuses s (.capResolve c) c 0x1E 7 := by
  unfold allowed at ha
  show execCapResolve c s = _
  unfold execCapResolve
  simp only [State.command, ha, if_neg (resolveParams_good hp hr), hf]
  rfl

/-- What an allowed action on the strand of a held capability is answered (16 R406). -/
theorem capResolve_acts {h : FwCap} {o : Strand} (ha : allowed s c 0x1E false 7)
    (hp : par c 1 = 2 ∨ par c 1 = 5 ∨ (par c 1 ≤ 5 ∧ par c 2 = 0)) (hr : par c 1 = 2 → par c 2 % 8 = 0)
    (hf : s.fw.caps.find? (fun h => decide (h.handle = par c 0)) = some h) (ho : s.capStrand h.cap = some o)
    (hs : o.isFrozen = true → o.serial.toNat = capSerial h.cap) :
    (capRight h.cap (resolveRight (par c 1)) = false → refuses s (.capResolve c) c 0x1E 0xE) ∧
      (capRight h.cap 3 = true → par c 1 = 3 → answers s ((s.kill none o.key false).freeHandle h.handle) (.capResolve c) c 0x1E 0 0) ∧
      (capRight h.cap 3 = true → par c 1 = 4 → answers s ((s.kill none o.key true).freeHandle h.handle) (.capResolve c) c 0x1E 0 0) ∧
      (capRight h.cap 2 = true → o.isFrozen = false → par c 1 ≤ 2 → refuses s (.capResolve c) c 0x1E 2) ∧
      (∀ s1, capRight h.cap 2 = true → o.isFrozen = true → s.replayAs o.key (performAll 8) = .done s1 →
        (par c 1 = 0 → answers s ((s1.resume o.key .retry).freeHandle h.handle) (.capResolve c) c 0x1E 0 0) ∧
        (par c 1 = 1 → answers s ((s1.resume o.key .skip).freeHandle h.handle) (.capResolve c) c 0x1E 0 0) ∧
        (par c 1 = 2 → answers s ((s1.resume o.key (.redirect (c.p.getD 2 0))).freeHandle h.handle) (.capResolve c) c 0x1E 0 0)) := by
  have hfresh : (o.isFrozen && !decide (o.serial.toNat = capSerial h.cap)) = false := by
    cases hz : o.isFrozen with
    | false => rfl
    | true => simp [hs hz]
  have he := capResolve_eq ha hp hr h hf
  simp only [ho, hfresh] at he
  refine ⟨fun hn => ?_, fun hc h3 => ?_, fun hc h4 => ?_, fun hc hz hle => ?_,
    fun s1 hc hz hd => ⟨fun h0 => ?_, fun h1 => ?_, fun h2 => ?_⟩⟩
  · refine he.trans ?_
    simp only [hn]; rfl
  · refine he.trans ?_
    simp only [h3, show resolveRight 3 = 3 from rfl, hc]; rfl
  · refine he.trans ?_
    simp only [h4, show resolveRight 4 = 3 from rfl, hc]; rfl
  · refine he.trans ?_
    obtain h | h | h : par c 1 = 0 ∨ par c 1 = 1 ∨ par c 1 = 2 := by omega
    · simp only [h, show resolveRight 0 = 2 from rfl, hc, resolveFres, hz]; rfl
    · simp only [h, show resolveRight 1 = 2 from rfl, hc, resolveFres, hz]; rfl
    · simp only [h, show resolveRight 2 = 2 from rfl, hc, resolveFres, hz]; rfl
  · refine he.trans ?_
    simp only [h0, show resolveRight 0 = 2 from rfl, hc, resolveFres, hz, hd]; rfl
  · refine he.trans ?_
    simp only [h1, show resolveRight 1 = 2 from rfl, hc, resolveFres, hz, hd]; rfl
  · refine he.trans ?_
    simp only [h2, show resolveRight 2 = 2 from rfl, hc, resolveFres, hz, hd]; rfl

theorem capResolve_stale {h : FwCap} {o : Strand} (ha : allowed s c 0x1E false 7)
    (hp : par c 1 = 2 ∨ par c 1 = 5 ∨ (par c 1 ≤ 5 ∧ par c 2 = 0)) (hr : par c 1 = 2 → par c 2 % 8 = 0)
    (hf : s.fw.caps.find? (fun h => decide (h.handle = par c 0)) = some h) (ho : s.capStrand h.cap = some o) (hz : o.isFrozen = true)
    (hs : o.serial.toNat ≠ capSerial h.cap) : exec (.capResolve c) s = .next ((s.freeHandle h.handle).reply c 0x1E 7 0 0) := by
  refine (capResolve_eq ha hp hr h hf).trans ?_
  simp only [ho, hz, hs]; rfl

theorem capResolve_gone {h : FwCap} (ha : allowed s c 0x1E false 7)
    (hp : par c 1 = 2 ∨ par c 1 = 5 ∨ (par c 1 ≤ 5 ∧ par c 2 = 0)) (hr : par c 1 = 2 → par c 2 % 8 = 0)
    (hf : s.fw.caps.find? (fun h => decide (h.handle = par c 0)) = some h) (ho : s.capStrand h.cap = none) :
    exec (.capResolve c) s = .next ((s.freeHandle h.handle).reply c 0x1E 7 0 0) := by
  refine (capResolve_eq ha hp hr h hf).trans ?_
  simp only [ho]; rfl

/-- PREEMPT swaps out the strands of the launches it names and answers how many went (16 R405). -/
theorem preempt_answers (ha : allowed s c 0xF true 1) (h0 : par c 0 < 2 ^ 56) :
    let uids := (s.sched.launches.filter fun l =>
      decide (l.ctx = cctx c) && (decide (par c 0 = 2 ^ 56 - 1) || decide ((l.rcd.getD 15 0).toNat = par c 0))).map (·.uid)
    let u := ((s.strands.filter fun o => uids.any fun n => decide (o.launch = some n)).map (·.key)).foldl (fun s k => s.swapAll k) s
    answers s u (.preempt c) c 0xF 0 (BitVec.ofNat 64 (outCount u - outCount s)) := by
  intro uids u
  refine simple_answers rfl ha ?_
  rw [if_neg (Nat.not_le.2 h0)]

end

/-! ## The obligation -/

/-- Settles O48: every command by what its checks and its body answer, contexts and queues by what a change of one keeps. -/
theorem contextAndQueueCommands : Obligations.ContextAndQueueCommands := by
  unfold Obligations.ContextAndQueueCommands
  intro s c
  refine ⟨ctxCreate_answers s c, ctxDestroy_starts, ctxDestroy_goesOn, fun x hx => ⟨namespaceCreate_answers hx, queueCreate_answers hx,
    queuePriority_answers hx, fun ha h0 h1 q hq => launchWindowConfig_answers ha h0 h1 hq, umpireTableSet_answers hx,
    fun ha => (pairingSet_answers hx ha).1, fun ha => (pairingSet_answers hx ha).2,
    fun ha h0 h1 hn q hq => partitionReplay_answers ha h0 h1 hn hq⟩, preempt_answers,
    fun ha hp hr => ⟨capResolve_unknown ha hp hr, fun h hf => ⟨capResolve_gone ha hp hr hf, fun o ho =>
      ⟨capResolve_stale ha hp hr hf ho, capResolve_acts ha hp hr hf ho⟩⟩⟩⟩

end Sys2Proof.Machine
end

section
/-! Rules of changes of one strand of many, and of passes over all strands. -/

namespace Sys2Proof.Machine

open Sys2Proof

/-! ## One strand changes -/

section
variable {s : State} {k : Nat} {f : Strand → Strand} (hk : ∀ x, (f x).key = x.key)
include hk

/-- A change leaves handles as they are. -/
theorem upd_uniqueKeys (hu : s.uniqueKeys) : (s.upd k f).uniqueKeys := by
  have hm : (s.upd k f).me.key = s.me.key := by
    rw [State.upd_me]
    split
    · exact hk _
    · rfl
  have ho : (s.upd k f).others.map (·.key) = s.others.map (·.key) := by
    rw [State.upd_others, List.map_map]
    congr 1
    funext x
    simp only [Function.comp_apply]
    split
    · exact hk x
    · rfl
  unfold State.uniqueKeys State.strands at hu ⊢
  rw [List.map_cons, hm, ho]
  exact hu

/-- Other strands stay as they are. -/
theorem strand_upd_ne {j : Nat} (h : j ≠ k) : (s.upd k f).strand j = s.strand j := by
  have hm : (s.upd k f).me = s.me ∨ s.me.key = k ∧ (s.upd k f).me = f s.me := by
    rw [State.upd_me]
    split
    · exact .inr ⟨by tauto, rfl⟩
    · exact .inl rfl
  have hp : present j (s.upd k f).me = present j s.me ∧ (present j s.me = true → (s.upd k f).me = s.me) := by
    rcases hm with hm | ⟨hmk, hm⟩
    · rw [hm]
      exact ⟨rfl, fun _ => rfl⟩
    · have h1 : present j s.me = false := by simp [present, hmk, Ne.symm h]
      have h2 : present j (f s.me) = false := by simp [present, hk, hmk, Ne.symm h]
      rw [hm, h1, h2]
      exact ⟨rfl, nofun⟩
  have hothers : (s.upd k f).others.find? (present j) = s.others.find? (present j) := by
    rw [State.upd_others, List.find?_map]
    have hc : present j ∘ (fun x : Strand => if x.key = k then f x else x) = present j := by
      funext x
      simp only [Function.comp_apply]
      split
      · rename_i hx
        simp [present, hk, hx, Ne.symm h]
      · rfl
    rw [hc]
    cases ho : s.others.find? (present j) with
    | none => rfl
    | some x =>
      have hx : x.key = j := (present_iff.1 (List.find?_some ho)).1
      rw [Option.map_some, if_neg (by rw [hx]; exact h)]
  rw [State.strand_eq, State.strand_eq, hp.1, hothers]
  split
  · rename_i hj
    rw [hp.2 hj]
  · rfl

/-- The strand of the handle, where no other has it. -/
theorem strand_upd_self (hu : s.uniqueKeys) {o : Strand} (ho : s.strand k = some o) (hr : (f o).run ≠ .empty) :
    (s.upd k f).strand k = some (f o) := by
  obtain ⟨hmem, hkey, he⟩ := State.strand_some ho
  have hm : f o ∈ (s.upd k f).strands := by
    rcases List.mem_cons.1 hmem with rfl | hmem
    · refine List.mem_cons.2 (.inl ?_)
      rw [State.upd_me, if_pos ⟨hkey, he⟩]
    · refine List.mem_cons_of_mem _ ?_
      rw [State.upd_others]
      exact List.mem_map.2 ⟨o, hmem, if_pos hkey⟩
  have h := (upd_uniqueKeys hk hu).strand hm hr
  rwa [hk, hkey] at h

end

/-! ## Passes over the strands -/

/-- A pass that changes each strand at its own turn: what it makes of one of them, in a state that the pass keeps as `I` says. -/
theorem strand_pass {f : State → Strand → State} {I : State → Prop} (hI : ∀ s o, I s → I (f s o))
    (hne : ∀ s o k, I s → k ≠ o.key → (f s o).strand k = s.strand k) {l : List Strand} (hn : (l.map (·.key)).Nodup) {s : State} (hs : I s)
    {o : Strand} (ho : o ∈ l) :
    ∃ u, I u ∧ u.strand o.key = s.strand o.key ∧ (l.foldl f s).strand o.key = (f u o).strand o.key := by
  have hstay : ∀ (l : List Strand) (s : State), I s → o.key ∉ l.map (·.key) → (l.foldl f s).strand o.key = s.strand o.key := by
    intro l
    induction l with
    | nil => exact fun _ _ _ => rfl
    | cons x l ih =>
      intro s hs hx
      obtain ⟨h1, h2⟩ := not_or.1 (fun h => hx (List.mem_cons.2 h))
      rw [List.foldl_cons, ih _ (hI s x hs) h2, hne s x _ hs h1]
  induction l generalizing s with
  | nil => cases ho
  | cons x l ih =>
    obtain ⟨hx, hn⟩ := List.nodup_cons.1 hn
    rcases List.mem_cons.1 ho with rfl | ho
    · exact ⟨s, hs, rfl, hstay l _ (hI s o hs) hx⟩
    · obtain ⟨u, hu, h1, h2⟩ := ih hn (hI s x hs) ho
      have hxo : o.key ≠ x.key := fun h => hx (List.mem_map.2 ⟨o, ho, h⟩)
      exact ⟨u, hu, h1.trans (hne s x _ hs hxo), h2⟩

theorem foldl_keeps {α : Type} {f : State → α → State} {I : State → Prop} (hI : ∀ s o, I s → I (f s o)) (l : List α) {s : State} (hs : I s) :
    I (l.foldl f s) := List.foldlRecOn l f hs fun u hu o _ => hI u o hu

end Sys2Proof.Machine
end

section
/-! The debug module, the patrol scrub and samples (18 R454-R457, R467-R469; 11 R336; 01 R16). -/

namespace Sys2Proof.Machine

open Sys2Proof

/-! ## Fields of a number -/

/-- A number with one of its equal fields replaced. -/
def withField (n i w x : Nat) : Nat := n - fld n (i * w) w * 2 ^ (i * w) + x * 2 ^ (i * w)

theorem withField_eq (n i w x : Nat) : withField n i w x = cat (cat (n / 2 ^ (i * w) / 2 ^ w) w x) (i * w) (n % 2 ^ (i * w)) := by
  have h1 := Nat.div_add_mod n (2 ^ (i * w))
  have h2 := Nat.div_add_mod (n / 2 ^ (i * w)) (2 ^ w)
  unfold withField cat fld
  generalize n / 2 ^ (i * w) = q at *
  generalize q / 2 ^ w = h, q % 2 ^ w = f at *
  generalize n % 2 ^ (i * w) = l at *
  subst h2 h1
  have h3 : 2 ^ (i * w) * (2 ^ w * h + f) + l = f * 2 ^ (i * w) + (h * 2 ^ w * 2 ^ (i * w) + l) := by ring
  rw [h3, Nat.add_sub_cancel_left]
  ring

/-- The field is replaced, the others stay. -/
theorem fld_withField (n i j : Nat) {w x : Nat} (hx : x < 2 ^ w) :
    fld (withField n i w x) (j * w) w = if j = i then x else fld n (j * w) w := by
  have hn : n = withField n i w (fld n (i * w) w) := by
    have : fld n (i * w) w * 2 ^ (i * w) ≤ n :=
      (Nat.mul_le_mul_right _ (Nat.mod_le _ _)).trans (Nat.div_mul_le_self _ _)
    unfold withField
    omega
  have hlo : n % 2 ^ (i * w) < 2 ^ (i * w) := Nat.mod_lt _ (by positivity)
  have hf : fld n (i * w) w < 2 ^ w := Nat.mod_lt _ (by positivity)
  rcases Nat.lt_trichotomy j i with h | rfl | h
  · have hle : j * w + w ≤ i * w := by
      rw [← Nat.succ_mul]; exact Nat.mul_le_mul_right _ h
    rw [if_neg (by omega)]
    conv_rhs => rw [hn]
    rw [withField_eq, withField_eq, fld_cat_lo hle, fld_cat_lo hle]
  · rw [if_pos rfl, withField_eq, fld_cat_hi hlo le_rfl, Nat.sub_self, fld_cat_lo (by omega), fld_self hx]
  · have hle : i * w + w ≤ j * w := by
      rw [← Nat.succ_mul]; exact Nat.mul_le_mul_right _ h
    rw [if_neg (by omega)]
    conv_rhs => rw [hn]
    rw [withField_eq, withField_eq, fld_cat_hi hlo (by omega), fld_cat_hi hlo (by omega), fld_cat_hi hx (by omega),
      fld_cat_hi hf (by omega)]

/-- A field below a bound is one of the number below the bound. -/
theorem fld_mod (z : Nat) {lo len k : Nat} (h : lo + len ≤ k) : fld (z % 2 ^ k) lo len = fld z lo len := by
  have hz : z = cat (z / 2 ^ k) k (z % 2 ^ k) := (Nat.div_add_mod' z (2 ^ k)).symm
  conv_rhs => rw [hz]
  rw [fld_cat_lo h]

theorem fld_ofNat {w : Nat} (z : Nat) {lo len : Nat} (h : lo + len ≤ w) : fld (BitVec.ofNat w z).toNat lo len = fld z lo len := by
  rw [BitVec.toNat_ofNat, fld_mod z h]

/-! ## Stopping and going on (18 R469) -/

/-- A strand that enters Stopped leaves the others, the clock and which cores are stopped as they are. -/
theorem enterStopped_strands (s : State) (o : Strand) (k : Nat) (h : k ≠ o.key) : (s.enterStopped o).strand k = s.strand k := by
  unfold State.enterStopped
  rw [strand_upd_ne (f := fun o => { o with run := .stopped }) (fun _ => rfl) h]
  exact State.strand_congr (State.traceOf_me ..) (State.traceOf_others ..) k

theorem enterStopped_self {s : State} (hu : s.uniqueKeys) {o : Strand} (h : s.strand o.key = some o) :
    (s.enterStopped o).strand o.key = some { o with run := .stopped } := by
  unfold State.enterStopped
  refine strand_upd_self (f := fun o => { o with run := .stopped }) (fun _ => rfl) ?_ ?_ (by simp)
  · unfold State.uniqueKeys State.strands at hu ⊢
    rw [State.traceOf_me, State.traceOf_others]
    exact hu
  · rw [State.strand_congr (State.traceOf_me ..) (State.traceOf_others ..), h]

theorem enterStopped_stopped (s : State) (o : Strand) (c : Nat) : ((s.enterStopped o).core c).stopped = (s.core c).stopped := by
  have h : tracesOnly (s.core c) ((s.traceOf o 9 0).core c) := s.core_traceOf o 9 0 c
  show ((s.traceOf o 9 0).core c).stopped = _
  rw [h]

theorem enterStopped_uniqueKeys {s : State} (hu : s.uniqueKeys) (o : Strand) : (s.enterStopped o).uniqueKeys := by
  refine upd_uniqueKeys (f := fun o => { o with run := .stopped }) (fun _ => rfl) ?_
  unfold State.uniqueKeys State.strands at hu ⊢
  rw [State.traceOf_me, State.traceOf_others]
  exact hu

/-- Handles are of one strand each, and the cores stopped are those of `st`. -/
structure stopsAs (st : Nat → Bool) (s : State) : Prop where
  unique : s.uniqueKeys
  stopped : ∀ c, (s.core c).stopped = st c

/-- One strand's part in a pass that stops who stands at a boundary. -/
def State.stopAt (s : State) (o : Strand) : State := if ((s.core o.core).stopped && atBoundary o) = true then s.enterStopped o else s

theorem stopAt_stopsAs {st : Nat → Bool} (s : State) (o : Strand) (h : stopsAs st s) : stopsAs st (s.stopAt o) := by
  unfold State.stopAt
  split
  · exact ⟨enterStopped_uniqueKeys h.unique o, fun c => (enterStopped_stopped s o c).trans (h.stopped c)⟩
  · exact h

theorem stopAt_strands (s : State) (o : Strand) (k : Nat) (h : k ≠ o.key) : (s.stopAt o).strand k = s.strand k := by
  unfold State.stopAt
  split
  · exact enterStopped_strands s o k h
  · rfl

theorem stopRest_eq (s : State) : s.stopRest = s.strands.foldl State.stopAt s := rfl

theorem stopRest_stopsAs {s : State} {st : Nat → Bool} (h : stopsAs st s) : stopsAs st s.stopRest :=
  foldl_keeps stopAt_stopsAs s.strands h

/-- Who stands at a boundary on a stopped core enters Stopped, and nobody else. -/
theorem stopRest_strand {s : State} {st : Nat → Bool} (h : stopsAs st s) {k : Nat} {o : Strand} (ho : s.strand k = some o) :
    s.stopRest.strand k = some (if (st o.core && atBoundary o) = true then { o with run := .stopped } else o) := by
  obtain ⟨hm, hk, _⟩ := State.strand_some ho
  subst hk
  obtain ⟨u, hu, h1, h2⟩ := strand_pass stopAt_stopsAs (fun s o k _ => stopAt_strands s o k) h.unique h hm
  rw [ho] at h1
  rw [stopRest_eq, h2]
  unfold State.stopAt
  rw [hu.stopped]
  split
  · exact enterStopped_self hu.unique h1
  · exact h1

theorem debugStop_stops {s : State} {core : Nat} (hu : s.uniqueKeys) (hw : stopWith s core = [core]) :
    ∃ t, exec (.debugStop core) s = .next t ∧ (t.core core).stopped = true ∧ ∀ k o, s.strand k = some o →
      t.strand k = some (if (o.core = core ∨ (s.core o.core).stopped = true) ∧ atBoundary o = true then { o with run := .stopped } else o) := by
  have h1 : stopsAs (fun c => decide (c = core) || (s.core c).stopped) (s.setCore core fun k => { k with stopped := true }) := by
    refine ⟨hu, fun c => ?_⟩
    rw [State.core_setCore _ _ _ _ (State.core_id _ _)]
    by_cases hc : c = core
    · simp [hc]
    · simp [hc]
  refine ⟨(s.setCore core fun k => { k with stopped := true }).stopRest, ?_, ?_, fun k o ho => ?_⟩
  · show execDebugStop core s = _
    unfold execDebugStop
    rw [hw]
    rfl
  · rw [(stopRest_stopsAs h1).stopped]
    simp
  · rw [stopRest_strand h1 (o := o) ho]
    simp only [Bool.and_eq_true, Bool.or_eq_true, decide_eq_true_eq]

theorem goOn_key (b : Bool) (t : Nat) (o : Strand) : (goOn b t o).key = o.key := by
  unfold goOn
  split
  · rfl
  · split
    · exact clauseEnd_key o o
    · split
      · rfl
      · rfl

theorem goOn_present (b : Bool) (t : Nat) {o : Strand} (h : o.run ≠ .empty) : (goOn b t o).run ≠ .empty := by
  unfold goOn
  split
  · exact h
  · split
    · simp
    · split
      · simp
      · cases b <;> simp

/-- What a pass that lets a core's strands go on keeps. -/
structure resumesAs (s u : State) : Prop where
  unique : u.uniqueKeys
  sched : u.sched = s.sched
  tick : u.tick = s.tick
  mem : u.mem = s.mem
  cores : u.cores = s.cores

/-- One strand's part in that pass. -/
def State.resumeAt (core : Nat) (s : State) (o : Strand) : State :=
  if o.core = core ∧ o.out = false then s.upd o.key (goOn (leads s o) s.tick) else s

theorem resumeAt_keeps {core : Nat} {s : State} (u : State) (o : Strand) (h : resumesAs s u) : resumesAs s (u.resumeAt core o) := by
  unfold State.resumeAt
  split
  · exact ⟨upd_uniqueKeys (goOn_key _ _) h.unique, h.sched, h.tick, h.mem, h.cores⟩
  · exact h

theorem debugResume_goesOn {s : State} {core : Nat} (hu : s.uniqueKeys) :
    ∃ t, exec (.debugResume core) s = .next t ∧ (t.core core).stopped = false ∧ t.mem = s.mem ∧ ∀ k o, s.strand k = some o →
      t.strand k = some (if o.core = core ∧ o.out = false then goOn (leads s o) s.tick o else o) := by
  let s1 := s.setCore core fun k => { k with stopped := false }
  have h1 : resumesAs s1 s1 := ⟨hu, rfl, rfl, rfl, rfl⟩
  have ht := foldl_keeps (resumeAt_keeps (core := core)) s1.strands h1
  refine ⟨s1.strands.foldl (State.resumeAt core) s1, rfl, ?_, ht.mem, fun k o ho => ?_⟩
  · unfold State.core
    rw [ht.cores]
    show (s1.core core).stopped = false
    rw [State.core_setCore _ _ _ _ (State.core_id _ _), if_pos rfl]
  · obtain ⟨hm, hk, he⟩ := State.strand_some ho
    subst hk
    have hne : ∀ (u : State) (o : Strand) (k : Nat), resumesAs s1 u → k ≠ o.key → (u.resumeAt core o).strand k = u.strand k := by
      intro u o k _ h
      unfold State.resumeAt
      split
      · exact strand_upd_ne (goOn_key _ _) h
      · rfl
    obtain ⟨u, hI, h2, h3⟩ := strand_pass (resumeAt_keeps (core := core)) hne (l := s1.strands) hu h1 hm
    have h2 : u.strand o.key = some o := h2.trans ho
    have hl : leads u o = leads s o := by
      unfold leads State.gangOf
      rw [hI.sched]
      rfl
    rw [h3]
    unfold State.resumeAt
    rw [hl, hI.tick]
    split
    · exact strand_upd_self (goOn_key _ _) hI.unique h2 (goOn_present _ _ he)
    · exact h2

/-! ## What the debug port reaches (18 R469) -/

section
variable {s : State} {key : Nat} {o : Strand} (ho : s.strand key = some o)
include ho

/-- A read of a stopped strand, or of any strand's run state, leaves its value at the port. -/
theorem debugAccess_reads {what : DebugItem} (x : Word) (hb : ∀ c off, what ≠ .bank c off) (h : o.run = .stopped ∨ what = .run) :
    exec (.debugAccess key false what x) s = .next { s with tap := debugRead s o what } := by
  show execDebugAccess key false what x s = _
  cases what with
  | bank c off => exact (hb c off rfl).elim
  | run => simp [execDebugAccess, ho, done]
  | g n => simp [execDebugAccess, ho, h.resolve_right nofun, done]
  | v n part => simp [execDebugAccess, ho, h.resolve_right nofun, done]
  | k n => simp [execDebugAccess, ho, h.resolve_right nofun, done]
  | pc => simp [execDebugAccess, ho, h.resolve_right nofun, done]
  | word sel => simp [execDebugAccess, ho, h.resolve_right nofun, done]
  | lmem off => simp [execDebugAccess, ho, h.resolve_right nofun, done]

/-- What is not stopped is not reached. -/
theorem debugAccess_unreached {what : DebugItem} {wr : Bool} (x : Word) (hr : o.run ≠ .stopped) (hw : wr = true ∨ what ≠ .run)
    (hl : ∀ off, what = .lmem off → (s.core o.core).stopped = false) (hb : ∀ c off, what ≠ .bank c off) :
    exec (.debugAccess key wr what x) s = .next s := by
  show execDebugAccess key wr what x s = _
  cases what with
  | bank c off => exact (hb c off rfl).elim
  | run => simp [execDebugAccess, ho, hr, hw.resolve_right (fun h => h rfl), done]
  | g n => simp [execDebugAccess, ho, hr, done]
  | v n part => simp [execDebugAccess, ho, hr, done]
  | k n => simp [execDebugAccess, ho, hr, done]
  | pc => simp [execDebugAccess, ho, hr, done]
  | word sel => simp [execDebugAccess, ho, hr, done]
  | lmem off => simp [execDebugAccess, ho, hr, hl off rfl, done]

/-- A write to a register or to the PC of a stopped strand. -/
theorem debugAccess_writes {what : DebugItem} (x : Word) (hs : o.run = .stopped) (hw : ∀ sel, what ≠ .word sel)
    (hl : ∀ off, what ≠ .lmem off) (hb : ∀ c off, what ≠ .bank c off) :
    exec (.debugAccess key true what x) s = .next (s.upd key (debugWrite what x)) := by
  show execDebugAccess key true what x s = _
  cases what with
  | bank c off => exact (hb c off rfl).elim
  | lmem off => exact (hl off rfl).elim
  | word sel => exact (hw sel rfl).elim
  | run => simp [execDebugAccess, ho, hs, done]
  | g n => simp [execDebugAccess, ho, hs, done]
  | v n part => simp [execDebugAccess, ho, hs, done]
  | k n => simp [execDebugAccess, ho, hs, done]
  | pc => simp [execDebugAccess, ho, hs, done]

theorem debugAccess_writesWord {sel : BitVec 12} {x : Word} (hs : o.run = .stopped) (hc : selCause .firmware sel.toNat (some x) = none) :
    exec (.debugAccess key true (.word sel) x) s = .next (s.writeWordOf key sel.toNat x) := by
  show execDebugAccess key true (.word sel) x s = _
  simp [execDebugAccess, ho, hs, hc, done]

theorem debugAccess_writesLocal (off : BitVec 17) (x : Word) (hs : o.run = .stopped) :
    exec (.debugAccess key true (.lmem off) x) s = .next (s.put (.mem (lkey o.core (off.toNat / 8 * 8))) (natLE 8 x.toNat)) := by
  show execDebugAccess key true (.lmem off) x s = _
  simp [execDebugAccess, ho, hs, done]

end

/-- A word of memory that is stored reads back, and no other byte changes. -/
theorem word_stored {s : State} (k : Nat) (x : Word) (hm : s.memWf) :
    (s.put (.mem k) (natLE 8 x.toNat)).word k = x ∧ sameMemOutside s (s.put (.mem k) (natLE 8 x.toNat)) k 8 := by
  have hl : (natLE 8 x.toNat).length = 8 := natLE_length _ _
  refine ⟨State.word_put (i := 0) hm (by omega) (by rw [List.drop_zero, List.take_of_length_le (by omega)]), ?_⟩
  have h := State.put_outside k (natLE 8 x.toNat) hm
  rwa [hl] at h

/-- A word of a vector register is replaced, its others stay. -/
theorem laneOf_debugWrite (o : Strand) (n : R5) (part : BitVec 3) (x : Word) {j : Nat} (hj : j < 8) :
    laneOf 64 ((debugWrite (.v n part) x o).vr n) j = if j = part.toNat then x.toNat else laneOf 64 (o.vr n) j := by
  have hj : j * 64 + 64 ≤ 512 := by omega
  have hv : (debugWrite (.v n part) x o).vr n = BitVec.ofNat 512 (withField (o.vr n).toNat part.toNat 64 x.toNat) := by
    unfold withField
    rw [Nat.mul_comm part.toNat 64]
    exact Vector.getD_setIfInBounds_self _ _ _ n.isLt
  unfold laneOf
  rw [hv, fld_ofNat _ hj, fld_withField _ _ _ x.isLt]

/-- A core's bank is reached while the core is stopped. -/
theorem debugAccess_bank (s : State) (key : Nat) (c : BitVec 12) (off : BitVec 17) (x : Word) (wr : Bool) :
    exec (.debugAccess key wr (.bank c off) x) s = .next
      (if 2568 ≤ c.toNat ∨ (s.core c.toNat).stopped = false then s
       else if wr then s.put (.mem (lkey c.toNat (off.toNat / 8 * 8))) (natLE 8 x.toNat)
       else { s with tap := s.word (lkey c.toNat (off.toNat / 8 * 8)) }) := by
  show execDebugAccess key wr (.bank c off) x s = _
  simp only [execDebugAccess]
  split
  · rfl
  · rfl

/-! ## Errors that a patrol finds (18 R454-R457) -/

/-- A corrected error is counted in its unit's field alone, saturating (18 R458). -/
theorem countCe_counts (s : State) (n : Nat) :
    s.countCe n = { s with ras := { s.ras with ce := (s.countCe n).ras.ce } } ∧
      ∀ i ∈ [0, 16, 32, 48], fld (s.countCe n).ras.ce.toNat i 16 =
        if i = ceField n then min 0xFFFF (fld s.ras.ce.toNat i 16 + 1) else fld s.ras.ce.toNat i 16 := by
  refine ⟨rfl, fun i hi => ?_⟩
  obtain ⟨f, hf⟩ : ∃ f, ceField n = f * 16 := by
    unfold ceField
    split
    · exact ⟨3, rfl⟩
    · exact ⟨2, rfl⟩
    · exact ⟨1, rfl⟩
    · exact ⟨1, rfl⟩
    · exact ⟨0, rfl⟩
  obtain ⟨j, rfl, hj⟩ : ∃ j, i = j * 16 ∧ j < 4 := by
    simp only [List.mem_cons, List.not_mem_nil, or_false] at hi
    obtain rfl | rfl | rfl | rfl := hi
    · exact ⟨0, rfl, by decide⟩
    · exact ⟨1, rfl, by decide⟩
    · exact ⟨2, rfl, by decide⟩
    · exact ⟨3, rfl, by decide⟩
  have hce : (s.countCe n).ras.ce = BitVec.ofNat 64 (withField s.ras.ce.toNat f 16 (min 0xFFFF (fld s.ras.ce.toNat (f * 16) 16 + 1))) := by
    unfold State.countCe withField
    rw [hf]
    rfl
  rw [hce, fld_ofNat _ (by omega), fld_withField _ _ _ (lt_of_le_of_lt (Nat.min_le_left _ _) (by decide)), hf]
  by_cases hjf : j = f
  · subst hjf
    rw [if_pos rfl, if_pos rfl]
  · rw [if_neg hjf, if_neg (by omega)]

/-- The granule of no word of a black box. -/
def unboxed (g : Nat) : Prop := g < 2 ^ 40 ∨ 2 ^ 61 ≤ g

/-- A store in a black box leaves the poison of every other granule (18 R455). -/
theorem mem_clearPoison_box {p : List Nat} {g die k n : Nat} (hg : unboxed g) (hk : boxOf die ≤ k ∧ k + n ≤ boxOf die + 65536)
    (h : g ∈ p) : g ∈ clearPoison p (.mem k) n := by
  have hb : 2 ^ 43 ≤ boxOf die ∧ boxOf die + 65536 < 2 ^ 44 := by
    unfold boxOf sram
    split <;> constructor <;> omega
  refine List.mem_filter.2 ⟨h, ?_⟩
  simp only [Bool.not_eq_true', List.any_eq_false, List.mem_range, Bool.and_eq_true, decide_eq_true_eq]
  rintro i _ ⟨⟨hgi, _⟩, hi⟩
  have hgi : (k + i * 8) / 8 = g := hgi
  generalize boxOf die = b at hk hb
  unfold unboxed at hg
  omega

/-- What errors leave: every strand, and the poison outside the black boxes. -/
structure poisonKept (s t : State) : Prop where
  strands : t.strands = s.strands
  poison : ∀ g ∈ s.poison, unboxed g → g ∈ t.poison

theorem poisonKept.trans {s t u : State} (h : poisonKept s t) (h' : poisonKept t u) : poisonKept s u :=
  ⟨h'.strands.trans h.strands, fun g hg hu => h'.poison g (h.poison g hg hu) hu⟩

theorem poisonKept_setRas (s : State) (f : Ras → Ras) : poisonKept s (s.setRas f) := ⟨rfl, fun _ h _ => h⟩

theorem poisonKept_setFw (s : State) (f : Firmware → Firmware) : poisonKept s (s.setFw f) := ⟨rfl, fun _ h _ => h⟩

theorem poisonKept_put (s : State) {die k : Nat} {bs : List Byte} (hk : boxOf die ≤ k ∧ k + bs.length ≤ boxOf die + 65536) :
    poisonKept s (s.put (.mem k) bs) := by
  rw [s.put_mem_eq k bs]
  exact ⟨rfl, fun g hg hu => mem_clearPoison_box hu hk hg⟩

/-- A black-box record changes no strand, and no poison outside the black boxes. -/
theorem poisonKept_blackBox (s : State) (die typ code who ctx : Nat) (x : Word) : poisonKept s (s.blackBox die typ code who ctx x) := by
  obtain ⟨k, bs, f, hk, hb⟩ := blackBox_eq s die typ code who ctx x
  rw [hb]
  exact (poisonKept_put s hk).trans (poisonKept_setRas _ f)

/-- So does the report of an error (18 R458, R465). -/
theorem poisonKept_reportAt (s : State) (key unit : Nat) : poisonKept s (s.reportAt key unit) := by
  unfold State.reportAt State.reportUe
  exact ((poisonKept_setFw s _).trans (poisonKept_blackBox _ _ _ _ _ _ _)).trans (poisonKept_setRas _ _)

theorem poisonKept.mark {s t : State} (h : poisonKept s t) (g : Nat) : poisonKept s { t with poison := t.poison ++ [g] } :=
  ⟨h.strands, fun g' hg hu => List.mem_append_left _ (h.poison g' hg hu)⟩

/-- A poisoned place is left as it is, another becomes poisoned (18 R455). -/
theorem poisonPlace_cases (s : State) (unit key : Nat) (l : Loc) :
    granule l ∈ s.poison ∧ s.poisonPlace unit key l = s ∨
      granule l ∉ s.poison ∧ ∃ t, poisonKept s t ∧ s.poisonPlace unit key l = { t with poison := t.poison ++ [granule l] } := by
  unfold State.poisonPlace
  split
  · exact .inl ⟨List.contains_iff_mem.1 ‹_›, rfl⟩
  · rename_i h
    exact .inr ⟨fun hc => h (List.contains_iff_mem.2 hc), _, poisonKept_reportAt s key unit, rfl⟩

/-- What poisoning a place leaves (18 R455). -/
theorem poisonPlace_keeps (s : State) (unit key : Nat) (l : Loc) :
    (s.poisonPlace unit key l).strands = s.strands ∧ granule l ∈ (s.poisonPlace unit key l).poison ∧
      (granule l ∈ s.poison → s.poisonPlace unit key l = s) ∧ ∀ g ∈ s.poison, unboxed g → g ∈ (s.poisonPlace unit key l).poison := by
  obtain ⟨hm, he⟩ | ⟨hn, t, ht, he⟩ := poisonPlace_cases s unit key l <;> rw [he]
  · exact ⟨rfl, hm, fun _ => rfl, fun g hg _ => hg⟩
  · have h := ht.mark (granule l)
    exact ⟨h.strands, List.mem_append_right _ List.mem_cons_self, fun hc => (hn hc).elim, h.poison⟩

/-- Poisoning places one after another (18 R455). -/
theorem poisonPlaces_keep (unit : Nat) (at' : Loc × Nat → Nat) (l : List (Loc × Nat)) (hl : ∀ p ∈ l, unboxed (granule p.1)) (s : State) :
    let t := l.foldl (fun s p => s.poisonPlace unit (at' p) p.1) s
    t.strands = s.strands ∧ (∀ p ∈ l, granule p.1 ∈ t.poison) ∧ ((∀ p ∈ l, granule p.1 ∈ s.poison) → t = s) ∧
      ∀ g ∈ s.poison, unboxed g → g ∈ t.poison := by
  induction l generalizing s with
  | nil => exact ⟨rfl, nofun, fun _ => rfl, fun g hg _ => hg⟩
  | cons p l ih =>
    obtain ⟨hs, hm, he, hk⟩ := poisonPlace_keeps s unit (at' p) p.1
    obtain ⟨hs', hm', he', hk'⟩ := ih (fun q hq => hl q (List.mem_cons_of_mem _ hq)) (s.poisonPlace unit (at' p) p.1)
    refine ⟨hs'.trans hs, fun q hq => ?_, fun h => ?_, fun g hg hu => hk' g (hk g hg hu) hu⟩
    · rcases List.mem_cons.1 hq with rfl | hq
      · exact hk' _ hm (hl q List.mem_cons_self)
      · exact hm' q hq
    · have h0 := he (h p List.mem_cons_self)
      rw [h0] at he'
      rw [List.foldl_cons, h0]
      exact he' fun q hq => h q (List.mem_cons_of_mem _ hq)

/-- The places of an HBM4 burst lie in no black box. -/
theorem badPlaces_unboxed {s : State} {k : Nat} (hk : k < 2 ^ 43) : ∀ l ∈ badPlaces s k 4, unboxed (granule l) := by
  intro l hl
  unfold badPlaces at hl
  rw [if_pos rfl, List.mem_map] at hl
  obtain ⟨i, hi, rfl⟩ := hl
  have hi : i < 8 := List.mem_range.1 hi
  have hmem : ∀ a, a < 2 ^ 43 → unboxed (granule (.mem a)) := fun a ha => .inl (by show a / 8 < _; omega)
  have ha : k / 64 * 64 + 8 * i < 2 ^ 43 := by omega
  unfold faultPlace
  generalize k / 64 * 64 + 8 * i = a at ha
  split
  · cases ht : tileAt s a with
    | none => exact hmem a ha
    | some l =>
      unfold tileAt at ht
      obtain ⟨v, _, ht⟩ := List.exists_of_findSome?_eq_some ht
      obtain ⟨p, _, ht⟩ := List.exists_of_findSome?_eq_some ht
      dsimp only at ht
      split at ht
      · cases ht
        right
        show 2 ^ 61 ≤ 2 ^ 63 + _ + _
        omega
      · cases ht
  · exact hmem a ha

/-- What a patrol or an access does with an error that it may find (18 R454-R457). -/
theorem patrolScrub_found {s : State} {u : BitVec 4} (k : Nat) (h : byAccess u = true ∨ patrolOn s (errorUnit u) = true) (un : Bool) :
    exec (.patrolScrub k u un) s =
      if un = false then .next (s.countCe (errorUnit u))
      else match errorUnit u with
        | 1 => .next ((s.reportAt k 1).spoilRegs k)
        | 5 => .next ((s.reportAt k 5).upd k fun o => if o.out then { o with badEntry := true } else o)
        | 7 => .next ((s.reportAt k 7).spoilEntry k)
        | _ => .next (((badPlaces s k (errorUnit u)).zipIdx).foldl (fun s p =>
            s.poisonPlace (errorUnit u) ((if errorUnit u = 4 then k / 64 * 64 else k / 8 * 8) + 8 * p.2) p.1) s) := by
  have hb : (byAccess u || patrolOn s (errorUnit u)) = true := by rwa [Bool.or_eq_true]
  show execPatrolScrub k u un s = _
  simp only [execPatrolScrub, hb, done]
  cases un <;> rfl

/-- An uncorrectable error of a memory poisons the granules of its places, each reported once (18 R455). -/
theorem patrolScrub_poisons {s : State} {u : BitVec 4} {k : Nat} (h : byAccess u = true ∨ patrolOn s (errorUnit u) = true)
    (hn : errorUnit u ∉ [1, 5, 7]) (hk : errorUnit u = 4 → k < 2 ^ 43) :
    ∃ t, exec (.patrolScrub k u true) s = .next t ∧ t.strands = s.strands ∧
      ((∀ l ∈ badPlaces s k (errorUnit u), granule l ∈ s.poison) → t = s) ∧
      ∀ l ∈ badPlaces s k (errorUnit u), granule l ∉ s.poison → granule l ∈ t.poison := by
  rw [patrolScrub_found k h true, if_neg Bool.noConfusion]
  generalize errorUnit u = n at hn hk
  simp only [List.mem_cons, List.not_mem_nil, or_false, not_or] at hn
  obtain ⟨h1, h5, h7⟩ := hn
  split
  · exact absurd rfl h1
  · exact absurd rfl h5
  · exact absurd rfl h7
  · by_cases h4 : n = 4
    · subst h4
      obtain ⟨hs, hm, he, -⟩ := poisonPlaces_keep 4 (fun p => (if 4 = 4 then k / 64 * 64 else k / 8 * 8) + 8 * p.2) (badPlaces s k 4).zipIdx
        (fun p hp => badPlaces_unboxed (hk rfl) p.1 (List.fst_mem_of_mem_zipIdx hp)) s
      refine ⟨_, rfl, hs, fun hl => he fun p hp => hl p.1 (List.fst_mem_of_mem_zipIdx hp), fun l hl _ => ?_⟩
      obtain ⟨i, hi, rfl⟩ := List.mem_iff_getElem.1 hl
      exact hm (_, i) (List.mk_mem_zipIdx_iff_getElem?.2 (List.getElem?_eq_getElem hi))
    · have hb : badPlaces s k n = [faultPlace s k] := if_neg h4
      rw [hb]
      obtain ⟨hs, hm, he, -⟩ := poisonPlace_keeps s n ((if n = 4 then k / 64 * 64 else k / 8 * 8) + 8 * 0) (faultPlace s k)
      refine ⟨_, rfl, hs, fun hl => he (hl _ List.mem_cons_self), fun l hl _ => ?_⟩
      rw [List.mem_singleton.1 hl]
      exact hm

/-! ## Samples (18 R467, R468) -/

/-- A record in its ring changes no strand and no firmware, and the memory stays well formed. -/
theorem ringWrite_keeps (base size : Nat) (n : Nat) (s : State) (pos : Nat) (bs : List Byte) :
    (s.ringWrite base size pos bs n).strands = s.strands ∧ (s.ringWrite base size pos bs n).fw = s.fw ∧
      (s.memWf → (s.ringWrite base size pos bs n).memWf) := by
  induction n generalizing s pos bs with
  | zero => exact ⟨rfl, rfl, id⟩
  | succ n ih =>
    unfold State.ringWrite
    split
    · exact ⟨rfl, rfl, id⟩
    · obtain ⟨hs, hf, hm⟩ := ih (s.put (.mem (base + pos % size)) (bs.take 8)) (pos + 8) (bs.drop 8)
      rw [State.put_mem_eq] at hs hf hm ⊢
      exact ⟨hs, hf, fun h => hm (by rw [← State.put_mem_eq]; exact State.put_memWf _ _ h)⟩

/-- A word of a ring's header is advanced: the header word alone changes. -/
theorem putNat_header {s : State} (k x : Nat) : (s.putNat (.mem k) 8 x).strands = s.strands ∧ (s.putNat (.mem k) 8 x).fw = s.fw ∧
    (s.memWf → (s.putNat (.mem k) 8 x).loadNat (.mem k) 8 = x % 2 ^ 64 ∧ sameMemOutside s (s.putNat (.mem k) 8 x) k 8) := by
  refine ⟨?_, ?_, fun hm => ⟨State.loadNat_putNat hm, ?_⟩⟩
  · unfold State.putNat
    rw [State.put_mem_eq]
    rfl
  · unfold State.putNat
    rw [State.put_mem_eq]
  · have h := State.put_outside k (natLE 8 x) hm
    rwa [natLE_length] at h

theorem samplePulse_idle {s : State} (h : s.fw.sample.period = 0 ∨ s.tick % s.fw.sample.period ≠ 0) : exec .samplePulse s = .next s := by
  show execSamplePulse s = _
  unfold execSamplePulse
  exact if_pos h

/-- A pulse writes its record, or drops and counts it (18 R467). -/
theorem samplePulse_counts {s : State} (hp : s.fw.sample.period ≠ 0) (ht : s.tick % s.fw.sample.period = 0) :
    let h := ckey s.fw.sample.buf
    let room := s.loadNat (.mem h) 8 - 64
    let used := s.loadNat (.mem (h + 8)) 8 - s.loadNat (.mem (h + 16)) 8
    let r := sampleRecord s
    ∃ t, exec .samplePulse s = .next t ∧ t.fw.sample.sseq = s.fw.sample.sseq + 1 ∧ t.strands = s.strands ∧
      (room < used + r.length → t.fw.sample.abs = true ∧
        (s.memWf → t.loadNat (.mem (h + 24)) 8 = (s.loadNat (.mem (h + 24)) 8 + 1) % 2 ^ 64 ∧ sameMemOutside s t (h + 24) 8)) ∧
      (used + r.length ≤ room → t.fw.sample.abs = false ∧
        (s.memWf → t.loadNat (.mem (h + 8)) 8 = (s.loadNat (.mem (h + 8)) 8 + r.length) % 2 ^ 64)) := by
  have he : exec .samplePulse s = execSamplePulse s := rfl
  rw [he]
  unfold execSamplePulse
  dsimp only
  rw [if_neg (by simp [hp, ht])]
  generalize ckey s.fw.sample.buf = h
  generalize sampleRecord s = r
  generalize s.loadNat (.mem h) 8 - 64 = size
  generalize s.loadNat (.mem (h + 8)) 8 = prod
  generalize s.loadNat (.mem (h + 16)) 8 = cons
  generalize hs1 : (s.setFw fun f => { f with sample := { s.fw.sample with sseq := s.fw.sample.sseq + 1, last := s.tick } }) = s1
  have hstr : s1.strands = s.strands := by rw [← hs1]; rfl
  have hseq : s1.fw.sample.sseq = s.fw.sample.sseq + 1 := by rw [← hs1]; rfl
  have hmem : s1.mem = s.mem := by rw [← hs1]; rfl
  have hwf : s.memWf → s1.memWf := fun hm => by unfold State.memWf; rwa [hmem]
  by_cases hr : size < prod - cons + r.length
  · rw [if_pos hr]
    obtain ⟨hs, hf, hm⟩ := putNat_header (s := s1) (h + 24) (s.loadNat (.mem (h + 24)) 8 + 1)
    generalize s1.putNat (.mem (h + 24)) 8 (s.loadNat (.mem (h + 24)) 8 + 1) = v at hs hf hm
    refine ⟨_, rfl, ?_, hs.trans hstr, fun _ => ⟨rfl, fun hw => ⟨(hm (hwf hw)).1, fun a ha => ?_⟩⟩, fun hn => absurd hr (by omega)⟩
    · show v.fw.sample.sseq = _
      rw [hf, hseq]
    · rw [← hmem]
      exact (hm (hwf hw)).2 a ha
  · rw [if_neg hr]
    obtain ⟨hs0, hf0, hm0⟩ := ringWrite_keeps (h + 64) size r.length s1 prod r
    generalize s1.ringWrite (h + 64) size prod r r.length = w at hs0 hf0 hm0
    obtain ⟨hs, hf, hm⟩ := putNat_header (s := w) (h + 8) (prod + r.length)
    generalize w.putNat (.mem (h + 8)) 8 (prod + r.length) = v at hs hf hm
    refine ⟨_, rfl, ?_, (hs.trans hs0).trans hstr, fun hn => absurd hn hr, fun _ => ⟨rfl, fun hw => (hm (hm0 (hwf hw))).1⟩⟩
    show v.fw.sample.sseq = _
    rw [hf, hf0, hseq]

/-! ## The obligation -/

theorem debugStep_marks {s : State} {key : Nat} {o : Strand} (ho : s.strand key = some o) :
    exec (.debugStep key) s =
      .next (if o.run = .stopped ∧ o.park ≠ .steal ∧ o.out = false ∧ leads s o = true then s.upd key fun x => { x with stepping := true } else s) := by
  show execDebugStep key s = _
  simp only [execDebugStep, ho, done]

theorem debugArm_arms (s : State) (core : Nat) (on : Bool) :
    ∃ t, exec (.debugArm core on) s = .next t ∧ (t.core core).armed = on ∧ t.strands = s.strands ∧ t.mem = s.mem := by
  refine ⟨_, rfl, ?_, rfl, rfl⟩
  rw [State.core_setCore _ _ _ _ (State.core_id _ _), if_pos rfl]

/-- Settles O53: the debug module by the strands that it finds, errors by the granules that they poison, a sample by its ring's header. -/
theorem debugPatrolAndSamples : Obligations.DebugPatrolAndSamples := by
  unfold Obligations.DebugPatrolAndSamples
  intro s core key
  refine ⟨debugStop_stops, debugResume_goesOn, debugArm_arms s core, fun o ho => ?_, fun c off x => ?_, fun k u un ha hp => ?_,
    fun k u h => ?_, samplePulse_idle, samplePulse_counts⟩
  · refine ⟨fun h => ?_, fun hr hp ho' hl => ?_, fun wr what x hr hw hl hb => debugAccess_unreached ho x hr hw hl hb, fun x => ?_,
      fun x hs => ?_, fun x hs => ?_⟩
    · rw [debugStep_marks ho, if_neg]
      rintro ⟨hr, hp, ho', hl⟩
      obtain h | h | h | h := h
      · exact h hr
      · exact hp h
      · exact Bool.noConfusion (ho'.symm.trans h)
      · exact Bool.noConfusion (h.symm.trans hl)
    · rw [debugStep_marks ho, if_pos ⟨hr, hp, ho', hl⟩]
    · have hsid : debugRead s o .run = BitVec.ofNat 64 (slotRun s o.sid).code := rfl
      exact ⟨_, debugAccess_reads ho x nofun (.inr rfl), hsid, rfl, rfl⟩
    · exact ⟨fun n => debugAccess_reads ho x nofun (.inl hs), fun n => debugAccess_reads ho x nofun (.inl hs),
        fun n part => debugAccess_reads ho x nofun (.inl hs), debugAccess_reads ho x nofun (.inl hs),
        fun off => debugAccess_reads ho x nofun (.inl hs), fun sel => debugAccess_reads ho x nofun (.inl hs)⟩
    · refine ⟨fun n => debugAccess_writes ho x hs nofun nofun nofun, fun n => debugAccess_writes ho x hs nofun nofun nofun,
        fun n part hu => ?_, debugAccess_writes ho x hs nofun nofun nofun, fun off hm => ?_, fun sel hc => debugAccess_writesWord ho hs hc⟩
      · have hp : o.run ≠ .empty := by rw [hs]; exact RunState.noConfusion
        exact ⟨_, _, debugAccess_writes ho x hs nofun nofun nofun,
          strand_upd_self (f := debugWrite (.v n part) x) (fun _ => rfl) hu ho hp, fun j hj => laneOf_debugWrite o n part x hj⟩
      · exact ⟨_, debugAccess_writesLocal ho off x hs, word_stored _ x hm⟩
  · refine ⟨fun h wr => ?_, fun hc hst => ⟨?_, fun hm => ?_⟩⟩
    · rw [debugAccess_bank, if_pos h]
    all_goals
      have hn : ¬(2568 ≤ c.toNat ∨ (s.core c.toNat).stopped = false) := by
        rintro (h | h)
        · omega
        · exact Bool.noConfusion (hst.symm.trans h)
      rw [debugAccess_bank, if_neg hn]
    · rfl
    · exact ⟨_, rfl, word_stored _ x hm⟩
  · show execPatrolScrub k u un s = _
    simp only [execPatrolScrub, ha, hp]
    rfl
  · refine ⟨?_, fun hn hk => patrolScrub_poisons h hn hk, fun hn => ?_, fun hn => ?_, fun hn => ?_⟩
    · obtain ⟨he, hc⟩ := countCe_counts s (errorUnit u)
      exact ⟨_, (patrolScrub_found k h false).trans (if_pos rfl), he, hc⟩
    all_goals
      rw [patrolScrub_found k h true, if_neg Bool.noConfusion, hn]
      rfl

end Sys2Proof.Machine
end


section
/-! Rules of what is served at the homes: requests, stores by agents outside the cores, and the completion of a record change nothing beyond
memory, the homes and the records of events. -/

namespace Sys2Proof.Machine

open Sys2Proof

/-- The state without the homes and without what records of events change: the agents, the scheduler, commands, pools and waits. -/
def State.agents (s : State) : State := { s.noRecords with homes := State.reset.homes }

theorem State.agents_of_noRecords {s t : State} (h : t.noRecords = s.noRecords) : t.agents = s.agents := by
  unfold State.agents
  rw [h]

theorem State.agents_sched {s t : State} (h : t.agents = s.agents) : t.sched = s.sched := (congrArg State.sched h :)

/-! ## Requests at a home (02 R60, R66) -/

@[simp] theorem State.agents_setHomes (s : State) (f : Homes → Homes) : (s.setHomes f).agents = s.agents := by
  simp only [State.agents, State.noRecords, State.setHomes]

@[simp] theorem State.agents_setCoh (s : State) (k : CohKey) (c : Coh) : (s.setCoh k c).agents = s.agents := s.agents_setHomes _

@[simp] theorem State.agents_cleanLines (s : State) (k : CohKey) (c : Nat) : (s.cleanLines k c).agents = s.agents := s.agents_setHomes _

@[simp] theorem State.agents_dropLines (s : State) (k : CohKey) (f : Nat → Bool) : (s.dropLines k f).agents = s.agents := s.agents_setHomes _

@[simp] theorem State.agents_releaseHolders (s : State) (k : CohKey) : (s.releaseHolders k).agents = s.agents := s.agents_setHomes _

theorem agents_foldl {α : Type} {f : State → α → State} (h : ∀ s x, (f s x).agents = s.agents) (l : List α) (s : State) :
    (l.foldl f s).agents = s.agents :=
  foldl_keeps (I := fun t => t.agents = s.agents) (fun t x ht => (h t x).trans ht) l rfl

@[simp] theorem State.agents_collect (s : State) (k : CohKey) (tag : BitVec 4) (c : Nat) : (s.collect k tag c).agents = s.agents :=
  s.agents_setHomes _

@[simp] theorem State.agents_foldElement (s : State) (tag : BitVec 4) (pa : Nat) (ps : List Partial) :
    (s.foldElement tag pa ps).agents = s.agents := by
  unfold State.foldElement State.poisonAt
  extract_lets n cls v0 v s1
  have h1 : s1.agents = s.agents := by simp only [s1, State.putKeep, State.agents, State.noRecords]
  split
  · split
    · exact h1
    · rw [← h1]
      simp only [State.agents, State.noRecords]
  · exact h1

@[simp] theorem State.agents_merge (s : State) (k : CohKey) : (s.merge k).agents = s.agents := by
  unfold State.merge State.foldMerge
  split
  · rw [State.agents_setHomes, agents_foldl fun s a => s.agents_foldElement _ _ _, agents_foldl fun s c => s.agents_collect k _ c]
  · rfl

/-- A request is served at the homes. -/
@[simp] theorem State.agents_request (s : State) (cl pa : Nat) (r : ObjReq) : (s.request cl pa r).agents = s.agents := by
  unfold State.request
  extract_lets k others
  split <;> simp [apply_ite State.agents]

/-! ## Stores from outside the cores, and the completion of a record -/

@[simp] theorem State.agents_put (s : State) (l : Loc) (bs : List Byte) : (s.put l bs).agents = s.agents := by
  cases l with
  | mem k => exact State.agents_of_noRecords (s.noRecords_put k bs)
  | tile v o => simp only [State.put, State.updVer, State.agents, State.noRecords]

@[simp] theorem State.agents_putAt (s : State) (l : Loc) (bs : List Byte) : (s.putAt l bs).agents = s.agents := by
  unfold State.putAt
  split <;> simp [apply_ite State.agents]

@[simp] theorem State.agents_bump (s : State) (l : Loc) : (s.bump l).agents = s.agents := by
  unfold State.bump State.putNat
  split <;> simp [apply_ite State.agents]

@[simp] theorem State.noRecords_noteBad (s : State) (ctx va : Nat) : (s.noteBad ctx va).noRecords = s.noRecords := by
  unfold State.noteBad
  split <;> simp

@[simp] theorem State.agents_noteBad (s : State) (ctx va : Nat) : (s.noteBad ctx va).agents = s.agents :=
  State.agents_of_noRecords (s.noRecords_noteBad ctx va)

@[simp] theorem State.agents_blackBox (s : State) (die typ code who ctx : Nat) (x : Word) :
    (s.blackBox die typ code who ctx x).agents = s.agents := State.agents_of_noRecords (s.noRecords_blackBox ..)

@[simp] theorem State.agents_event (s : State) (code : Nat) (x y : Word) (n : Nat) : (s.event code x y n).agents = s.agents :=
  State.agents_of_noRecords (s.noRecords_event ..)

/-- The completion of a record leaves the agents and the scheduler as they are (12 R358). -/
@[simp] theorem State.agents_writeCompletion (s : State) (ctx : Nat) (r : Vector Word 16) (start : Option Nat) (status reason disc : Nat) :
    (s.writeCompletion ctx r start status reason disc).agents = s.agents := by
  unfold State.writeCompletion
  extract_lets d c bs tag b s0 s1
  have h0 : s0.agents = s.agents := by
    simp only [s0]
    split
    · rfl
    · simp [b, apply_ite State.agents]
  have h1 : s1.agents = s.agents := by
    simp only [s1]
    split
    · exact h0
    · split <;> simp [h0]
  split
  · exact h1
  · split <;> simp [h1]

end Sys2Proof.Machine
end


section
/-! The dispatcher: acceptance from rings, ageing and waits, swaps, local memory between contexts, lending, and the end of a launch. -/

namespace Sys2Proof.Machine

open Sys2Proof

/-! ## Acceptance (12 R345, R346) -/

theorem find_map_if {α : Type} (l : List α) (id : α → Nat) (n : Nat) (f : α → α) (hf : ∀ x, id (f x) = id x) :
    (l.map fun x => if id x = n then f x else x).find? (fun x => decide (id x = n)) = (l.find? fun x => decide (id x = n)).map f := by
  rw [List.find?_map]
  have hc : (fun x => decide (id x = n)) ∘ (fun x => if id x = n then f x else x) = fun x => decide (id x = n) := by
    funext x
    simp only [Function.comp_apply]
    split
    · rw [hf]
    · rfl
  rw [hc]
  cases h : l.find? fun x => decide (id x = n) with
  | none => rfl
  | some x =>
    have hx : id x = n := by simpa using List.find?_some h
    rw [Option.map_some, Option.map_some, if_pos hx]

theorem State.ctxOf_updCtx (s : State) (c : Nat) (f : Ctx → Ctx) (hf : ∀ x, (f x).id = x.id) :
    (s.updCtx c f).ctxOf c = (s.ctxOf c).map f := find_map_if s.fw.ctxs (fun x : Ctx => x.id) c f hf

theorem State.launch_updLaunch (s : State) (u : Nat) (f : Launch → Launch) (hf : ∀ x, (f x).uid = x.uid) :
    (s.updLaunch u f).launch u = (s.launch u).map f := find_map_if s.sched.launches (fun x : Launch => x.uid) u f hf

theorem State.queueOf_congr {s t : State} (h : t.fw.ctxs = s.fw.ctxs) (c q : Nat) : t.queueOf c q = s.queueOf c q := by
  unfold State.queueOf State.ctxOf
  rw [h]

theorem State.put_mem_fw (s : State) (k : Nat) (bs : List Byte) : (s.put (.mem k) bs).fw = s.fw := by
  rw [State.put_mem_eq]

/-- An advanced ring has one more record taken (12 R345). -/
theorem queueOf_advanceRing {s : State} {c q : Nat} {y : LQueue} (hy : s.queueOf c q = some y) (base : Nat) :
    (s.advanceRing c y base).queueOf c q = some { y with cons := y.cons + 1 } := by
  obtain ⟨x, hx, hq⟩ := Option.bind_eq_some_iff.1 hy
  obtain rfl : y.id = q := by simpa using List.find?_some hq
  have hfw : (s.advanceRing c y base).fw.ctxs = (s.updCtx c fun c =>
      { c with queues := c.queues.map fun x => if x.id = y.id then { x with cons := x.cons + 1 } else x }).fw.ctxs := by
    unfold State.advanceRing
    rw [State.put_mem_fw]
  rw [State.queueOf_congr hfw]
  unfold State.queueOf
  rw [State.ctxOf_updCtx _ _ _ (by intro; rfl), hx, Option.map_some, Option.bind_some]
  show (x.queues.map _).find? _ = _
  rw [find_map_if x.queues (fun x : LQueue => x.id) y.id (fun x => { x with cons := x.cons + 1 }) (by intro; rfl), hq]
  rfl

/-- What walks report changes no context. -/
theorem noteBad_ctxs (s : State) (ctx va : Nat) : (s.noteBad ctx va).fw.ctxs = s.fw.ctxs := by
  unfold State.noteBad State.blockLine
  split
  · extract_lets s1
    have h1 : s1.fw.ctxs = s.fw.ctxs := by
      simp only [s1, State.setFw]
      split <;> rfl
    split
    · exact h1
    · exact h1
  · rfl

theorem noteWalks_keeps (s : State) (ctx : Nat) (r : Vector Word 16) :
    (s.noteWalks ctx r).noRecords = s.noRecords ∧ (s.noteWalks ctx r).fw.ctxs = s.fw.ctxs :=
  foldl_keeps (I := fun t : State => t.noRecords = s.noRecords ∧ t.fw.ctxs = s.fw.ctxs)
    (fun t va h => ⟨(t.noRecords_noteBad ctx va).trans h.1, (noteBad_ctxs t ctx va).trans h.2⟩) _ ⟨rfl, rfl⟩

theorem maskSeal_maskSeal (a b : Nat) (r : Vector Word 16) : maskSeal a (maskSeal b r) =
    r.setIfInBounds 15 (r.getD 15 0 &&& BitVec.ofNat 64 (b * 2 ^ 56 + 0x00FFFFFFFFFFFFFF) &&& BitVec.ofNat 64 (a * 2 ^ 56 + 0x00FFFFFFFFFFFFFF)) := by
  have hg : (maskSeal b r).getD 15 0 = r.getD 15 0 &&& BitVec.ofNat 64 (b * 2 ^ 56 + 0x00FFFFFFFFFFFFFF) :=
    Vector.getD_setIfInBounds_self _ _ _ (by decide)
  unfold maskSeal at hg ⊢
  rw [hg, Vector.setIfInBounds_setIfInBounds]

/-- Of a record's seal byte nothing is left. -/
theorem maskSeal_zero (r : Vector Word 16) : maskSeal 0 (maskSeal 0x7E r) =
    r.setIfInBounds 15 (BitVec.ofNat 64 (r.getD 15 0).toNat &&& 0x00FFFFFFFFFFFFFF) := by
  rw [maskSeal_maskSeal, BitVec.ofNat_toNat, BitVec.setWidth_eq, BitVec.and_assoc]
  rfl

/-- A sealed record that nothing refuses is accepted whole (12 R346). -/
theorem launchRecordSeal_accepts {s : State} {c q : Nat} {x : Ctx} {y : LQueue} {base m : Nat} (hx : s.ctxOf c = some x)
    (hy : s.queueOf c q = some y) (hr : y.ring = some (base, m)) (hd : sealDue s x y = true) :
    let r0 := recordOf (s.bytes (.mem (ringSlot base m y.cons)) 128)
    let r := r0.setIfInBounds 15 (BitVec.ofNat 64 (r0.getD 15 0).toNat &&& 0x00FFFFFFFFFFFFFF)
    let seen := r0.setIfInBounds 15 (BitVec.ofNat 64 (r0.getD 15 0).toNat &&& 0x7EFFFFFFFFFFFFFF)
    refuseReason ((s.advanceRing c y base).noteWalks c seen) c (some q) seen = none →
      ∃ t l z, exec (.launchRecordSeal c q) s = .next t ∧ t.sched.launches = s.sched.launches ++ [l] ∧ l.rcd = r ∧ l.ctx = c ∧
        l.st = .accepted ∧ l.accepted = s.tick ∧ t.queueOf c q = some z ∧ z.cons = y.cons + 1 := by
  intro r0 r seen hn
  have hseen : ringRecord s y base m = seen := by
    unfold ringRecord maskSeal
    rw [← BitVec.setWidth_eq (r0.getD 15 0), ← BitVec.ofNat_toNat]
    rfl
  have hrcd : maskSeal 0 seen = r := by
    rw [← hseen]
    exact maskSeal_zero r0
  have he : exec (.launchRecordSeal c q) s = execLaunchRecordSeal c q s := rfl
  rw [he]
  simp only [execLaunchRecordSeal, hx, hy, hr, if_pos hd, hseen, hn]
  generalize hs1 : (s.advanceRing c y base).noteWalks c seen = s1
  have ht : s1.noRecords = s.noRecords := by
    rw [← hs1, (noteWalks_keeps _ _ _).1]
    unfold State.advanceRing
    rw [State.noRecords_put]
    rfl
  have hq1 : s1.queueOf c q = some { y with cons := y.cons + 1 } := by
    rw [← hs1, State.queueOf_congr (noteWalks_keeps _ _ _).2, queueOf_advanceRing hy]
  have hl : s1.sched.launches = s.sched.launches := (congrArg (fun u : State => u.sched.launches) ht :)
  have htick : s1.tick = s.tick := (congrArg State.tick ht :)
  obtain ⟨l, hl1, hl2, hl3, hl4, hl5, hl6⟩ : ∃ l : Launch, (s1.acceptLaunch c (maskSeal 0 seen) none).sched.launches = s1.sched.launches ++ [l] ∧
      l.rcd = maskSeal 0 seen ∧ l.ctx = c ∧ l.st = .accepted ∧ l.accepted = s1.tick ∧
      (s1.acceptLaunch c (maskSeal 0 seen) none).queueOf c q = s1.queueOf c q := ⟨_, rfl, rfl, rfl, rfl, rfl, rfl⟩
  generalize s1.acceptLaunch c (maskSeal 0 seen) none = s2 at hl1 hl6
  have hlater : ∃ t, (match s2.ctxOf c, s2.queueOf c q with
      | some c2, some q2 => if sealDue s2 c2 q2 = true then s2.later (.launchRecordSeal c q) else s2
      | _, _ => s2) = t ∧ t.sched = s2.sched ∧ t.fw = s2.fw := by
    refine ⟨_, rfl, ?_⟩
    split
    · split <;> exact ⟨rfl, rfl⟩
    · exact ⟨rfl, rfl⟩
  obtain ⟨t, ht1, ht2, ht3⟩ := hlater
  refine ⟨t, l, { y with cons := y.cons + 1 }, congrArg _ ht1, ?_, hl2.trans hrcd, hl3, hl4, hl5.trans htick, ?_, rfl⟩
  · rw [ht2, hl1, hl]
  · exact (State.queueOf_congr (by rw [ht3]) c q).trans (hl6.trans hq1)

theorem launchRecordSeal_waits {s : State} {c q : Nat} {x : Ctx} {y : LQueue} (hx : s.ctxOf c = some x) (hy : s.queueOf c q = some y)
    (hd : sealDue s x y = false) : exec (.launchRecordSeal c q) s = .next s := by
  have he : exec (.launchRecordSeal c q) s = execLaunchRecordSeal c q s := rfl
  rw [he]
  simp only [execLaunchRecordSeal, hx, hy, hd]
  split <;> rfl

/-! ## Ageing and waits (12 R348, R349) -/

section
variable {s : State} {u : Nat} {l : Launch} (hl : s.launch u = some l)
include hl

theorem classAgeing_ages (ha : l.st = .accepted) :
    ∃ t, exec (.classAgeing u) s = .next t ∧ t.launch u = some { l with effClass := agedClass s l } ∧ t.mem = s.mem := by
  refine ⟨s.updLaunch u fun l => { l with effClass := agedClass s l }, ?_, ?_, rfl⟩
  · show execClassAgeing u s = _
    simp only [execClassAgeing, hl, ha, if_pos, done]
  · rw [State.launch_updLaunch _ _ _ (by intro; rfl), hl, Option.map_some]

theorem launchWaitHolds_takes (ha : l.st = .accepted) (hw : l.waitHeld = false) (hm : l.met = true ∨ launchWait s l = true) :
    ∃ t, exec (.launchWaitHolds u) s = .next t ∧ t.launch u = some { l with waitHeld := true, ready := some s.tick } ∧ t.mem = s.mem := by
  refine ⟨s.updLaunch u fun l => { l with waitHeld := true, ready := some s.tick }, ?_, ?_, rfl⟩
  · have ho : waitOver s l = true := by simp [waitOver, ha, hw, hm]
    show execLaunchWaitHolds u s = _
    simp only [execLaunchWaitHolds, hl, ho, if_pos, done]
  · rw [State.launch_updLaunch _ _ _ (by intro; rfl), hl, Option.map_some]

theorem launchWaitHolds_waits (h : l.waitHeld = true ∨ (l.met = false ∧ launchWait s l = false)) :
    exec (.launchWaitHolds u) s = .next s := by
  have ho : waitOver s l = false := by
    unfold waitOver
    rcases h with h | ⟨h1, h2⟩
    · simp [h]
    · simp [h1, h2]
  show execLaunchWaitHolds u s = _
  simp [execLaunchWaitHolds, hl, ho, done]

end

theorem agedClass_below {s : State} {l : Launch} (h : rClass l.rcd < 7) :
    agedClass s l = min 6 (rClass l.rcd + (s.tick - l.accepted) / 360000) := if_neg (by omega)

/-! ## Placing (12 R350, R352, R363) -/

theorem dispatcherStep_eq (s : State) :
    let s1 := s.setSched fun d => { d with nextStep := s.tick / 108 * 108 + 108 }
    let waits := s.sched.launches.filter fun l => decide (l.st = .accepted) && !l.waitHeld && decide (rWkind l.rcd = 1)
    let s2 := waits.foldl (fun (s : State) l => s.noteBad l.ctx (l.rcd.getD 9 0).toNat) s1
    exec .dispatcherStep s = .next (if s.sched.hold = true then s1
      else (((readyRecords s1).foldl State.considerRecord s2).fillLaunches.offerRestores.offerLends).offerInboxSwaps) := by
  intro s1 waits s2
  show execDispatcherStep s = _
  unfold execDispatcherStep
  exact (apply_ite Host.Outcome.next _ _ _).symm

section
variable {s : State} {l : Launch}

theorem considerRecord_held (h : (completionHeld s l.ctx l.rcd || (seedAddrs l).any (userHeld s l.ctx)) = true) : s.considerRecord l = s := by
  unfold State.considerRecord
  exact if_pos h

theorem considerRecord_free (h : (completionHeld s l.ctx l.rcd || (seedAddrs l).any (userHeld s l.ctx)) = false) :
    (∀ s1, s.tryPlace l = .placed s1 →
      ∃ x, x = s.considerRecord l ∧ x.strands = s1.strands ∧ x.sched.launches = s1.sched.launches ∧ x.mem = s1.mem) ∧
    (s.tryPlace l = .no → unplaceable s l = true → s.considerRecord l = s.dropRecord l 3 0) ∧
    (s.tryPlace l = .no → unplaceable s l = false → s.preemptFor l = none → s.considerRecord l = s) := by
  refine ⟨fun s1 hp => ⟨_, rfl, ?_⟩, fun hp hu => ?_, fun hp hu hn => ?_⟩
  · simp only [State.considerRecord, h, hp]
    exact ⟨rfl, rfl, rfl⟩
  · simp [State.considerRecord, h, hp, hu]
  · simp [State.considerRecord, h, hp, hu, hn]

theorem preemptFor_none (h : rClass l.rcd < 6 ∨ s.sched.nopre = true) : s.preemptFor l = none := by
  unfold State.preemptFor
  exact if_pos (h.imp_right .inl)

/-- The rectangle of the ready record of highest class is reserved (12 R352). -/
theorem rectangleReserve_reserves {rest : List Launch} {d y x : Nat} (hr : readyRecords s = l :: rest) (hs : s.sched.rsv = none)
    (h0 : rSlots l.rcd ≠ 0) (ha : l.ready.getD s.tick + 360000 ≤ s.tick) (hf : emptyFit s l = some (d, y, x)) :
    ∃ t, exec (.rectangleReserve l.uid) s = .next t ∧ t.sched.rsv = some l.uid ∧ t.mem = s.mem ∧ t.strands = s.strands ∧
      t.sched.rsvWord = BitVec.ofNat 64 (2 ^ 63 + d * 2 ^ 48 + rH l.rcd * 2 ^ 32 + rW l.rcd * 2 ^ 24 + y * 2 ^ 8 + x) := by
  have hc : l.uid = l.uid ∧ s.sched.rsv.isNone = true ∧ rSlots l.rcd ≠ 0 ∧ l.ready.getD s.tick + 360000 ≤ s.tick :=
    ⟨rfl, by rw [hs]; rfl, h0, ha⟩
  refine ⟨s.setSched fun c => { c with
    rsv := some l.uid, rsvWord := BitVec.ofNat 64 (2 ^ 63 + d * 2 ^ 48 + rH l.rcd * 2 ^ 32 + rW l.rcd * 2 ^ 24 + y * 2 ^ 8 + x) },
    ?_, rfl, rfl, rfl, rfl⟩
  show execRectangleReserve l.uid s = _
  unfold execRectangleReserve
  rw [hr, List.head?_cons]
  dsimp only
  rw [if_pos hc, hf]
  rfl

theorem rectangleReserve_taken (u : Nat) (h : s.sched.rsv ≠ none) : exec (.rectangleReserve u) s = .next s := by
  show execRectangleReserve u s = _
  unfold execRectangleReserve
  split
  · exact if_neg fun hc => h (Option.isNone_iff_eq_none.1 hc.2.1)
  · rfl

end

/-! ## Local memory between contexts (12 R351, R365) -/

theorem core_setCore_self (s : State) (i : Nat) (f : CoreRec → CoreRec) (hf : ∀ c, (f c).id = c.id) :
    (s.setCore i f).core i = f (s.core i) := by
  rw [State.core_setCore _ _ _ _ ((hf _).trans (State.core_id _ _)), if_pos rfl]

theorem zeroLocal_mem {s : State} (core a : Nat) (hm : s.memWf) :
    mget (s.zeroLocal core).mem a = if lkey core 0 ≤ a ∧ a < lkey core 0 + 2 ^ 17 then 0 else mget s.mem a := by
  show mget (s.mem.filter fun c => !inLocal core c.1) a = _
  rw [mget_filter (p := fun k => !inLocal core k) a hm]
  have hi : inLocal core a = decide (lkey core 0 ≤ a ∧ a < lkey core 0 + 2 ^ 17) := by
    unfold inLocal
    rw [Bool.decide_and]
  rw [hi]
  by_cases h : lkey core 0 ≤ a ∧ a < lkey core 0 + 2 ^ 17
  · rw [if_pos h, decide_eq_true h]
    rfl
  · rw [if_neg h, decide_eq_false h]
    rfl

theorem localMemoryZeroed_zeroes {s : State} {core x : Nat} (hz : (s.core core).zeroing = some x) (hx : x ≤ s.tick) (hm : s.memWf) :
    ∃ t, exec (.localMemoryZeroed core) s = .next t ∧ (t.core core).clean = true ∧ (t.core core).zeroing = none ∧
      (t.core core).owner = (s.core core).owner ∧ (∀ a, lkey core 0 ≤ a → a < lkey core 0 + 2 ^ 17 → mget t.mem a = 0) ∧
      sameMemOutside s t (lkey core 0) (2 ^ 17) := by
  have hc : ((s.core core).zeroing.any fun t => decide (t ≤ s.tick)) = true := by simp [hz, hx]
  refine ⟨_, if_pos hc, ?_⟩
  rw [core_setCore_self]
  · refine ⟨rfl, rfl, rfl, fun a h1 h2 => ?_, fun a ha => ?_⟩
    · exact (zeroLocal_mem core a hm).trans (if_pos ⟨h1, h2⟩)
    · exact (zeroLocal_mem core a hm).trans (if_neg (by omega))
  · exact fun _ => rfl

theorem localMemoryZeroed_idle {s : State} {core : Nat} (hz : (s.core core).zeroing = none) : exec (.localMemoryZeroed core) s = .next s := by
  show execLocalMemoryZeroed core s = _
  simp [execLocalMemoryZeroed, hz, done]

theorem areaWriteBackComplete_saves {s : State} {core : Nat} (h : (s.core core).wback.isSome = true) :
    ∃ t, exec (.areaWriteBackComplete core) s = .next t ∧ (t.core core).wback = none ∧ (t.core core).areas = [] ∧ (t.core core).owner = none ∧
      (t.core core).zeroing = some (s.tick + 2048) ∧ t.sched.saved = s.sched.saved ++ (s.core core).areas.map (saveArea s core) ∧
      t.mem = s.mem := by
  refine ⟨_, if_pos h, ?_⟩
  rw [core_setCore_self]
  · exact ⟨rfl, rfl, rfl, rfl, rfl, rfl⟩
  · exact fun _ => rfl

theorem areaWriteBackComplete_idle {s : State} {core : Nat} (h : (s.core core).wback = none) :
    exec (.areaWriteBackComplete core) s = .next s := by
  show execAreaWriteBackComplete core s = _
  simp [execAreaWriteBackComplete, h, done]

/-! ## Swaps (01 R47; 12 R363-R368) -/

@[simp] theorem State.traceOf_sched (s : State) (o : Strand) (typ : Nat) (x : Word) : (s.traceOf o typ x).sched = s.sched :=
  (congrArg State.sched (s.noRecords_traceOf o typ x) :)

/-- A strand of no gang and no pair is swapped alone. -/
theorem swapMates_alone {s : State} {o : Strand} (hg : s.gangOf o = none) (hp : o.pair = none) : swapMates s o = [o.key] := by
  simp [swapMates, hg, State.both, hp]

/-- A strand as it moves out of its slot. -/
def movedOut (tick : Nat) (o : Strand) : Strand := { o with out := true, moveEnd := tick + 48 }

/-- The thread-context cache of a cluster takes a strand, and puts its oldest out where it is full (12 R366, R367). -/
def cacheWith (cached : List (Nat × List Nat)) (pool key : Nat) : List (Nat × List Nat) :=
  let l := (((cached.find? fun p => decide (p.1 = pool)).map (·.2)).getD []).erase key ++ [key]
  (pool, if 96 < l.length then l.drop 1 else l) :: cached.filter fun p => !decide (p.1 = pool)

theorem mem_cacheWith (cached : List (Nat × List Nat)) (pool key : Nat) : ∃ p ∈ cacheWith cached pool key, p.1 = pool ∧ key ∈ p.2 := by
  refine ⟨_, List.mem_cons_self, rfl, ?_⟩
  dsimp only
  split
  · rename_i h
    rw [List.drop_append_of_le_length (by rw [List.length_append] at h; exact Nat.le_of_lt_succ (by simp at h; omega))]
    exact List.mem_append_right _ List.mem_cons_self
  · exact List.mem_append_right _ List.mem_cons_self

/-- A strand whose core has no step in its pipe moves out. -/
theorem swapOne_eq {s : State} {o : Strand} {key : Nat} (ho : s.strand key = some o) (hp : (s.core o.core).pipe = []) :
    (s.swapOne key).me = (s.upd key (movedOut s.tick)).me ∧ (s.swapOne key).others = (s.upd key (movedOut s.tick)).others ∧
      (s.swapOne key).sched.cached = cacheWith s.sched.cached (poolOf o.core) key := by
  have hr : s.retireStarted o = s := by
    unfold State.retireStarted
    rw [hp]
  unfold State.swapOne
  rw [ho]
  dsimp only
  rw [hr, ho]
  dsimp only
  rw [hp]
  simp only [List.find?_nil, Option.any_none, Bool.false_eq_true, false_and, if_false, Option.elim_none, Option.isSome_none]
  refine ⟨?_, ?_, ?_⟩
  · simp only [State.setSched_me, State.setCore_me, State.upd_me, State.traceOf_me]
    rfl
  · simp only [State.setSched_others, State.setCore_others, State.upd_others, State.traceOf_others]
    rfl
  · simp only [State.setSched_sched, State.setCore_sched, State.upd_sched, State.traceOf_sched]
    rfl

section
variable {s : State} {key : Nat} {o : Strand} (ho : s.strand key = some o)
include ho

theorem swapOne_moves (hp : (s.core o.core).pipe = []) :
    (s.swapOne key).strand key = some (movedOut s.tick o) ∧ ∃ p ∈ (s.swapOne key).sched.cached, p.1 = poolOf o.core ∧ key ∈ p.2 := by
  obtain ⟨hm, hoth, hc⟩ := swapOne_eq ho hp
  refine ⟨?_, ?_⟩
  · rw [State.strand_congr hm hoth, strand_change (f := movedOut s.tick) (fun _ => rfl) (fun _ => rfl) ho, if_pos rfl]
  · rw [hc]
    exact mem_cacheWith _ _ _

theorem swapAll_alone (hg : s.gangOf o = none) (hp : o.pair = none) :
    s.swapAll key = if swappable s o = true ∧ swapsFit s [key] 0 = true then s.swapOne key else s := by
  have hk : swapMates s o = [key] := by rw [swapMates_alone hg hp, (State.strand_some ho).2.1]
  simp only [State.swapAll, ho, hk, List.all_cons, List.all_nil, Option.any_some, Bool.and_true, Bool.and_eq_true, List.foldl_cons,
    List.foldl_nil]

/-- A strand that has not yielded is swapped out where it can be (01 R47). -/
theorem swapOut_eq (hy : o.yields = false) : exec (.swapOut key) s = .next (s.swapAll key) := by
  show execSwapOut key s = _
  simp [execSwapOut, ho, hy, done]

/-- A strand that has yielded stays where nobody wants its slot (10 R314). -/
theorem swapOut_unwanted (hy : o.yields = true)
    (hw : slotWanted (s.upd key fun o => { o with yields := false }) { o with yields := false } = false) :
    ∃ t y, exec (.swapOut key) s = .next t ∧ t.strand key = some y ∧ y = { o with yields := false } ∧ t.sched = s.sched ∧ t.mem = s.mem := by
  refine ⟨s.upd key fun o => { o with yields := false }, { o with yields := false }, ?_, ?_, rfl, rfl, rfl⟩
  · show execSwapOut key s = _
    simp [execSwapOut, ho, hy, hw, done]
  · rw [strand_change (f := fun o : Strand => { o with yields := false }) (fun _ => rfl) (fun _ => rfl) ho, if_pos rfl]

end

/-! ## Restores (12 R368) -/

/-- What a store of bytes and marks of poison leave. -/
def memOnly (s t : State) : Prop := t = { s with mem := t.mem, poison := t.poison, cores := t.cores }

theorem memOnly.trans {s t u : State} (h : memOnly s t) (h' : memOnly t u) : memOnly s u := by
  unfold memOnly at *
  rw [h', h]

theorem memOnly_put (s : State) (k : Nat) (bs : List Byte) : memOnly s (s.put (.mem k) bs) := by
  unfold memOnly
  rw [State.put_mem_eq]

/-- A claim of a core's memory changes memory, the core's record and what backing memory holds (12 R351, R368). -/
theorem claim_eq (s : State) (core ctx : Nat) : ∃ m p cs sv,
    s.claim core ctx = { s with mem := m, poison := p, cores := cs, sched := { s.sched with saved := sv } } := by
  unfold State.claim
  extract_lets mine s1
  have h1 : memOnly s s1 := foldl_keeps (I := memOnly s) (fun t a ht => by
    have hb : memOnly t (a.bytes.foldl (fun s b => s.put (.mem (lkey core b.1)) [b.2]) t) :=
      foldl_keeps (I := memOnly t) (fun u b hu => hu.trans (memOnly_put u _ _)) _ rfl
    exact (ht.trans hb).trans rfl) mine rfl
  rw [h1]
  exact ⟨_, _, _, _, rfl⟩

theorem claim_owner (s : State) (core ctx : Nat) : ((s.claim core ctx).core core).owner = some ctx := by
  unfold State.claim
  extract_lets mine s1
  have h := core_setCore_self s1 core (fun c => { c with
    owner := some ctx, clean := false,
    areas := (mine.map fun a => (a.launch, a.base, a.size)) ++ (if c.owner = some ctx then c.areas else []) }) fun _ => rfl
  exact congrArg CoreRec.owner h

/-- A strand as it comes back to a slot. -/
def broughtBack (tick sid : Nat) (b : Bool) (o : Strand) : Strand :=
  { o with out := false, sid := sid, borrower := b, moveEnd := tick + 48, turn := alignTurn sid (tick + 48) }

/-- A strand comes back to a core whose memory its context claims, and leaves the thread-context caches. -/
def State.bringBack (s : State) (core ctx key : Nat) (f : Strand → Strand) (o : Strand) : State :=
  ((((s.claim core ctx).upd key f).setSched fun d => { d with cached := d.cached.map fun p => (p.1, p.2.erase key) }).traceOf o 6 0).entryBack key

theorem strand_upd_at {s : State} {k : Nat} {f : Strand → Strand} (hk : ∀ x, (f x).key = x.key) (hr : ∀ x, (f x).run = x.run) (j : Nat) :
    (s.upd k f).strand j = (s.strand j).map fun x => if j = k then f x else x := by
  cases h : s.strand j with
  | none => rw [State.strand_upd _ _ _ hk (fun x => by rw [hr]), h, Option.map_none, Option.map_none]
  | some o => rw [strand_change hk hr h, Option.map_some]

/-- One strand comes back: it alone changes where its cache entry is good. -/
theorem bringBack_eq {s : State} {core ctx k : Nat} {f : Strand → Strand} (hk : ∀ x, (f x).key = x.key) (hr : ∀ x, (f x).run = x.run)
    (hf : ∀ x, (f x).badEntry = x.badEntry) (o : Strand) (hb : (s.strand k).all (fun x => !x.badEntry) = true) :
    (∀ j, (s.bringBack core ctx k f o).strand j = (s.strand j).map fun x => if j = k then f x else x) ∧
      ((s.bringBack core ctx k f o).core core).owner = some ctx := by
  unfold State.bringBack
  generalize hs0 : s.claim core ctx = s0
  have hown : (s0.core core).owner = some ctx := by rw [← hs0, claim_owner]
  have hst : ∀ j, s0.strand j = s.strand j := by
    obtain ⟨m, p, cs, sv, hc⟩ := claim_eq s core ctx
    rw [← hs0, hc]
    exact fun j => State.strand_congr rfl rfl j
  generalize hs2 : (s0.upd k f).setSched (fun d => { d with cached := d.cached.map fun p => (p.1, p.2.erase k) }) = s2
  have h2 : ∀ j, s2.strand j = (s.strand j).map fun x => if j = k then f x else x := by
    intro j
    rw [← hs2, ← hst]
    exact strand_upd_at hk hr j
  have h3 : ∀ j, (s2.traceOf o 6 0).strand j = (s.strand j).map fun x => if j = k then f x else x :=
    fun j => (State.strand_congr (State.traceOf_me ..) (State.traceOf_others ..) j).trans (h2 j)
  have he : ((s2.traceOf o 6 0).strand k).any (·.badEntry) = false := by
    rw [h3 k]
    cases hx : s.strand k with
    | none => rfl
    | some x => simpa [hx, hf] using hb
  have hc := s2.core_traceOf o 6 0 core
  unfold State.entryBack
  rw [he]
  refine ⟨h3, ?_⟩
  show ((s2.traceOf o 6 0).core core).owner = _
  unfold tracesOnly at hc
  rw [hc, ← hown, ← hs2]
  rfl

/-- One strand comes back to its slot. -/
theorem restoreOne_eq {s : State} {k : Nat} {o : Strand} {sid : Nat} (h : s.strand k = some o) (hr : restoreSlot s o = some sid)
    (hb : (s.strand k).all (fun x => !x.badEntry) = true) :
    (∀ j, (s.restoreOne k).strand j =
      (s.strand j).map fun x => if j = k then broughtBack s.tick sid (x.borrower && decide (sid % 8 = 7)) x else x) ∧
      ((s.restoreOne k).core o.core).owner = some o.ctx := by
  have he : s.restoreOne k =
      s.bringBack o.core o.ctx k (fun x => broughtBack s.tick sid (x.borrower && decide (sid % 8 = 7)) x) { o with sid := sid } := by
    unfold State.restoreOne
    rw [h]
    dsimp only
    rw [hr]
    rfl
  rw [he]
  exact bringBack_eq (f := fun x => broughtBack s.tick sid (x.borrower && decide (sid % 8 = 7)) x) (fun _ => rfl) (fun _ => rfl)
    (fun _ => rfl) { o with sid := sid } hb

/-- What the return of a strand leaves of the others, and of every cache entry. -/
theorem restoreOne_keeps {s : State} {k : Nat} (hb : (s.strand k).all (fun x => !x.badEntry) = true) (j : Nat) :
    (j ≠ k → (s.restoreOne k).strand j = s.strand j) ∧
      ((s.restoreOne k).strand j).all (fun x => !x.badEntry) = (s.strand j).all (fun x => !x.badEntry) := by
  by_cases hc : ∃ o sid, s.strand k = some o ∧ restoreSlot s o = some sid
  · obtain ⟨o, sid, hk, hr⟩ := hc
    rw [(restoreOne_eq hk hr hb).1 j]
    refine ⟨fun hj => ?_, ?_⟩
    · simp only [if_neg hj, Option.map_id']
    · rw [Option.all_map]
      congr 1
      funext x
      split <;> rfl
  · have he : s.restoreOne k = s := by
      unfold State.restoreOne
      split
      · rfl
      · split
        · rfl
        · exact (hc ⟨_, _, ‹_›, ‹_›⟩).elim
    rw [he]
    exact ⟨fun _ => rfl, rfl⟩

section
variable {s : State} {key : Nat} {o : Strand} (ho : s.strand key = some o)
include ho

theorem strandRestore_restores {sid : Nat} (hg : s.gangOf o = none) (hp : o.pair = none) (hr : restorable s o = true)
    (hs : restoreSlot s o = some sid) (hb : o.badEntry = false) :
    ∃ t y, exec (.strandRestore key) s = .next t ∧ t.strand key = some y ∧ (t.core o.core).owner = some o.ctx ∧
      y = { o with out := false, sid := sid, borrower := o.borrower && decide (sid % 8 = 7), moveEnd := s.tick + 48,
                   turn := alignTurn sid (s.tick + 48) } := by
  have hk : swapMates s o = [key] := by rw [swapMates_alone hg hp, (State.strand_some ho).2.1]
  obtain ⟨hst, hown⟩ := restoreOne_eq ho hs (by rw [ho]; simpa using hb)
  refine ⟨s.restoreOne key, broughtBack s.tick sid (o.borrower && decide (sid % 8 = 7)) o, ?_, ?_, hown, rfl⟩
  swap
  · rw [hst, ho, Option.map_some, if_pos rfl]
  show execStrandRestore key s = _
  simp [execStrandRestore, ho, hk, hr, done]

theorem strandRestore_waits (hg : s.gangOf o = none) (hp : o.pair = none) (hr : restorable s o = false) :
    exec (.strandRestore key) s = .next s := by
  have hk : swapMates s o = [key] := by rw [swapMates_alone hg hp, (State.strand_some ho).2.1]
  show execStrandRestore key s = _
  simp [execStrandRestore, ho, hk, hr, done]

end

/-! ## The end of a launch (12 R358, R359) -/

theorem launchEnd_ends {s : State} {u : Nat} {l : Launch} (hl : s.launch u = some l) (hd : endDue s l = true) (hp : l.partner = none) :
    ∃ t, exec (.launchEnd u) s = .next t ∧ t.launch u = none := by
  have he : exec (.launchEnd u) s = execLaunchEnd u s := rfl
  rw [he]
  simp only [execLaunchEnd, hl, if_pos hd, hp]
  generalize s.clearLaunch u = s1
  refine ⟨_, rfl, ?_⟩
  unfold State.launch
  rw [State.agents_sched (State.agents_writeCompletion ..)]
  refine List.find?_eq_none.2 fun x hx => ?_
  have hx : x ∈ s1.sched.launches.filter fun x => !decide (x.uid = u) && !decide (some x.uid = none) := hx
  simpa using (List.mem_filter.1 hx).2

theorem launchEnd_waits {s : State} {u : Nat} {l : Launch} (hl : s.launch u = some l) (hd : endDue s l = false) :
    exec (.launchEnd u) s = .next s := by
  show execLaunchEnd u s = _
  simp [execLaunchEnd, hl, hd, done]

/-! ## Lending (01 R19, 12 R370) -/

theorem strokeSlotReclaim_eq {s : State} {core : Nat} {o : Strand}
    (h : s.strands.find? (fun o => o.borrower && !o.out && decide (o.sid = core * 8 + 7) && !decide (o.run = .empty)) = some o) :
    exec (.strokeSlotReclaim core) s =
      .next (if swapsFit s (swapMates s o) 0 = true then (swapMates s o).foldl State.swapOne s else s) := by
  show execStrokeSlotReclaim core s = _
  unfold execStrokeSlotReclaim
  rw [h]
  rfl

/-- A strand is back as it should be, and the cache entries of those that come with it are good. -/
structure matesBack (key : Nat) (y : Strand) (mates : List Nat) (t : State) : Prop where
  self : t.strand key = some y
  entries : ∀ k ∈ mates, (t.strand k).all (fun x => !x.badEntry) = true

/-- The reclaimed borrower gets the stroke slot, and its trailer comes back with it (12 R370). -/
theorem strokeSlotLend_returns {s : State} {core : Nat} {o : Strand} (hl : lendable s core = true) (hw : waitingBorrower s core = some o)
    (hu : s.uniqueKeys) (hb : ∀ k ∈ o.key :: swapMates s o, (s.strand k).all (fun x => !x.badEntry) = true) :
    ∃ t y, exec (.strokeSlotLend core) s = .next t ∧ t.strand o.key = some y ∧
      y = { o with out := false, sid := core * 8 + 7, moveEnd := s.tick + 48, turn := alignTurn (core * 8 + 7) (s.tick + 48) } := by
  have hfound := List.find?_some hw
  simp only [Bool.and_eq_true, decide_eq_true_eq, Bool.not_eq_true', decide_eq_false_iff_not] at hfound
  have ho : s.strand o.key = some o := hu.strand (List.mem_of_find?_eq_some hw) (by tauto)
  generalize hf : (fun x => broughtBack s.tick (core * 8 + 7) x.borrower x : Strand → Strand) = f
  have he : exec (.strokeSlotLend core) s = .next (((swapMates s o).filter fun k => !decide (k = o.key)).foldl State.restoreOne
      (s.bringBack core o.ctx o.key f { o with sid := core * 8 + 7 })) := by
    show execStrokeSlotLend core s = _
    unfold execStrokeSlotLend
    rw [if_pos hl, hw, ← hf]
    rfl
  have h1 : ∀ j, (s.bringBack core o.ctx o.key f { o with sid := core * 8 + 7 }).strand j =
      (s.strand j).map fun x => if j = o.key then f x else x := by
    rw [← hf]
    exact (bringBack_eq (f := fun x => broughtBack s.tick (core * 8 + 7) x.borrower x) (fun _ => rfl) (fun _ => rfl) (fun _ => rfl) _
      (hb o.key List.mem_cons_self)).1
  generalize s.bringBack core o.ctx o.key f { o with sid := core * 8 + 7 } = s1 at h1 he
  have hb1 : ∀ k ∈ swapMates s o, (s1.strand k).all (fun x => !x.badEntry) = true := by
    intro k hk
    rw [h1 k, Option.all_map, ← hb k (List.mem_cons_of_mem _ hk)]
    congr 1
    funext x
    simp only [← hf]
    split <;> rfl
  have hy : s1.strand o.key = some (f o) := by rw [h1, ho, Option.map_some, if_pos rfl]
  have hlast : matesBack o.key (f o) (swapMates s o) (((swapMates s o).filter fun k => !decide (k = o.key)).foldl State.restoreOne s1) :=
    List.foldlRecOn _ _ ⟨hy, hb1⟩ fun t ht k hk => by
      obtain ⟨hm, hne⟩ := List.mem_filter.1 hk
      have hne : k ≠ o.key := by simpa using hne
      have hkeep := restoreOne_keeps (ht.entries k hm)
      exact ⟨((hkeep o.key).1 (Ne.symm hne)).trans ht.self, fun j hj => (hkeep j).2.trans (ht.entries j hj)⟩
  exact ⟨_, f o, he, hlast.self, by rw [← hf]; rfl⟩

/-! ### A new borrower -/

theorem create_others {s : State} {l : Launch} (o : Strand) (hw : rWkind l.rcd = 0) : (s.create l o).others = s.others ++ [o] := by
  have h0 : (s.claim o.core l.ctx).others = s.others := by
    obtain ⟨m, p, cs, sv, hc⟩ := claim_eq s o.core l.ctx
    rw [hc]
  unfold State.create
  generalize s.claim o.core l.ctx = s0 at h0
  extract_lets a s1 s2
  have h1 : s1.others = s.others ++ [o] := by rw [← h0]; rfl
  have h2 : s2.others = s.others ++ [o] := by
    unfold s2
    split
    · rw [State.put_mem_eq]
      exact h1
    · exact h1
  rw [if_pos hw]
  exact h2

/-- What is created is among the strands, in a pair or alone. -/
theorem createBoth_others {s : State} {l : Launch} (o : Strand) (used : List Nat) (hw : rWkind l.rcd = 0) :
    ∃ y ∈ (s.createBoth l o used).others, ∃ p b, y = { o with pair := p, pairLead := b } := by
  unfold State.createBoth
  split
  · split
    · refine ⟨{ o with pair := some s.uid, pairLead := true }, ?_, _, _, rfl⟩
      show _ ∈ (State.create _ l _).others ++ _
      rw [create_others _ hw]
      simp
    · exact ⟨o, by rw [create_others _ hw]; simp, _, _, rfl⟩
  · exact ⟨o, by rw [create_others _ hw]; simp, _, _, rfl⟩

theorem strokeSlotLend_creates {s : State} {core : Nat} {l : Launch} (hl : lendable s core = true) (hw : waitingBorrower s core = none)
    (hn : lendLaunch s core = some l) (hk : rWkind l.rcd = 0) :
    ∃ t y, exec (.strokeSlotLend core) s = .next t ∧ y ∈ t.others ∧ y.key = s.uid ∧ y.borrower = true ∧ y.sid = core * 8 + 7 ∧
      y.park = .steal := by
  obtain ⟨y, hy, p, b, he⟩ := createBoth_others (s := s.fresh.2) { backfillFor s.fresh.2 l s.uid core 7 with borrower := true } [7] hk
  refine ⟨_, y, ?_, hy, ?_⟩
  · show execStrokeSlotLend core s = _
    unfold execStrokeSlotLend
    rw [if_pos hl, hw]
    dsimp only
    rw [hn]
    rfl
  · rw [he]
    exact ⟨rfl, rfl, rfl, rfl⟩

theorem strokeSlotLend_kept {s : State} {core : Nat} (hl : lendable s core = false) : exec (.strokeSlotLend core) s = .next s := by
  show execStrokeSlotLend core s = _
  simp [execStrokeSlotLend, hl, done]

/-! ## The obligation -/

/-- Settles O45: each event of the dispatcher by what it takes up, places, swaps or lends, and by what keeps it waiting. -/
theorem dispatcherSwapsAndLending : Obligations.DispatcherSwapsAndLending := by
  unfold Obligations.DispatcherSwapsAndLending
  intro s u core
  refine ⟨fun c q x y base m hx hy hr hd => launchRecordSeal_accepts hx hy hr hd, fun c q x y => launchRecordSeal_waits, fun l hl ha => ?_,
    fun l _ h => agedClass_below h, dispatcherStep_eq s, fun l => considerRecord_held, fun l h => ?_, fun l rest d y x hr hu => ?_,
    rectangleReserve_taken u, fun x hz hx hm => localMemoryZeroed_zeroes hz hx hm, localMemoryZeroed_idle, areaWriteBackComplete_saves,
    areaWriteBackComplete_idle, fun key o ho _ hg hp hpipe => ?_, fun l hl => ⟨launchEnd_ends hl, launchEnd_waits hl⟩, fun o ho => ?_,
    fun o hl hw hu hb => strokeSlotLend_returns hl hw hu hb, fun l hl hw hn hk => strokeSlotLend_creates hl hw hn hk, strokeSlotLend_kept⟩
  · exact ⟨classAgeing_ages hl ha, launchWaitHolds_takes hl ha, launchWaitHolds_waits hl⟩
  · obtain ⟨hplaced, hno, hstay⟩ := considerRecord_free h
    exact ⟨hplaced, hno, hstay, preemptFor_none⟩
  · subst hu
    exact rectangleReserve_reserves hr
  · refine ⟨fun hy hsw hfit => ?_, fun hy hsw => ?_, swapOut_unwanted ho, fun sid hr hs hb => strandRestore_restores ho hg hp hr hs hb,
      strandRestore_waits ho hg hp⟩
    · obtain ⟨hmoved, hcached⟩ := swapOne_moves ho hpipe
      refine ⟨s.swapOne key, movedOut s.tick o, ?_, hmoved, rfl, hcached⟩
      rw [swapOut_eq ho hy, swapAll_alone ho hg hp, if_pos ⟨hsw, hfit⟩]
    · rw [swapOut_eq ho hy, swapAll_alone ho hg hp, if_neg fun h => Bool.noConfusion (hsw.symm.trans h.1)]
  · rw [strokeSlotReclaim_eq ho]
    refine ⟨fun hf => by rw [if_pos hf], fun hf => by rw [if_neg fun h => Bool.noConfusion (hf.symm.trans h)]⟩

end Sys2Proof.Machine
end


section
/-! Gangs and barriers: a strand whose id lies far beyond the package's cores, so that the keys of its local memory are those of another
package (17 R447). -/

namespace Sys2Proof.Machine

open Sys2Proof

/-- A member of a crew whose phase is complete, with a message for another package still in q6. Its core is 3 * 2^43: the keys of that
core's local memory begin at 2^62, with those of the package of rank 0. -/
def farStrand : Strand :=
  { Strand.blank with
    key := 1, sid := 3 * 2 ^ 46, run := .ready, crew := some 0, barArrived := true
    lo := Strand.blank.lo.setIfInBounds 1 (ownLocal 0)
    arrivals := [{ tag := false, sums := Vector.replicate 8 1, done := some (Vector.replicate 8 1) }]
    q6 := [(0x8000, 0)] }

def farState : State := { State.reset with me := farStrand }

theorem farState_openLocal : openLocal farState 0 32 := ⟨by decide, by decide, nofun⟩

/-- The memory after a step. -/
def memAfter : Out → Option (List Host.Cell)
  | .next t => some t.mem
  | _ => none

/-- The stores of the record follow the message and wait on their way: no byte of it stands in memory when BAR.ev completes. -/
theorem memAfter_bar : memAfter (exec (.bar 2 1 true) farState) = some [] := by decide

/-- Refutes O22: nothing in the statement keeps the strand's core inside the package. Where it is so large that its local memory shares
its keys with another package, the record of BAR.ev waits behind a message to that package, and the first counter reads 0 and not 1. -/
theorem not_gangsAndBarriers : ¬ Obligations.GangsAndBarriers := by
  unfold Obligations.GangsAndBarriers
  intro h
  obtain ⟨htake, -⟩ := h.2 farState 2 1 0 rfl rfl nofun
  obtain ⟨-, hbar⟩ := htake _ _ _ rfl rfl
  obtain ⟨t, ht, -, hsums, -⟩ := (hbar rfl).2 0 rfl rfl rfl farState_openLocal
  have hm : t.mem = [] := by
    have hmem := congrArg memAfter ht
    rw [memAfter_bar] at hmem
    exact (Option.some.inj hmem).symm
  have hsum := hsums 0 (by decide)
  rw [State.bytes_mem, hm] at hsum
  exact absurd hsum (by decide)

end Sys2Proof.Machine
end

section
/-! Sequence counters and releases of a strand with nothing outstanding (02 R91, R92; 03 R103, R106, R108; 07 R226). -/

namespace Sys2Proof.Machine

open Sys2Proof

/-! ## Bundles that complete -/

/-- A bundle completes with the registers kept. -/
theorem completedAs_next {s s1 : State} (h : alike s.me s1.me) : completedAs s (s1.complete s.begin.me .next) :=
  completedAs_of_alike (n := s1.tick) (x := s1.me) (by rw [State.begin_me]; rfl) h

/-- A bundle completes with one g register written. -/
theorem completedWith_next {s s1 : State} {d : R5} {w : Word} {x : Strand} (hx : s1.me = x.setG d w) (h : alike s.me x) :
    completedWith s (s1.complete s.begin.me .next) d w :=
  completedWith_of_alike (n := s1.tick) (by rw [State.begin_me, ← hx]; rfl) h

/-- What a completed bundle leaves as its syllable left it: all but the strand, and of the strand its windows and its subscriptions. -/
structure leftAs (s1 t : State) : Prop where
  homes : t.homes = s1.homes
  mem : t.mem = s1.mem
  agenda : t.agenda = s1.agenda
  others : t.others = s1.others
  sched : t.sched = s1.sched
  win : t.me.win = s1.me.win
  subs : t.me.subs = s1.me.subs

theorem leftAs_complete (s1 : State) (o : Strand) : leftAs s1 (s1.complete o .next) := by
  obtain ⟨_, _, _, h⟩ := clauseEnd_eq o s1.me
  refine ⟨rfl, rfl, rfl, rfl, rfl, ?_, ?_⟩ <;> rw [complete_next, State.setMe_me, h] <;> rfl

section
variable {s s1 : State} {i : Instr} {f : Syl} (hi : exec i s = issueA f s) (h : canIssue s)
  (hf : f s.begin.me s.begin = .ok s1 .next)
include hi h hf

/-- A syllable of the A slot that ends well with the registers kept completes its bundle. -/
theorem issueA_completesAs (ha : alike s.me s1.me) : ∃ t, exec i s = .next t ∧ completedAs s t ∧ leftAs s1 t :=
  ⟨_, hi.trans (issueA_ok h hf), completedAs_next ha, leftAs_complete s1 _⟩

/-- The same where it writes one g register. -/
theorem issueA_completesWith {d : R5} {w : Word} {x : Strand} (hx : s1.me = x.setG d w) (ha : alike s.me x) :
    ∃ t, exec i s = .next t ∧ completedWith s t d w ∧ leftAs s1 t :=
  ⟨_, hi.trans (issueA_ok h hf), completedWith_next hx ha, leftAs_complete s1 _⟩

end

/-! ## What a release of a strand with nothing outstanding does -/

theorem noneOutstanding_begin {s : State} (h : noneOutstanding s) : noneOutstanding s.begin := by
  simpa only [noneOutstanding, State.begin_me, State.begin_homes] using h

/-- A strand whose release at a scope has been answered: beyond cluster scope its round has ended (03 R108). -/
def released (sc : Scope) (o : Strand) : Strand :=
  match sc with
  | .core | .clu => o
  | _ => nextRound { o with query := some { dieOnly := decide (sc = .die), answered := true } }

/-- A release ends the round and answers the query, at most. -/
theorem released_eq (sc : Scope) (o : Strand) :
    ∃ c r q, released sc o = { o with counts := c, round := r, query := q } := by
  cases sc <;> exact ⟨_, _, _, rfl⟩

theorem alike_released (sc : Scope) (o : Strand) : alike o (released sc o) := by
  obtain ⟨_, _, _, h⟩ := released_eq sc o
  rw [h]
  exact ⟨rfl, rfl, rfl, rfl, rfl, rfl, rfl, rfl, rfl⟩

theorem not_unacked {s : State} (h : noneOutstanding s) (sc : Scope) : unacked s sc = false := by
  obtain ⟨-, hacks, -, -, -, hp⟩ := h
  have hu : s.updateOut s.me.key = false := by
    rw [State.updateOut, List.any_eq_false]
    intro p hm
    simp [hp p hm]
  have hs : s.storeOut s.me.key = false := by
    rw [State.storeOut, List.any_eq_false]
    intro p hm
    simp [hp p hm]
  cases sc <;> simp [unacked, hu, hs, hacks]

/-- A release with nothing outstanding goes on at once. -/
theorem releaseHeld_of_noneOutstanding {s : State} (h : noneOutstanding s) (sc : Scope) (k : State → SylOut) :
    releaseHeld s.me s sc k = k (s.setMe (released sc)) := by
  have hw := not_unacked h sc
  have hend : ∀ d, unacked (s.setMe fun x => nextRound { x with query := some { dieOnly := d, answered := true } }) sc = unacked s sc :=
    fun _ => by cases sc <;> rfl
  obtain ⟨hc, -, hq, hr, ho, -⟩ := h
  rw [releaseHeld, hr]
  cases sc <;> simp [release, gathered, hq, hc, ho, hw, hend]
  all_goals rfl

/-! ## Counters -/

theorem State.crew_updCrew (s : State) (u : Nat) (f : Crew → Crew) (hf : ∀ x, (f x).uid = x.uid) :
    (s.updCrew u f).crew u = (s.crew u).map f :=
  find_map_if s.sched.crews (·.uid) u f hf

/-- A crew's counter after an increment, and the others (02 R91). -/
theorem seqGet_seqAdd_crew {s : State} {u : Nat} {x : Crew} (hx : s.crew u = some x) (sq i : BitVec 8) (n : Nat) :
    (s.seqAdd (.crew u) sq n).seqGet (.crew u) i =
      if i = sq then s.seqGet (.crew u) i + BitVec.ofNat 64 n else s.seqGet (.crew u) i := by
  have hc := s.crew_updCrew u (fun c => { c with sq := c.sq.setIfInBounds sq.toNat (c.sq.getD sq.toNat 0 + BitVec.ofNat 64 n) }) fun _ => rfl
  rw [hx] at hc
  simp only [State.seqGet, State.seqAdd, hc, hx, Option.map_some, Option.getD_some]
  split
  case isTrue h => rw [h, Vector.getD_setIfInBounds_self _ _ _ sq.isLt]
  case isFalse h => rw [Vector.getD_setIfInBounds_ne _ _ _ fun he => h (BitVec.eq_of_toNat_eq he.symm)]

theorem State.acquire_eq (s : State) (sc : Scope) : ∃ l, s.acquire sc = s.setHomes fun h => { h with lines := l } := by
  cases sc <;> exact ⟨_, rfl⟩

/-! ## The instructions -/

section
variable {s : State} {f : SqFile} {sq : BitVec 8}

theorem sylSqrd_reads (d : R5) (hf : s.fileOf s.me = some f) (ho : s.fileOpen s.me.core f = true) :
    sylSqrd d sq s.me s = retG s d (s.seqGet f sq) := by
  simp only [sylSqrd, hf, ho, if_true]

theorem sylSqwait_completes {a : R5} (ann : Option Scope) (hf : s.fileOf s.me = some f) (ho : s.fileOpen s.me.core f = true)
    (hw : seqHolds (s.seqGet f sq) (s.me.g a).toNat = true ∨ s.me.woken = true) :
    ∃ l, sylSqwait a ann sq s.me s = .ok (s.setHomes fun h => { h with lines := l }) .next := by
  simp only [sylSqwait, hf, ho, Bool.not_true, Bool.false_eq_true, if_false, if_pos hw]
  cases ann with
  | none => exact ⟨s.homes.lines, rfl⟩
  | some x =>
    obtain ⟨l, hl⟩ := s.acquire_eq x
    exact ⟨l, congrArg (SylOut.ok · .next) hl⟩

theorem sylSqwait_parks {a : R5} (ann : Option Scope) (hf : s.fileOf s.me = some f)
    (hw : seqHolds (s.seqGet f sq) (s.me.g a).toNat = false) (hn : s.me.woken = false) :
    sylSqwait a ann sq s.me s = .park (s.awaits (.seq f sq (BitVec.ofNat 32 (s.me.g a).toNat))) .poll := by
  simp [sylSqwait, hf, hw, hn]

theorem sylSqinc_adds (inc : BitVec 8) (ann : Option Scope) (hf : s.fileOf s.me = some f) (ho : s.fileOpen s.me.core f = true)
    (hn : ann = none ∨ noneOutstanding s) :
    sylSqinc inc ann sq s.me s = .ok ((s.setMe (ann.elim id released)).seqAdd f sq inc.toNat) .next := by
  cases ann with
  | none => simp only [sylSqinc, hf, ho, if_true]; rfl
  | some sc =>
    have hgo : (s.setMe (released sc)).fileOpen s.me.core f = true := ho
    simp only [sylSqinc, hf, releaseHeld_of_noneOutstanding (hn.resolve_left nofun), hgo, if_true, Option.elim]

theorem sq_noFile (h : canIssue s) (hf : s.begin.fileOf s.begin.me = none) {i : Instr} {y : Syl} (hi : exec i s = issueA y s)
    (hy : ∀ o t, t.fileOf o = none → y o t = frz t Cause.sqNoFile) :
    exec i s = .next (s.begin.freezeMe (Raise.of Cause.sqNoFile) false none) := by
  rw [hi, issueA_freeze h (hy _ _ hf)]

end

theorem begin_crew (s : State) (u : Nat) : s.begin.crew u = s.crew u := by
  unfold State.crew
  congr 1
  rw [State.begin_eq]
  unfold State.noteStart
  split
  · rfl
  · split <;> rfl

/-- A strand that waits for a counter parks (02 R92). -/
theorem parkedAs_awaits (s : State) (c : Cond) : parkedAs s ((s.begin.awaits c).parkMe .poll) := by
  have h := parkedAs_parkMe (s := s.begin.awaits c) rfl rfl (p := .poll) nofun nofun
  simpa [parkedAs, State.awaits, Strand.g, Strand.vr, Strand.kr] using h

theorem seqAdd_me (s : State) (f : SqFile) (i : BitVec 8) (n : Nat) : (s.seqAdd f i n).me = s.me := by
  cases f <;> rfl

theorem alike_ann (ann : Option Scope) (o : Strand) : alike o (ann.elim id released o) := by
  cases ann with
  | none => exact alike.self
  | some sc => exact alike_released sc o

/-- Settles O19: each counter instruction by what its syllable answers. -/
theorem sequenceCounters : Obligations.SequenceCounters := by
  unfold Obligations.SequenceCounters
  intro s d a inc sq h
  have hm : s.begin.me = s.me := s.begin_me
  refine ⟨fun f ann hf => ⟨fun ho => ?_, fun ho hw => ?_, fun hw hn => ?_, ?_⟩, fun hf i hi => ?_⟩
  · exact issueA_gives (sylSqrd d sq) d _ s h (sylSqrd_reads d hf (by rwa [hm]))
  · obtain ⟨l, hl⟩ := sylSqwait_completes (a := a) ann hf (by rwa [hm]) (by rw [hm]; exact hw.imp_left decide_eq_true)
    obtain ⟨t, ht, hc, hleft⟩ := issueA_completesAs (i := .sqwait a ann sq) rfl h hl (by simpa using alike.self)
    exact ⟨t, ht, hc, hleft.mem.trans s.begin_mem⟩
  · have hp := sylSqwait_parks (a := a) ann hf (by rw [hm]; exact decide_eq_false hw) (by rwa [hm])
    exact ⟨_, issueA_park h hp, parkedAs_awaits s _⟩
  · rintro u rfl ⟨x, hx⟩ ho hn
    have hs := sylSqinc_adds (sq := sq) inc ann hf (by rwa [hm]) (hn.imp_right noneOutstanding_begin)
    have hg := seqGet_seqAdd_crew (s := s.begin.setMe (ann.elim id released)) ((begin_crew s u).trans hx) sq
    refine ⟨_, issueA_ok h hs, completedAs_next (by simpa [seqAdd_me] using alike_ann ann s.me),
      (hg sq _).trans ?_, fun i hi => (hg i _).trans (if_neg hi)⟩
    rw [if_pos rfl, BitVec.ofNat_toNat]
    rfl
  · rcases hi with ⟨ann, rfl | rfl⟩ | rfl
    · exact sq_noFile h hf (y := sylSqwait a ann sq) rfl fun o t ht => by simp only [sylSqwait, ht]
    · exact sq_noFile h hf (y := sylSqinc inc ann sq) rfl fun o t ht => by simp only [sylSqinc, ht]
    · exact sq_noFile h hf (y := sylSqrd d sq) rfl fun o t ht => by simp only [sylSqrd, ht]

end Sys2Proof.Machine
end

section
/-! Rules of names and versions: what each operation on them finds, changes and leaves (02 R69-R87). -/

namespace Sys2Proof.Machine

open Sys2Proof

/-! ## Finding versions and names -/

theorem State.ver_updVer (s : State) (u : Nat) (f : Ver → Ver) (hf : ∀ x, (f x).uid = x.uid) :
    (s.updVer u f).ver u = (s.ver u).map f := find_map_if s.homes.vers (fun x : Ver => x.uid) u f hf

theorem State.ver_congr {s t : State} (h : t.homes.vers = s.homes.vers) (u : Nat) : t.ver u = s.ver u := by
  unfold State.ver
  rw [h]

theorem State.nameRec_congr {s t : State} (h : t.homes.names = s.homes.names) (space name : Nat) :
    t.nameRec space name = s.nameRec space name := by
  unfold State.nameRec
  rw [h]

/-- The record of a name has its name and its space. -/
theorem State.nameRec_id (s : State) (space name : Nat) :
    (s.nameRec space name).space = space ∧ (s.nameRec space name).name = name := by
  unfold State.nameRec
  cases h : s.homes.names.find? fun n => decide (n.space = space) && decide (n.name = name) with
  | none => exact ⟨rfl, rfl⟩
  | some n => simpa using List.find?_some h

/-- A replaced record is what the name has. -/
theorem State.nameRec_setName (s : State) {n : Name} {space name : Nat} (hs : n.space = space) (hn : n.name = name) :
    (s.setName n).nameRec space name = n := by
  unfold State.nameRec State.setName
  rw [State.setHomes_homes, List.find?_cons_of_pos (by simp [hs, hn])]
  rfl

/-! ## What operations on versions leave -/

/-- The names are as they were, and what was to happen still is. -/
structure offersOnto (s t : State) : Prop where
  names : t.homes.names = s.homes.names
  agenda : ∀ e ∈ s.agenda, e ∈ t.agenda

theorem offersOnto.refl (s : State) : offersOnto s s := ⟨rfl, fun _ h => h⟩

theorem offersOnto.trans {s t u : State} (h : offersOnto s t) (h' : offersOnto t u) : offersOnto s u :=
  ⟨h'.names.trans h.names, fun e he => h'.agenda e (h.agenda e he)⟩

theorem offersOnto_later (s : State) (e : Ev) : offersOnto s (s.later e) := ⟨rfl, fun _ h => List.mem_append_left _ h⟩

theorem offersOnto_foldl {α : Type} {f : State → α → State} (h : ∀ s x, offersOnto s (f s x)) (l : List α) (s : State) :
    offersOnto s (l.foldl f s) := foldl_keeps (I := offersOnto s) (fun t x ht => ht.trans (h t x)) l (.refl s)

theorem foldl_forgetTile_eq (vs : List Ver) (s : State) :
    ∃ l c, vs.foldl (fun s v => s.forgetTile v.uid) s = s.setHomes fun h => { h with lines := l, coh := c } := by
  induction vs generalizing s with
  | nil => exact ⟨s.homes.lines, s.homes.coh, rfl⟩
  | cons v vs ih =>
    obtain ⟨l, c, h⟩ := ih (s.forgetTile v.uid)
    exact ⟨l, c, by rw [List.foldl_cons, h]; rfl⟩

/-- Versions that die leave the table, and the caches keep nothing of them (02 R83). -/
theorem State.reap_eq (s : State) (space name : Nat) : ∃ l c, s.reap space name = s.setHomes fun h =>
    { h with vers := h.vers.filter fun v => !(decide (v.space = space) && decide (v.name = name) && dies (s.nameRec space name) v)
             lines := l, coh := c } := by
  unfold State.reap
  extract_lets n dead s1
  obtain ⟨l, c, h⟩ := foldl_forgetTile_eq dead s1
  exact ⟨l, c, by rw [h]; rfl⟩

theorem offersOnto_reap (s : State) (space name : Nat) : offersOnto s (s.reap space name) := by
  obtain ⟨l, c, h⟩ := s.reap_eq space name
  rw [h]
  exact ⟨rfl, fun _ he => he⟩

theorem offersOnto_offerPub (s : State) (space name : Nat) : offersOnto s (s.offerPub space name) := by
  unfold State.offerPub
  split
  · exact offersOnto_later s _
  · exact .refl s

theorem offersOnto_updVer (s : State) (u : Nat) (f : Ver → Ver) : offersOnto s (s.updVer u f) := ⟨rfl, fun _ h => h⟩

theorem offersOnto_wantFloat (s : State) (u : Nat) : offersOnto s (s.wantFloat u) := by
  unfold State.wantFloat
  split
  · split
    · exact (offersOnto_updVer s u _).trans (offersOnto_later _ _)
    · exact .refl s
  · exact .refl s

theorem offersOnto_grantAll (s : State) (n : Name) (v : Ver) : offersOnto s (s.grantAll n v) := by
  unfold State.grantAll
  extract_lets one fix mine refs s1 s2
  have h2 : offersOnto s s2 :=
    offersOnto.trans (t := s1) ⟨rfl, fun _ h => h⟩ (offersOnto_foldl (fun s u => offersOnto_updVer s u addRef) refs s1)
  split
  · exact h2.trans (offersOnto_wantFloat s2 _)
  · exact h2

theorem offersOnto_fire (s : State) (space name slice : Nat) (t : Trig) (num : Nat) : offersOnto s (s.fire space name slice t num) :=
  ⟨rfl, fun _ h => List.mem_append_left _ h⟩

theorem offersOnto_seqAdd (s : State) (f : SqFile) (i : BitVec 8) (n : Nat) : offersOnto s (s.seqAdd f i n) := by
  cases f <;> exact ⟨rfl, fun _ h => h⟩

/-! ## Tile frames -/

theorem takeFrame_fw {s s1 : State} {die f : Nat} {busy : List Nat} (h : s.takeFrame die busy = some (f, s1)) :
    ∃ w, s1 = s.setFw fun _ => w := by
  unfold State.takeFrame at h
  split at h
  · obtain ⟨-, rfl⟩ := Prod.mk.inj (Option.some.inj h)
    exact ⟨s.fw, rfl⟩
  · extract_lets used at h
    split at h
    · cases h
    · obtain ⟨-, rfl⟩ := Prod.mk.inj (Option.some.inj h)
      exact ⟨_, rfl⟩

theorem takeFrames_fw {die n : Nat} {busy fs : List Nat} {s s1 : State} (h : s.takeFrames die n busy = some (fs, s1)) :
    ∃ w, s1 = s.setFw fun _ => w := by
  induction n generalizing s busy with
  | zero =>
    obtain ⟨-, rfl⟩ := Prod.mk.inj (Option.some.inj h)
    exact ⟨s.fw, rfl⟩
  | succ n ih =>
    unfold State.takeFrames at h
    split at h
    · cases h
    · next f s2 hf =>
      obtain ⟨w2, rfl⟩ := takeFrame_fw hf
      obtain ⟨w, rfl⟩ := ih h
      exact ⟨w, rfl⟩

/-- Frames that a tile takes change the kinds of frames alone (16 R411). -/
theorem takeTile_fw {s s1 : State} {slice : Nat} {c : TileClass} {fs : List Nat} (h : s.takeTile slice c = some (fs, s1)) :
    ∃ w, s1 = s.setFw fun _ => w := by
  cases c with
  | k64 => exact takeFrames_fw h
  | m1 => exact takeFrames_fw h
  | k4 =>
    simp only [State.takeTile] at h
    split at h
    · obtain ⟨-, rfl⟩ := Prod.mk.inj (Option.some.inj h)
      exact ⟨s.fw, rfl⟩
    · exact takeFrames_fw h

end Sys2Proof.Machine
end

section
/-! Publication, racking and floating of versions (02 R75, R81, R85, R86). -/

namespace Sys2Proof.Machine

open Sys2Proof

section
variable {s : State} {u : Nat} {v : Ver} (hv : s.ver u = some v)
include hv

/-- A publication moves the latest version and offers every subscriber its notice (02 R75, R81). -/
theorem publish_publishes (hc : v.st = .completed) (hn : v.num = (s.nameRec v.space v.name).latest + 1) (hd : v.doomed = false) :
    ((s.publish u).nameRec v.space v.name).latest = v.num ∧
      ∀ x ∈ (s.nameRec v.space v.name).subs, .arrivalNotice x.1 (noticeWord v.name v.num) ∈ (s.publish u).agenda := by
  generalize ht : s.publish u = t
  unfold State.publish at ht
  split at ht
  case h_1 hv' => cases hv.symm.trans hv'
  case h_2 v' hv' =>
  cases hv.symm.trans hv'
  extract_lets n0 due n1 v1 s1 s2 s3 s4 at ht
  rw [if_neg (by simp [n0, hc, hn, hd])] at ht
  subst ht
  obtain ⟨hns, hnn⟩ := s.nameRec_id v.space v.name
  have h1 : s1.nameRec v.space v.name = n1 := State.nameRec_setName _ hns hnn
  have hend : offersOnto s3 ((s4.reap v.space v.name).offerPub v.space v.name) :=
    (offersOnto_foldl (fun t x => offersOnto_fire t _ _ _ _ _) due s3).trans
      ((offersOnto_reap s4 _ _).trans (offersOnto_offerPub _ _ _))
  have hstep : ∀ (t : State) (x : Nat × BitVec 8 × SqFile),
      offersOnto t ((t.seqAdd x.2.2 x.2.1 1).later (.arrivalNotice x.1 (noticeWord v.name v.num))) :=
    fun t x => (offersOnto_seqAdd t _ _ _).trans (offersOnto_later _ _)
  have hall : offersOnto s1 ((s4.reap v.space v.name).offerPub v.space v.name) :=
    (offersOnto_grantAll s1 n1 v1).trans ((offersOnto_foldl hstep n1.subs s2).trans hend)
  refine ⟨by rw [State.nameRec_congr hall.names, h1], fun x hx => hend.agenda _ ?_⟩
  obtain ⟨a, b, hab⟩ := List.append_of_mem (show x ∈ n1.subs from hx)
  simp only [s3, hab, List.foldl_append, List.foldl_cons]
  exact (offersOnto_foldl hstep b _).agenda _ (List.mem_append_right _ (List.mem_singleton.2 rfl))

theorem publish_idle (h : v.st ≠ .completed ∨ v.num ≠ (s.nameRec v.space v.name).latest + 1 ∨ v.doomed = true) : s.publish u = s := by
  simp only [State.publish, hv]
  rw [if_pos (by simpa using h)]

theorem exec_versionPublish :
    exec (.versionPublish u) s = .next (if s.pubOpen v.space v.name = true then s.publish u else s) := by
  show execVersionPublish u s = _
  simp only [execVersionPublish, hv, done]
  split <;> rfl

theorem startRack_takes {fs : List Nat} (hf : s.takeRack (s.verDie v) v.cls = some fs) :
    s.startRack u = (s.updVer u fun v => { v with st := .racking, hbm := fs }).later (.rackComplete u) := by
  simp only [State.startRack, hv, hf]

theorem exec_rackStart : exec (.rackStart u) s = .next (if rackDue s v = true then s.startRack u else s) := by
  show execRackStart u s = _
  simp only [execRackStart, hv, done]
  split <;> rfl

theorem exec_rackComplete : exec (.rackComplete u) s =
    .next (if v.st = .racking then s.updVer u fun v => { v with st := .racked, frames := [] } else s) := by
  show execRackComplete u s = _
  simp only [execRackComplete, hv, done]
  split <;> rfl

/-- A changed version is found as changed. -/
theorem ver_updVer_some {f : Ver → Ver} (hf : ∀ x, (f x).uid = x.uid) : (s.updVer u f).ver u = some (f v) := by
  rw [State.ver_updVer s u f hf, hv]
  rfl

theorem floatComplete_floats {fs : List Nat} {s1 : State} (hst : v.st = .floating)
    (ht : s.takeTile (s.nameSlice v.space v.name) v.cls = some (fs, s1)) :
    exec (.floatComplete u) s = .next (s1.updVer u fun v => { v with st := .afloat, frames := fs, hbm := [], used := s.tick }) := by
  show execFloatComplete u s = _
  simp only [execFloatComplete, hv, hst, ht, done, if_true]

theorem floatComplete_idle (hst : v.st ≠ .floating) : exec (.floatComplete u) s = .next s := by
  show execFloatComplete u s = _
  simp only [execFloatComplete, hv, if_neg hst, done]

end

/-- Settles O40: each event by what it does to the version of its number. -/
theorem versionsArePublishedAndMoved : Obligations.VersionsArePublishedAndMoved := by
  unfold Obligations.VersionsArePublishedAndMoved
  intro s u v hv n
  refine ⟨fun hc hn hd hp => ?_, fun h => ?_, fun fs hr hf => ?_, fun hr => ?_, fun hst => ?_, fun hst => ?_, fun fs s1 hst ht => ?_,
    floatComplete_idle hv⟩
  · exact ⟨_, by rw [exec_versionPublish hv, if_pos hp], publish_publishes hv hc hn hd⟩
  · rw [exec_versionPublish hv]
    split
    case isTrue hp => rw [publish_idle hv (by simpa [hp] using h)]
    case isFalse => rfl
  · have he := exec_rackStart hv
    rw [if_pos hr, startRack_takes hv hf] at he
    refine ⟨_, he, ver_updVer_some hv fun _ => rfl, rfl, ?_⟩
    exact List.mem_append_right _ (List.mem_singleton.2 rfl)
  · rw [exec_rackStart hv, hr]
    rfl
  · have he := exec_rackComplete hv
    rw [if_pos hst] at he
    exact ⟨_, he, ver_updVer_some hv fun _ => rfl, rfl⟩
  · rw [exec_rackComplete hv, if_neg hst]
  · obtain ⟨w, rfl⟩ := takeTile_fw ht
    exact ⟨_, floatComplete_floats hv hst ht, ver_updVer_some (s := s.setFw fun _ => w) hv fun _ => rfl, rfl⟩

end Sys2Proof.Machine
end

section
/-! Mapping and unmapping of versions (02 R74, R78, R79, R85, R86). -/

namespace Sys2Proof.Machine

open Sys2Proof

/-! ## The start of a bundle changes nothing that the homes and the firmware hold -/

@[simp] theorem begin_spaceOf (s : State) (ctx name : Nat) : s.begin.spaceOf ctx name = s.spaceOf ctx name := by
  rw [State.begin_eq]; rfl
@[simp] theorem begin_nameRec (s : State) (space name : Nat) : s.begin.nameRec space name = s.nameRec space name := by
  rw [State.begin_eq]; rfl
@[simp] theorem begin_nameSlice (s : State) (space name : Nat) : s.begin.nameSlice space name = s.nameSlice space name := by
  rw [State.begin_eq]; rfl
@[simp] theorem begin_homeOpen (s : State) (die space name : Nat) : s.begin.homeOpen die space name = s.homeOpen die space name := by
  rw [State.begin_eq]; rfl
@[simp] theorem begin_ver (s : State) (u : Nat) : s.begin.ver u = s.ver u := by
  rw [State.begin_eq]; rfl
@[simp] theorem begin_pubVer (s : State) (space name num : Nat) : s.begin.pubVer space name num = s.pubVer space name num := by
  rw [State.begin_eq]; rfl
@[simp] theorem begin_groupComplete (s : State) (space : Nat) : groupComplete s.begin space = groupComplete s space := by
  rw [State.begin_eq]; rfl

/-! ## References -/

@[simp] theorem addRef_uid (v : Ver) : (addRef v).uid = v.uid := by
  unfold addRef
  split
  · rfl
  · split <;> rfl

@[simp] theorem addRef_st (v : Ver) : (addRef v).st = v.st := by
  unfold addRef
  split
  · rfl
  · split <;> rfl

theorem dropRef_uid (v : Ver) : (dropRef v).uid = v.uid := by
  unfold dropRef
  split <;> rfl

/-- A version that keeps a reference does not die (02 R83). -/
theorem not_dies_dropRef (n : Name) {v : Ver} (h : 1 < v.refs) : dies n (dropRef v) = false := by
  unfold dies dropRef
  split
  case isTrue hp => simp [hp]
  case isFalse =>
    have : v.refs - 1 ≠ 0 := by omega
    simp [this]

theorem State.unref_me (s : State) (u : Nat) : (s.unref u).me = s.me := by
  unfold State.unref
  split
  · next v _ =>
    obtain ⟨l, c, h⟩ := (s.updVer u dropRef).reap_eq v.space v.name
    rw [h]
    rfl
  · rfl

/-- A version that others still hold has one reference less (02 R79). -/
theorem State.ver_unref {s : State} {u : Nat} {v : Ver} (hv : s.ver u = some v) (hr : 1 < v.refs) :
    (s.unref u).ver u = some (dropRef v) := by
  unfold State.unref
  rw [hv]
  obtain ⟨l, c, h⟩ := (s.updVer u dropRef).reap_eq v.space v.name
  have hf : (s.updVer u dropRef).ver u = some (dropRef v) := ver_updVer_some hv dropRef_uid
  unfold State.ver at hf ⊢
  simp only [h, State.setHomes_homes]
  rw [List.find?_filter]
  obtain ⟨hp, a, b, hab, hne⟩ := List.find?_eq_some_iff_append.1 hf
  refine List.find?_eq_some_iff_append.2 ⟨by simp [not_dies_dropRef _ hr, of_decide_eq_true hp], a, b, hab, fun x hx => ?_⟩
  have := hne x hx
  simp only [Bool.not_eq_true', decide_eq_false_iff_not] at this
  simp [this]

/-! ## Windows -/

theorem winAt_set (o : Strand) (w : W4) (x : Win) : ({ o with win := o.win.setIfInBounds w.toNat x } : Strand).winAt w = x :=
  Vector.getD_setIfInBounds_self _ _ _ w.isLt

theorem leftAs.winAt {s1 t : State} (h : leftAs s1 t) (w : W4) : t.me.winAt w = s1.me.winAt w := by
  unfold Strand.winAt
  rw [h.win]

theorem alike_win (o : Strand) (x : Vector Win 16) : alike o { o with win := x } := ⟨rfl, rfl, rfl, rfl, rfl, rfl, rfl, rfl, rfl⟩

/-! ## VMAP -/

section
variable {s : State}

theorem atHome_open {o : Strand} {space name : Nat} (ho : s.homeOpen (dieOf o.core) space name = true) (k : SylOut) :
    atHome o s space name k = k := if_pos ho

/-- A VMAP with no answer waiting, at a free window, asks the home of a name that is there (02 R78, 07 R213). -/
theorem vmapAt_asks {name : Nat} {w : W4} (k : Nat → SylOut)
    (ho : s.homeOpen (dieOf s.me.core) (s.spaceOf s.me.ctx name) name = true) (ha : s.me.answer = none)
    (hw : winBusy (s.me.winAt w) = false) (hg : groupComplete s (s.spaceOf s.me.ctx name) = true)
    (hd : (s.nameRec (s.spaceOf s.me.ctx name) name).dropped = false) :
    vmapAt s.me s name w k = k (s.spaceOf s.me.ctx name) := by
  simp only [vmapAt, ha]
  split
  case h_1 hp => rw [hp] at hw; cases hw
  case h_2 => simp [hw, hg, hd, atHome_open ho]

/-- A published version that a window maps: one more reference, and on its way to a tile frame where it was racked (02 R78, R86). -/
def mappedVer (v : Ver) : Ver := if v.st = .racked then { addRef v with st := .floating } else addRef v

/-- A version that is wanted starts floating where it is racked (02 R86). -/
theorem wantFloat_floats {u : Nat} {v : Ver} (hv : s.ver u = some v) : (s.wantFloat u).me = s.me ∧ (s.wantFloat u).mem = s.mem ∧
    (s.wantFloat u).ver u = some (if v.st = .racked then { v with st := .floating } else v) := by
  simp only [State.wantFloat, hv]
  split
  · exact ⟨rfl, rfl, ver_updVer_some hv fun _ => rfl⟩
  · exact ⟨rfl, rfl, hv⟩

/-- What a mapping leaves: the window, the reference, and memory as it was. -/
theorem vmapNow_maps {v : Ver} (w : W4) (hv : s.ver v.uid = some v) : ∃ s1, vmapNow s v w = .ok s1 .next ∧
    s1.me = { s.me with win := s.me.win.setIfInBounds w.toNat (.ro v.uid v.cls) } ∧ s1.ver v.uid = some (mappedVer v) ∧
    s1.mem = s.mem := by
  have h1 : ((s.updVer v.uid addRef).setWin w (.ro v.uid v.cls)).ver v.uid = some (addRef v) := ver_updVer_some hv addRef_uid
  obtain ⟨hme, hmem, hver⟩ := wantFloat_floats h1
  obtain ⟨l, hl⟩ := (((s.updVer v.uid addRef).setWin w (.ro v.uid v.cls)).wantFloat v.uid).acquire_eq (spaceScope v.space)
  rw [addRef_st] at hver
  exact ⟨_, rfl, by rw [hl]; exact hme, by rw [hl]; exact hver, by rw [hl]; exact hmem⟩

/-- The home of a name is asked by a VMAP at a window (02 R78). -/
def asksHome (s : State) (name space : Nat) (w : W4) : Prop := ∀ k, vmapAt s.me s name w k = k space

section
variable {a b : R5} {w : W4} {space : Nat} (ha : asksHome s (nameOf s.me a) space w)
include ha

theorem sylVmap_maps {v : Ver} (h0 : (s.me.g b).toNat % 2 ^ 32 ≠ 0)
    (hp : s.pubVer space (nameOf s.me a) ((s.me.g b).toNat % 2 ^ 32) = some v) : sylVmap a b w s.me s = vmapNow s v w := by
  rw [sylVmap, if_neg h0, ha]
  simp only [hp]

theorem sylVmap_asks (hl : (s.nameRec space (nameOf s.me a)).latest < (s.me.g b).toNat % 2 ^ 32)
    (hp : s.pubVer space (nameOf s.me a) ((s.me.g b).toNat % 2 ^ 32) = none) :
    sylVmap a b w s.me s = askFor s w (nameOf s.me a) ((s.me.g b).toNat % 2 ^ 32) := by
  rw [sylVmap, if_neg (by omega), ha]
  simp only [hp]
  rw [if_pos hl]

theorem sylVmapRel_maps {v : Ver} (hk : (s.me.g b).toNat < (s.nameRec space (nameOf s.me a)).latest)
    (hl : (s.nameRec space (nameOf s.me a)).latest < 2 ^ 32)
    (hp : s.pubVer space (nameOf s.me a) ((s.nameRec space (nameOf s.me a)).latest - (s.me.g b).toNat) = some v) :
    sylVmapRel a b w s.me s = vmapNow s v w := by
  have hmin : Nat.min (s.me.g b).toNat (2 ^ 32 - 1) = (s.me.g b).toNat := Nat.min_eq_left (by omega)
  rw [sylVmapRel, hmin, ha]
  simp only [hp]
  rw [if_pos (Nat.succ_le_of_lt hk)]

end

theorem vmap_completes {i : Instr} {f : Syl} {v : Ver} {w : W4} (hi : exec i s = issueA f s) (h : canIssue s)
    (hf : f s.begin.me s.begin = vmapNow s.begin v w) (hv : s.ver v.uid = some v) :
    ∃ t, exec i s = .next t ∧ completedAs s t ∧ t.me.winAt w = .ro v.uid v.cls ∧ t.ver v.uid = some (mappedVer v) ∧ t.mem = s.mem := by
  obtain ⟨s1, hs, hme, hver, hmem⟩ := vmapNow_maps (s := s.begin) w (by rwa [begin_ver])
  rw [State.begin_me] at hme
  obtain ⟨t, ht, hc, hleft⟩ := issueA_completesAs hi h (hf.trans hs) (by rw [hme]; exact alike_win _ _)
  refine ⟨t, ht, hc, ?_, ?_, hleft.mem.trans (hmem.trans s.begin_mem)⟩
  · rw [hleft.winAt, hme]
    exact winAt_set _ _ _
  · rw [State.ver_congr (congrArg Homes.vers hleft.homes), hver]

/-- A VMAP that waits stands in its window (02 R78). -/
theorem askFor_parks (s : State) (w : W4) (name t : Nat) {i : Instr} {f : Syl} (hi : exec i s = issueA f s) (h : canIssue s)
    (hf : f s.begin.me s.begin = askFor s.begin w name t) :
    ∃ x, exec i s = .next x ∧ parkedAs s x ∧ x.me.winAt w = .pending name t := by
  refine ⟨_, hi.trans (issueA_park h hf), ?_, ?_⟩
  · have hp := parkedAs_parkMe (s := (s.begin.setWin w (.pending name t)).setMe fun o => { o with askWin := some w.toNat }) rfl rfl
      (p := .poll) nofun nofun
    simpa [parkedAs, State.setWin, Strand.g, Strand.vr, Strand.kr] using hp
  · simpa [State.parkMe, State.setWin, Strand.winAt] using winAt_set s.me w (.pending name t)

end

/-! ## VUNMAP -/

section
variable {s : State} {w : W4} (h : canIssue s)
include h

theorem vunmap_free (hw : s.me.winAt w = .unmapped ∨ s.me.winAt w = .released) : exec (.vunmap w) s = .next (ends s id) := by
  refine issueA_ends (sylVunmap w) id s h ?_
  rw [State.begin_me, sylVunmap]
  rcases hw with hw | hw <;> rw [hw] <;> rfl

theorem vunmap_draft {u : Nat} {c : TileClass} (hw : s.me.winAt w = .draft u c) :
    exec (.vunmap w) s = .next (s.begin.freezeMe (Raise.of Cause.versionDraftUnmap) false none) := by
  refine issueA_freeze (f := sylVunmap w) h ?_
  rw [State.begin_me, sylVunmap, hw]
  rfl

theorem vunmap_waiting {m v : Nat} (hw : s.me.winAt w = .pending m v) (hv : v < 2 ^ 33) :
    exec (.vunmap w) s = .next (ends s fun o => { o with win := o.win.setIfInBounds w.toNat .unmapped }) := by
  refine issueA_ends (sylVunmap w) _ s h ?_
  rw [State.begin_me, sylVunmap, hw]
  simp only [if_neg (Nat.not_le.2 hv)]
  rfl

/-- A window that its strand leaves unmapped, with what becomes of the homes. -/
theorem vunmap_unmaps {s1 : State} (hs : sylVunmap w s.begin.me s.begin = .ok s1 .next) (hm : s1.me = (s.begin.setWin w .unmapped).me) :
    ∃ t, exec (.vunmap w) s = .next t ∧ completedAs s t ∧ t.me.winAt w = .unmapped ∧ leftAs s1 t := by
  rw [State.setWin, State.setMe_me, State.begin_me] at hm
  obtain ⟨t, ht, hc, hleft⟩ := issueA_completesAs (i := .vunmap w) rfl h hs (by rw [hm]; exact alike_win _ _)
  refine ⟨t, ht, hc, ?_, hleft⟩
  rw [hleft.winAt, hm]
  exact winAt_set _ _ _

theorem vunmap_pending {m v : Nat} (hw : s.me.winAt w = .pending m v) :
    ∃ t, exec (.vunmap w) s = .next t ∧ completedAs s t ∧ t.me.winAt w = .unmapped := by
  obtain ⟨s1, hs, hm⟩ : ∃ s1, sylVunmap w s.begin.me s.begin = .ok s1 .next ∧ s1.me = (s.begin.setWin w .unmapped).me := by
    rw [sylVunmap, State.begin_me, hw]
    refine ⟨_, rfl, ?_⟩
    split
    · split
      · exact State.unref_me _ _
      · rfl
    · rfl
  obtain ⟨t, ht, hc, hwin, -⟩ := vunmap_unmaps h hs hm
  exact ⟨t, ht, hc, hwin⟩

theorem vunmap_mapped {u : Nat} {c : TileClass} {v : Ver} (hw : s.me.winAt w = .ro u c) (hv : s.ver u = some v) (hr : 1 < v.refs) :
    ∃ t, exec (.vunmap w) s = .next t ∧ completedAs s t ∧ t.me.winAt w = .unmapped ∧ t.ver u = some (dropRef v) := by
  have hs : sylVunmap w s.begin.me s.begin = .ok ((s.begin.setWin w .unmapped).unref u) .next := by
    rw [sylVunmap, State.begin_me, hw]
  obtain ⟨t, ht, hc, hwin, hleft⟩ := vunmap_unmaps h hs (State.unref_me _ _)
  refine ⟨t, ht, hc, hwin, ?_⟩
  rw [State.ver_congr (congrArg Homes.vers hleft.homes)]
  exact State.ver_unref (s := s.begin.setWin w .unmapped) (by rw [← hv]; exact begin_ver s u) hr

end

/-- Settles O12: a mapping by `vmapNow`, a wait by `askFor`, an unmapping by the state of its window. -/
theorem mappingAndUnmapping : Obligations.MappingAndUnmapping := by
  unfold Obligations.MappingAndUnmapping
  refine ⟨?_, fun s w h => ⟨vunmap_free h, fun m v => vunmap_waiting h, fun m v => vunmap_pending h, fun u c v => vunmap_mapped h,
    fun u c => vunmap_draft h⟩⟩
  intro s d a b w r h name space n up ho
  refine ⟨?_, fun ha hw hg hd hr => ?_⟩
  · refine issueA_gives (sylVlatest d a) d _ s h ?_
    simp only [sylVlatest, State.begin_me, begin_spaceOf, begin_nameRec]
    exact atHome_open (by rw [begin_homeOpen]; exact ho) _
  · have hask : asksHome s.begin (nameOf s.begin.me a) space w := fun k => by
      simpa using vmapAt_asks (s := s.begin) (name := name) (w := w) k (by simpa using ho) (by simpa using ha) (by simpa using hw)
        (by simpa using hg) (by simpa using hd)
    refine ⟨?_, fun hl hp => ?_⟩
    · rintro i (⟨rfl, h0, hp⟩ | ⟨rfl, hk, hl, hp⟩)
      · exact vmap_completes rfl h (sylVmap_maps hask (by rwa [State.begin_me]) (by rwa [begin_pubVer, State.begin_me])) hr
      · exact vmap_completes rfl h (sylVmapRel_maps hask (by rwa [State.begin_me, begin_nameRec])
          (by rwa [State.begin_me, begin_nameRec]) (by rwa [begin_pubVer, State.begin_me, begin_nameRec])) hr
    · have hs := sylVmap_asks (b := b) hask (by rwa [State.begin_me, begin_nameRec]) (by rwa [begin_pubVer, State.begin_me])
      exact askFor_parks s w name _ rfl h (by rw [hs, State.begin_me])

end Sys2Proof.Machine
end

section
/-! Drafts: opening and joining them, contributions and completion (02 R71, R73-R75). -/

namespace Sys2Proof.Machine

open Sys2Proof

/-! ## Drafting -/

section
variable {s : State} {a : R5} {w : W4}

/-- A draft as VDRAFT.new opens it (02 R71, R73). -/
def freshDraft (s : State) (uid space name num : Nat) (cls : TileClass) (frames : List Nat) : Ver :=
  { uid := uid, space := space, name := name, num := num, cls := cls, st := .drafted, count := none, contrib := 0, refs := 0, pinned := false,
    doomed := false, frames := frames, hbm := [], data := [], used := s.tick }

theorem sylVdraftNew_opens {cls : TileClass} {frames : List Nat} {s1 : State} (d : R5) (hw : winBusy (s.me.winAt w) = false)
    (hg : groupComplete s (s.spaceOf s.me.ctx (nameOf s.me a)) = true)
    (ho : s.homeOpen (dieOf s.me.core) (s.spaceOf s.me.ctx (nameOf s.me a)) (nameOf s.me a) = true)
    (hc : let n := s.nameRec (s.spaceOf s.me.ctx (nameOf s.me a)) (nameOf s.me a)
      n.dropped = true ∨ n.cls = none ∨ n.cls = some cls)
    (hn : s.nextNum (s.nameRec (s.spaceOf s.me.ctx (nameOf s.me a)) (nameOf s.me a)) < 2 ^ 32)
    (hc' : s.tableCount (s.nameSlice (s.spaceOf s.me.ctx (nameOf s.me a)) (nameOf s.me a)) < 65536)
    (ht : s.takeTile (s.nameSlice (s.spaceOf s.me.ctx (nameOf s.me a)) (nameOf s.me a)) cls = some (frames, s1)) :
    ∃ s2, sylVdraftNew d a cls w s.me s = .ok s2 .next ∧ s2.mem = s.mem ∧
      s2.me = ({ s.me with win := s.me.win.setIfInBounds w.toNat (.draft s1.uid cls) } : Strand).setG d
        (BitVec.ofNat 64 (s.nextNum (s.nameRec (s.spaceOf s.me.ctx (nameOf s.me a)) (nameOf s.me a)))) ∧
      freshDraft s s1.uid (s.spaceOf s.me.ctx (nameOf s.me a)) (nameOf s.me a)
        (s.nextNum (s.nameRec (s.spaceOf s.me.ctx (nameOf s.me a)) (nameOf s.me a))) cls frames ∈ s2.homes.vers := by
  unfold sylVdraftNew
  extract_lets name space n num
  have hcls : (!n.dropped && n.cls.isSome && decide (n.cls ≠ some cls)) = false := by
    rcases hc with h | h | h <;> simp only [n, space, name, h] <;> simp
  rw [if_neg (by simp [hw]), if_neg (by simpa using hg), atHome_open ho, if_neg (by rw [hcls]; nofun), if_neg (Nat.not_le.2 hn),
    if_neg (Nat.not_le.2 hc'), ht]
  obtain ⟨f, rfl⟩ := takeTile_fw ht
  exact ⟨_, rfl, rfl, rfl, List.mem_append_right _ (List.mem_singleton.2 rfl)⟩

theorem sylVdraftJoin_eq (d : R5) (hw : winBusy (s.me.winAt w) = false)
    (hg : groupComplete s (s.spaceOf s.me.ctx (nameOf s.me a)) = true)
    (ho : s.homeOpen (dieOf s.me.core) (s.spaceOf s.me.ctx (nameOf s.me a)) (nameOf s.me a) = true) :
    sylVdraftJoin d a w s.me s = match s.openDraft (s.spaceOf s.me.ctx (nameOf s.me a)) (nameOf s.me a) with
      | some v => retG (s.setWin w (.draft v.uid v.cls)) d (BitVec.ofNat 64 v.num)
      | none => frz s Cause.versionNoDraft := by
  unfold sylVdraftJoin
  extract_lets name space
  rw [if_neg (by simp [hw]), if_neg (by simpa using hg)]
  exact atHome_open ho _

end

@[simp] theorem begin_openDraft (s : State) (space name : Nat) : s.begin.openDraft space name = s.openDraft space name := by
  rw [State.begin_eq]; rfl

theorem Strand.setG_win (o : Strand) (r : R5) (x : Word) : (o.setG r x).win = o.win := by
  obtain ⟨_, _, _, h⟩ := o.setG_eq r x
  rw [h]

theorem Strand.setG_winAt (o : Strand) (r : R5) (x : Word) (w : W4) : (o.setG r x).winAt w = o.winAt w := by
  unfold Strand.winAt
  rw [Strand.setG_win]

/-- A draft is opened or joined: its number is written, and it is mapped. -/
theorem drafts_completes {s s2 : State} {i : Instr} {f : Syl} {d : R5} {x : Word} {w : W4} {y : Win} (hi : exec i s = issueA f s)
    (h : canIssue s) (hf : f s.begin.me s.begin = .ok s2 .next)
    (hm : s2.me = ({ s.me with win := s.me.win.setIfInBounds w.toNat y } : Strand).setG d x) :
    ∃ t, exec i s = .next t ∧ completedWith s t d x ∧ t.me.winAt w = y ∧ leftAs s2 t := by
  obtain ⟨t, ht, hc, hleft⟩ := issueA_completesWith hi h hf hm (alike_win _ _)
  refine ⟨t, ht, hc, ?_, hleft⟩
  rw [hleft.winAt, hm, Strand.setG_winAt]
  exact winAt_set _ _ _

/-! ## Contributions -/

/-- What can be published next is offered for it, and nothing else changes (02 R75). -/
theorem offerPub_eq (s : State) (space name : Nat) : ∃ l, s.offerPub space name = { s with agenda := s.agenda ++ l } ∧
    ∀ x, s.nextPub space name = some x → .versionPublish x.uid ∈ l := by
  unfold State.offerPub
  split
  · next v hv => exact ⟨_, rfl, fun x hx => by cases hv.symm.trans hx; exact List.mem_singleton.2 rfl⟩
  · next hv => exact ⟨[], by rw [List.append_nil], fun x hx => by cases hv.symm.trans hx⟩

/-- A draft whose number of contributions is set (02 R74). -/
def withCount (n : Nat) (v : Ver) : Ver := { v with count := some n, st := if v.contrib = n then .completed else v.st }

/-- A draft that has had so many contributions (02 R74). -/
def contributed (n : Nat) (v : Ver) : Ver := { v with contrib := n, st := if v.count = some n then .completed else v.st }

/-- A draft is changed after the release of its strand, and what can be published next is offered (02 R74, R75, R77). -/
def State.changeDraft (s : State) (v : Ver) (f : Ver → Ver) : State :=
  ((s.setMe (released (spaceScope v.space))).updVer v.uid f).offerPub v.space v.name

theorem changeDraft_changes {s : State} {v : Ver} (hv : s.ver v.uid = some v) (f : Ver → Ver) (hf : ∀ x, (f x).uid = x.uid) :
    (s.changeDraft v f).me = released (spaceScope v.space) s.me ∧ (s.changeDraft v f).ver v.uid = some (f v) ∧
      ∀ x, (s.changeDraft v f).nextPub v.space v.name = some x → .versionPublish x.uid ∈ (s.changeDraft v f).agenda := by
  obtain ⟨l, hl, hx⟩ := offerPub_eq ((s.setMe (released (spaceScope v.space))).updVer v.uid f) v.space v.name
  unfold State.changeDraft
  rw [hl]
  exact ⟨rfl, ver_updVer_some (s := s.setMe (released (spaceScope v.space))) hv hf, fun x h => List.mem_append_right _ (hx x h)⟩

theorem State.nextPub_congr {s t : State} (h : t.homes = s.homes) (space name : Nat) : t.nextPub space name = s.nextPub space name := by
  unfold State.nextPub State.versOf State.nameRec
  rw [h]

/-- A bundle that changes a draft, with what it does to the windows of its strand. -/
theorem draft_completes {s : State} {v : Ver} {f : Ver → Ver} {g : Vector Win 16 → Vector Win 16} {i : Instr} {y : Syl}
    (hi : exec i s = issueA y s) (h : canIssue s) (hv : s.ver v.uid = some v) (hf : ∀ x, (f x).uid = x.uid)
    (hy : y s.begin.me s.begin = .ok ((s.begin.changeDraft v f).setMe fun o => { o with win := g o.win }) .next) :
    ∃ t, exec i s = .next t ∧ completedAs s t ∧ (∀ w : W4, t.me.winAt w = (g s.me.win).getD w.toNat .unmapped) ∧
      t.ver v.uid = some (f v) ∧ ∀ x, t.nextPub v.space v.name = some x → .versionPublish x.uid ∈ t.agenda := by
  obtain ⟨hme, hver, hnext⟩ := changeDraft_changes (s := s.begin) (by rwa [begin_ver]) f hf
  obtain ⟨_, _, _, hrel⟩ := released_eq (spaceScope v.space) s.me
  rw [State.begin_me, hrel] at hme
  obtain ⟨t, ht, hc, hleft⟩ := issueA_completesAs hi h hy (by
    rw [State.setMe_me, hme]
    exact ⟨rfl, rfl, rfl, rfl, rfl, rfl, rfl, rfl, rfl⟩)
  refine ⟨t, ht, hc, fun w => ?_, ?_, fun x hx => ?_⟩
  · rw [Strand.winAt, hleft.win, State.setMe_me, hme]
  · rw [State.ver_congr (congrArg Homes.vers hleft.homes)]
    exact hver
  · rw [State.nextPub_congr hleft.homes] at hx
    rw [hleft.agenda]
    exact hnext x hx

section
variable {s : State} {w : W4} {u : Nat} {c : TileClass} {v : Ver} (hn : noneOutstanding s) (hw : s.me.winAt w = .draft u c)
  (hv : s.ver u = some v) (ho : s.homeOpen (dieOf s.me.core) v.space v.name = true)
include hn hw hv ho

/-- At the window of a draft a strand with nothing outstanding goes on with the draft (02 R77). -/
theorem atDraft_goes (k : Ver → State → SylOut) :
    atDraft s.me s w k = k v (s.setMe (released (spaceScope v.space))) := by
  have hr : (s.setMe (released (spaceScope v.space))).ver u = some v := hv
  simp only [atDraft, hw, hv, atHome_open ho, releaseHeld_of_noneOutstanding hn, hr, Option.getD_some]

theorem sylVpub_eq {a : R5} (h1 : 1 ≤ (s.me.g a).toNat) (h2 : (s.me.g a).toNat ≤ 65535) (hc : v.count = none)
    (hle : v.contrib ≤ (s.me.g a).toNat) :
    sylVpub a w s.me s = .ok (s.changeDraft v (withCount (s.me.g a).toNat)) .next := by
  unfold sylVpub
  extract_lets n
  rw [if_neg (by simp only [n]; omega), atDraft_goes hn hw hv ho, if_neg (by simp [hc]), if_neg (Nat.not_lt.2 hle)]
  rfl

theorem sylVdone_eq (hu : v.uid = u) (hc : ∀ k, v.count = some k → v.contrib < k) :
    sylVdone w s.me s = .ok ((s.changeDraft v (contributed (v.contrib + 1))).setWin w .released) .next := by
  have hany : (v.count.any fun k => decide (k ≤ v.contrib)) = false := by
    cases hk : v.count with
    | none => rfl
    | some k => simpa using hc k hk
  have hr : (s.setMe (released (spaceScope v.space))).ver v.uid = some v := by
    rw [hu]
    exact hv
  rw [sylVdone, atDraft_goes hn hw hv ho, if_neg (by simp [hany])]
  simp only [State.contribute, hr]
  rfl

end

/-- Settles O13: a new draft by `sylVdraftNew_opens`, the rest by what the draft becomes and what it offers. -/
theorem draftingAndPublishing : Obligations.DraftingAndPublishing := by
  unfold Obligations.DraftingAndPublishing
  refine ⟨?_, ?_⟩
  · intro s d a cls w h hw name space n hg ho
    refine ⟨fun frames s1 hc hn ht hf => ?_, fun v hv => ?_, fun hv => ?_⟩
    · obtain ⟨s2, hs, hmem, hme, hver⟩ := sylVdraftNew_opens (s := s.begin) (a := a) (w := w) (cls := cls) (s1 := s1) d (by simpa using hw)
        (by simpa using hg) (by simpa using ho) (by simpa using hc) (by simpa using hn) (by simpa using ht) (by simpa using hf)
      simp only [State.begin_me, begin_spaceOf, begin_nameRec] at hme hver
      obtain ⟨t, he, hcw, hwin, hleft⟩ := drafts_completes (i := .vdraftNew d a cls w) rfl h hs hme
      rw [← hleft.homes] at hver
      exact ⟨t, he, hcw, hwin, ⟨_, hver, rfl, rfl, rfl, rfl, rfl, rfl, rfl, rfl, rfl⟩, hleft.mem.trans (hmem.trans s.begin_mem)⟩
    all_goals
      have hs := sylVdraftJoin_eq (s := s.begin) (a := a) (w := w) d (by simpa using hw) (by simpa using hg) (by simpa using ho)
      have hv' : s.begin.openDraft (s.begin.spaceOf s.begin.me.ctx (nameOf s.begin.me a)) (nameOf s.begin.me a) = s.openDraft space name := by
        simp only [begin_openDraft, State.begin_me, begin_spaceOf]
        rfl
      rw [hv', hv] at hs
    · obtain ⟨t, he, hcw, hwin, hleft⟩ := drafts_completes (i := .vdraftJoin d a w) (d := d) (x := BitVec.ofNat 64 v.num) (w := w)
        (y := .draft v.uid v.cls) rfl h hs (by rw [State.wg_me, State.setWin, State.setMe_me, State.begin_me])
      exact ⟨t, he, hcw, hwin, hleft.mem.trans s.begin_mem, hleft.homes.trans s.begin_homes⟩
    · exact issueA_freeze h hs
  · rintro s a w u c v h hn hw hv rfl ho
    have hb := noneOutstanding_begin hn
    refine ⟨?_, fun hc => ?_⟩
    · intro n h1 h2 hc hle
      have hs := sylVpub_eq (s := s.begin) (a := a) (v := v) hb (by simpa using hw) (by simpa using hv) (by simpa using ho)
        (by simpa using h1) (by simpa using h2) hc (by simpa using hle)
      obtain ⟨t, ht, hca, hwin, hver, hnext⟩ := draft_completes (i := .vpub a w) (f := withCount (s.begin.me.g a).toNat) (g := id) rfl h hv (fun _ => rfl) hs
      rw [State.begin_me] at hver
      exact ⟨t, ht, hca, (hwin w).trans hw, hver, hnext⟩
    · have hs := sylVdone_eq (s := s.begin) (v := v) hb (by simpa using hw) (by simpa using hv) (by simpa using ho) rfl hc
      obtain ⟨t, ht, hca, hwin, hver, hnext⟩ := draft_completes (i := .vdone w) (f := contributed (v.contrib + 1)) (g := (·.setIfInBounds w.toNat .released)) rfl h hv
        (fun _ => rfl) hs
      exact ⟨t, ht, hca, (hwin w).trans (winAt_set s.me w .released), hver, hnext⟩

end Sys2Proof.Machine
end

section
/-! Subscriptions, retention, and names that are dropped (02 R81, R82, R84). -/

namespace Sys2Proof.Machine

open Sys2Proof

/-! ## Subscriptions and retention -/

section
variable {s : State} {a : R5} {sq : BitVec 8} {f : SqFile} (hf : s.fileOf s.me = some f)
  (ho : s.homeOpen (dieOf s.me.core) (s.spaceOf s.me.ctx (nameOf s.me a)) (nameOf s.me a) = true)
include hf ho

theorem sylVsub_enters (hg : groupComplete s (s.spaceOf s.me.ctx (nameOf s.me a)) = true)
    (hn : ∀ x ∈ (s.nameRec (s.spaceOf s.me.ctx (nameOf s.me a)) (nameOf s.me a)).subs, ¬(x.1 = s.me.key ∧ x.2.1 = sq))
    (hl : s.me.subs.length < 16)
    (hh : (s.homes.names.filter fun m => decide (s.nameSlice m.space m.name =
      s.nameSlice (s.spaceOf s.me.ctx (nameOf s.me a)) (nameOf s.me a))).foldl (fun k m => k + m.subs.length) 0 < 8192) :
    sylVsub a sq s.me s =
      let space := s.spaceOf s.me.ctx (nameOf s.me a)
      let n := s.nameRec space (nameOf s.me a)
      .ok ((s.setName { n with subs := n.subs ++ [(s.me.key, sq, f)] }).setMe fun x =>
        { x with subs := x.subs ++ [(space, nameOf s.me a, sq, f)] }) .next := by
  simp only [sylVsub, hf]
  rw [if_neg (by simpa using hg), atHome_open ho, if_neg (by
    rw [List.any_eq_true]
    rintro ⟨x, hx, hd⟩
    exact hn x hx (by simpa using hd)), if_neg (not_or.2 ⟨Nat.not_le.2 hl, Nat.not_le.2 hh⟩)]

theorem sylVunsub_leaves :
    sylVunsub a sq s.me s =
      let space := s.spaceOf s.me.ctx (nameOf s.me a)
      let n := s.nameRec space (nameOf s.me a)
      .ok ((s.setName { n with subs := n.subs.filter fun x => !(decide (x.1 = s.me.key) && decide (x.2.1 = sq)) }).setMe fun x =>
        { x with subs := x.subs.filter fun y =>
          !(decide (y.1 = space) && decide (y.2.1 = nameOf s.me a) && decide (y.2.2.1 = sq)) }) .next := by
  simp only [sylVunsub, hf]
  exact atHome_open ho _

end

theorem sylVretain_sets {s : State} {a : R5} {k : BitVec 4} (h1 : 1 ≤ k.toNat) (h8 : k.toNat ≤ 8)
    (ho : s.homeOpen (dieOf s.me.core) (s.spaceOf s.me.ctx (nameOf s.me a)) (nameOf s.me a) = true) :
    sylVretain a k s.me s =
      let space := s.spaceOf s.me.ctx (nameOf s.me a)
      .ok ((s.setName { s.nameRec space (nameOf s.me a) with retain := k.toNat }).reap space (nameOf s.me a)) .next := by
  unfold sylVretain
  extract_lets name space
  rw [if_neg (by omega)]
  exact atHome_open ho _

/-- The record of a name that is replaced stays through the deaths of its versions. -/
theorem nameRec_reap (s : State) (space name sp nm : Nat) : (s.reap space name).nameRec sp nm = s.nameRec sp nm :=
  State.nameRec_congr (offersOnto_reap s space name).names sp nm

theorem reap_me (s : State) (space name : Nat) : (s.reap space name).me = s.me := by
  obtain ⟨_, _, h⟩ := s.reap_eq space name
  rw [h]
  rfl

theorem reap_others (s : State) (space name : Nat) : (s.reap space name).others = s.others := by
  obtain ⟨_, _, h⟩ := s.reap_eq space name
  rw [h]
  rfl

theorem mem_vers_reap {s : State} {space name : Nat} {v : Ver} (h : v ∈ (s.reap space name).homes.vers) : v ∈ s.homes.vers := by
  obtain ⟨_, _, hr⟩ := s.reap_eq space name
  rw [hr] at h
  exact (List.mem_filter.1 h).1

/-! ## A name that is dropped (02 R84) -/

theorem Vector.getD_map {α β : Type} {n : Nat} (v : Vector α n) (f : α → β) (d : β) {i : Nat} (e : α) (h : i < n) :
    (v.map f).getD i d = f (v.getD i e) := by
  simp [Vector.getD, h]

/-- A window as the cancelling of drafts leaves it (02 R77, R84). -/
def cancelledWin (dead : List Ver) (c : Cause) : Win → Win
  | .draft v k => if dead.any fun d => decide (d.uid = v) then .cancelled c k else .draft v k
  | w => w

theorem cancelledWin_dead {dead : List Ver} (c : Cause) {v : Ver} (hv : v ∈ dead) (k : TileClass) :
    cancelledWin dead c (.draft v.uid k) = .cancelled c k := if_pos (List.any_eq_true.2 ⟨v, hv, decide_eq_true rfl⟩)

/-- Cancelled versions leave the table, and the windows that map them remember why. -/
theorem State.cancel_eq (s : State) (p : Ver → Bool) (c : Cause) : ∃ l co, s.cancel p c =
    (s.updAll fun o => { o with win := o.win.map (cancelledWin (s.homes.vers.filter p) c) }).setHomes fun h =>
      { h with vers := h.vers.filter fun v => !p v, lines := l, coh := co } := by
  unfold State.cancel
  extract_lets dead s1 s2
  obtain ⟨l, co, h⟩ := foldl_forgetTile_eq dead s2
  refine ⟨l, co, ?_⟩
  rw [h]
  have hs : s2 = s1.updAll fun o => { o with win := o.win.map (cancelledWin dead c) } := by
    simp only [s2]
    congr 1
    funext o
    congr 1
    congr 1
    funext w
    cases w <;> rfl
  rw [hs]
  rfl

/-- A wait that ends with a dropped name touches no cancelled window, and no register. -/
theorem dropWaits_eq (s : State) (space name : Nat) (o : Strand) : ∃ w a, dropWaits s space name o = { o with win := w, answer := a } ∧
    ∀ (i : W4) c k, o.winAt i = .cancelled c k → w.getD i.toNat .unmapped = .cancelled c k := by
  unfold dropWaits
  extract_lets waits
  split
  · refine ⟨_, _, rfl, fun i c k h => ?_⟩
    rw [Vector.getD_map _ _ _ .unmapped i.isLt]
    rw [Strand.winAt] at h
    rw [h]
    rfl
  · exact ⟨_, _, rfl, fun i c k h => h⟩

/-- A version of a name that its drop cancels: a draft or a completed one (02 R84). -/
def cancelsFor (space name : Nat) (v : Ver) : Bool :=
  (decide (v.space = space) && decide (v.name = name) && !v.doomed) && (decide (v.st = .drafted) || decide (v.st = .completed))

/-- A strand as the drop of a name leaves it: its drafts of the name cancelled, its waits answered, its subscriptions gone. -/
def leaveName (s : State) (space name : Nat) (o : Strand) : Strand :=
  let o1 := dropWaits s space name
    { o with win := o.win.map (cancelledWin (s.homes.vers.filter (cancelsFor space name)) Cause.versionDropped) }
  { o1 with subs := o1.subs.filter fun y => !(decide (y.1 = space) && decide (y.2.1 = name)) }

/-- The record of a dropped name (02 R84). -/
def droppedName (space name : Nat) : Name :=
  { space := space, name := name, cls := none, latest := 0, retain := 1, subs := [], trigs := [], dropped := true }

/-- The strands and the versions of a dropped name, before those of its versions die that nobody holds. -/
theorem State.dropName_eq (s : State) (space name : Nat) : ∃ (s3 : State) (f : Ver → Ver),
    s.dropName space name = (s3.setName (droppedName space name)).reap space name ∧ s3.me = leaveName s space name s.me ∧
      s3.others = s.others.map (leaveName s space name) ∧
      s3.homes.vers = (s.homes.vers.filter fun v => !cancelsFor space name v).map f ∧
      ∀ v, (f v).space = v.space ∧ (f v).name = v.name ∧
        (v.space = space → v.name = name → (f v).doomed = true) := by
  unfold State.dropName
  extract_lets held mine s1 s2 s3
  obtain ⟨l, co, h⟩ := s.cancel_eq (cancelsFor space name) Cause.versionDropped
  have h1 : s1 = _ := h
  refine ⟨s3, fun v => if mine v then { (if v.num = 1 then dropRefs held v else v) with doomed := true } else v, rfl, ?_, ?_, ?_,
    fun v => ?_⟩
  · simp only [s3, s2, h1]
    rfl
  · simp only [s3, s2, h1, State.setHomes_others, State.updAll_others, List.map_map]
    rfl
  · simp only [s3, s2, h1]
    rfl
  · have hd : (dropRefs held v).space = v.space ∧ (dropRefs held v).name = v.name := by
      unfold dropRefs
      split <;> exact ⟨rfl, rfl⟩
    by_cases hm : mine v = true
    · simp only [hm, if_true]
      split
      · exact ⟨hd.1, hd.2, fun _ _ => trivial⟩
      · exact ⟨rfl, rfl, fun _ _ => trivial⟩
    · simp only [hm, Bool.false_eq_true, if_false]
      refine ⟨trivial, trivial, fun hs hn => ?_⟩
      simpa [mine, hs, hn] using hm

theorem leaveName_keeps (s : State) (space name : Nat) (o : Strand) :
    (leaveName s space name o).key = o.key ∧ alike o (leaveName s space name o) := by
  unfold leaveName
  extract_lets o1
  obtain ⟨w, a, h, -⟩ := dropWaits_eq s space name
    { o with win := o.win.map (cancelledWin (s.homes.vers.filter (cancelsFor space name)) Cause.versionDropped) }
  simp only [o1, h]
  exact ⟨trivial, ⟨rfl, rfl, rfl, rfl, rfl, rfl, rfl, rfl, rfl⟩⟩

/-- The window of a cancelled draft says so. -/
theorem leaveName_cancels {s : State} {space name : Nat} {v : Ver} (hv : v ∈ s.homes.vers) (hc : cancelsFor space name v = true)
    {o : Strand} {i : W4} {c : TileClass} (hw : o.winAt i = .draft v.uid c) :
    (leaveName s space name o).winAt i = .cancelled Cause.versionDropped c := by
  have hm : ({ o with win := o.win.map (cancelledWin (s.homes.vers.filter (cancelsFor space name)) Cause.versionDropped) } :
      Strand).winAt i = .cancelled Cause.versionDropped c := by
    rw [Strand.winAt, Vector.getD_map _ _ _ .unmapped i.isLt]
    rw [Strand.winAt] at hw
    rw [hw, cancelledWin_dead _ (List.mem_filter.2 ⟨hv, hc⟩)]
  obtain ⟨w, a, h, hk⟩ := dropWaits_eq s space name
    { o with win := o.win.map (cancelledWin (s.homes.vers.filter (cancelsFor space name)) Cause.versionDropped) }
  rw [leaveName, h]
  exact hk i _ _ hm

/-- What the drop of a name leaves: no latest version, no subscription, its versions doomed, its drafts cancelled (02 R84). -/
theorem State.dropName_drops (s : State) (space name : Nat) :
    (s.dropName space name).me = leaveName s space name s.me ∧
      (s.dropName space name).others = s.others.map (leaveName s space name) ∧
      (s.dropName space name).nameRec space name = droppedName space name ∧
      ∀ v ∈ (s.dropName space name).homes.vers, v.space = space → v.name = name → v.doomed = true := by
  obtain ⟨s3, f, h, hme, hothers, hvers, hf⟩ := s.dropName_eq space name
  rw [h, reap_me, reap_others, nameRec_reap]
  refine ⟨hme, hothers, State.nameRec_setName s3 rfl rfl, fun v hv hs hn => ?_⟩
  have hv3 : v ∈ s3.homes.vers := mem_vers_reap (s := s3.setName (droppedName space name)) hv
  rw [hvers] at hv3
  obtain ⟨x, -, rfl⟩ := List.mem_map.1 hv3
  obtain ⟨hsp, hnm, hd⟩ := hf x
  exact hd (hsp.symm.trans hs) (hnm.symm.trans hn)

/-- A bundle that replaces the record of a name and changes its strand's subscriptions. -/
theorem setName_completes {s : State} {m : Name} {g : List (Nat × Nat × BitVec 8 × SqFile) → List (Nat × Nat × BitVec 8 × SqFile)}
    {i : Instr} {f : Syl} (hi : exec i s = issueA f s) (h : canIssue s)
    (hf : f s.begin.me s.begin = .ok ((s.begin.setName m).setMe fun x => { x with subs := g x.subs }) .next) :
    ∃ t, exec i s = .next t ∧ completedAs s t ∧ t.nameRec m.space m.name = m ∧ t.me.subs = g s.me.subs := by
  have hm : ((s.begin.setName m).setMe fun x => { x with subs := g x.subs }).me = { s.me with subs := g s.me.subs } := by
    rw [State.setMe_me, State.setName, State.setHomes_me, State.begin_me]
  obtain ⟨t, ht, hc, hleft⟩ := issueA_completesAs hi h hf (by rw [hm]; exact ⟨rfl, rfl, rfl, rfl, rfl, rfl, rfl, rfl, rfl⟩)
  refine ⟨t, ht, hc, ?_, by rw [hleft.subs, hm]⟩
  rw [State.nameRec_congr (congrArg Homes.names hleft.homes)]
  exact State.nameRec_setName s.begin rfl rfl

/-- Settles O14: each instruction by the record of the name that it leaves; a dropped name by `dropName_drops`. -/
theorem subscribingRetainingAndDropping : Obligations.SubscribingRetainingAndDropping := by
  unfold Obligations.SubscribingRetainingAndDropping
  intro s a sq k f h name space n ho
  have ho' : s.begin.homeOpen (dieOf s.begin.me.core) (s.begin.spaceOf s.begin.me.ctx (nameOf s.begin.me a)) (nameOf s.begin.me a) = true :=
    by simpa using ho
  have hsp : s.begin.spaceOf s.begin.me.ctx (nameOf s.begin.me a) = space := by rw [State.begin_me, begin_spaceOf]
  have hnm : nameOf s.begin.me a = name := by rw [State.begin_me]
  have hsp' : s.begin.spaceOf s.begin.me.ctx name = space := by rw [State.begin_me, begin_spaceOf]
  have hrec : s.begin.nameRec space name = n := begin_nameRec s space name
  obtain ⟨hid, hin⟩ : n.space = space ∧ n.name = name := s.nameRec_id space name
  refine ⟨fun hf hg hx hl hh => ?_, fun hf => ?_, fun h1 h8 => ?_, ?_⟩
  · have hs := sylVsub_enters (sq := sq) hf ho' (by simpa using hg) (by simpa using hx) (by simpa using hl) (by simpa using hh)
    simp only [hnm, hsp', hrec] at hs
    obtain ⟨t, ht, hc, hr, hsub⟩ := setName_completes (m := { n with subs := n.subs ++ [(s.begin.me.key, sq, f)] }) (i := .vsub a sq) (g := (· ++ [(space, name, sq, f)])) rfl h hs
    simp only [hid, hin, State.begin_me] at hr
    exact ⟨t, ht, hc, by rw [hr], hsub⟩
  · have hs := sylVunsub_leaves (sq := sq) hf ho'
    simp only [hnm, hsp', hrec] at hs
    obtain ⟨t, ht, hc, hr, -⟩ := setName_completes (i := .vunsub a sq) rfl h hs
    simp only [hid, hin, State.begin_me] at hr
    exact ⟨t, ht, hc, by rw [hr]⟩
  · have hs := sylVretain_sets (s := s.begin) h1 h8 ho'
    simp only [hnm, hsp', hrec] at hs
    obtain ⟨t, ht, hc, hleft⟩ := issueA_completesAs (i := .vretain a k) rfl h hs (by
      rw [reap_me, State.setName, State.setHomes_me, State.begin_me]
      exact alike.self)
    have hr := (State.nameRec_congr (congrArg Homes.names hleft.homes) space name).trans (nameRec_reap _ space name space name)
    have hr := hr.trans (State.nameRec_setName s.begin (n := { n with retain := k.toNat }) hid hin)
    exact ⟨t, ht, hc, by rw [hr], by rw [hr]⟩
  · have hs : sylVdrop a s.begin.me s.begin = .ok (s.begin.dropName space name) .next := by
      rw [sylVdrop, hsp, hnm]
      exact atHome_open (by rw [hsp, hnm] at ho'; exact ho') _
    obtain ⟨hme, hothers, hr, hd⟩ := s.begin.dropName_drops space name
    rw [State.begin_me] at hme
    obtain ⟨t, ht, hc, hleft⟩ := issueA_completesAs (i := .vdrop a) rfl h hs (by rw [hme]; exact (leaveName_keeps _ _ _ _).2)
    rw [← State.nameRec_congr (congrArg Homes.names hleft.homes)] at hr
    refine ⟨t, ht, hc, by rw [hr]; rfl, by rw [hr]; rfl, by rw [hr]; rfl, by rw [hleft.homes]; exact hd, fun v hv hsv hnv hdv hst => ?_⟩
    have hcan : cancelsFor space name v = true := by
      rcases hst with hst | hst <;> simp [cancelsFor, hsv, hnv, hdv, hst]
    have hwin : ∀ o i c, Strand.winAt o i = .draft v.uid c → (leaveName s.begin space name o).winAt i = .cancelled Cause.versionDropped c :=
      fun o i c => leaveName_cancels (by rwa [State.begin_homes]) hcan
    refine ⟨fun i c hw => ?_, fun o ho => ⟨leaveName s.begin space name o, ?_, (leaveName_keeps _ _ _ _).1, hwin o⟩⟩
    · rw [hleft.winAt, hme]
      exact hwin _ i c hw
    · rw [hleft.others, hothers, State.begin_others]
      exact List.mem_map_of_mem ho

end Sys2Proof.Machine
end

section
/-! Scalar stores of own local memory: the strand whose core lies far beyond the package (`farStrand`). -/

namespace Sys2Proof.Machine

open Sys2Proof

/-- The store of an address register follows the strand's message to the package whose keys its local memory shares, and waits on its
way: no byte of it stands in memory when STD completes. -/
theorem memAfter_std : memAfter (exec (.std 1 1 .own (.fld 0)) farState) = some [] := by decide

/-- Refutes O7: nothing in the statement keeps the strand's core inside the package. The keys of `farState`'s local memory are those of
another package, so its store of `ownLocal 0` to there is still on its way, and byte 6 reads 0 and not 0xFD. -/
theorem not_localScalarAccesses : ¬ Obligations.LocalScalarAccesses := by
  unfold Obligations.LocalScalarAccesses
  intro h
  have hopen : openLocal farState 0 8 := ⟨by decide, by decide, nofun⟩
  obtain ⟨t, ht, hmem, -⟩ := h.2 farState 1 1 .own (.fld 0) 0 rfl rfl 8 _ (.inr (.inr (.inr ⟨rfl, rfl⟩))) (by decide) rfl hopen
  have hm : t.mem = [] := by
    have hmem := congrArg memAfter ht
    rw [memAfter_std] at hmem
    exact (Option.some.inj hmem).symm
  have hbyte := hmem (lkey farState.me.core 0 + 6)
  rw [hm] at hbyte
  exact absurd hbyte (by decide)

end Sys2Proof.Machine
end

section
/-! Atomics at words of own local memory, and updates of plain memory (02 R60, R61, R65; 07 R218, R222). -/

namespace Sys2Proof.Machine

open Sys2Proof

/-! ## Own local memory -/

theorem ownLocal_toNat {p : Nat} (hp : p < 2 ^ 17) : (ownLocal p).toNat = 0x00FD000000000000 + p := by
  rw [ownLocal, BitVec.toNat_add, BitVec.toNat_ofNat, BitVec.toNat_ofNat]
  omega

theorem regionOf_ownLocal {p : Nat} (hp : p < 2 ^ 17) : regionOf (ownLocal p) = .inr (.mine p) := by
  have hd : (0x00FD000000000000 + p) / 2 ^ 48 = 0xFD := by omega
  have hz : (0x00FD000000000000 + p) / 2 ^ 56 = 0 := by omega
  have hm : (0x00FD000000000000 + p) % 2 ^ 48 = p := by omega
  simp only [regionOf, ownLocal_toNat hp, hd, hz, hm, if_pos hp]
  rfl

/-- An access that takes local memory passes its checks at an aligned place of the strand's own. -/
theorem check_ownLocal {s : State} {o : Strand} {a : Acc} {z p : Nat} (lane : Nat) (hp : p < 2 ^ 17) (ha : a.noLocal = none)
    (hz : z ∣ 2 ^ 48) (hal : p % z = 0) : check s o a z lane (ownLocal p) = .ok (.mem (lkey o.core p)) (.mine p) none := by
  have hal' : (ownLocal p).toNat % z = 0 := by
    rw [ownLocal_toNat hp]
    exact Nat.mod_eq_zero_of_dvd (Nat.dvd_add (Dvd.dvd.mul_right hz 0xFD) (Nat.dvd_of_mod_eq_zero hal))
  simp [check, regionOf_ownLocal hp, hal', ha]

theorem lkey_add (core p i : Nat) : lkey core (p + i) = lkey core p + i := (Nat.add_assoc _ p i).symm

/-- The element of an access to own local memory. -/
def ownEl (o : Strand) (p : Nat) : El :=
  { lane := 0, va := ownLocal p, loc := .mem (lkey o.core p), rg := .mine p, pa := none }

/-- An element of a core's own local memory, by the key of its place: the homes and the caches have no address for it. -/
structure El.isLocal (e : El) (k : Nat) : Prop where
  loc : e.loc = .mem k
  pa : cohPa e = none
  mine : ∃ p, e.rg = .mine p

theorem ownEl_isLocal (o : Strand) (p : Nat) : (ownEl o p).isLocal (lkey o.core p) :=
  ⟨rfl, if_neg (Nat.not_lt.2 (by unfold lkey; omega)), p, rfl⟩

section
variable {e : El} {k : Nat} (he : e.isLocal k)
include he

theorem El.isLocal.partiesHeld (s : State) (r : ObjReq) : s.partiesHeld e r = false := by rw [State.partiesHeld, he.pa]

theorem El.isLocal.away (s : State) : s.away e = false := by
  obtain ⟨p, hp⟩ := he.mine
  simp [State.away, State.routeOf, hp]

theorem El.isLocal.noteUse (s : State) : s.noteUse e = s := by
  obtain ⟨p, hp⟩ := he.mine
  simp [State.noteUse, hp]

theorem El.isLocal.resvScope : resvScope e.rg e.pa = .pkg := by
  obtain ⟨p, hp⟩ := he.mine
  simp [Machine.resvScope, hp]

end

theorem poisonIn_none {s : State} {l : Loc} : ∀ {n : Nat}, (∀ i < n, s.poisonedAt (l.add i) = false) → s.poisonIn l n = none
  | 0, _ => rfl
  | n + 1, h => by
    rw [State.poisonIn, poisonIn_none fun i hi => h i (Nat.lt_succ_of_lt hi)]
    exact if_neg (by simp [h n (Nat.lt_succ_self n)])

/-- What clean bytes of local memory answer to an access of them. -/
theorem cleanLocal_clean {s : State} {p n : Nat} (h : cleanLocal s p n) :
    s.poisonIn (.mem (lkey s.me.core p)) n = none ∧ (0 < n → s.linePosted (.mem (lkey s.me.core p)) = false) := by
  obtain ⟨-, hi⟩ := h
  exact ⟨poisonIn_none fun i h => by rw [Loc.add, ← lkey_add]; exact (hi i h).1, fun h => (hi 0 h).2⟩

theorem atomicAt_ownLocal {s : State} {a : Acc} {z p : Nat} (hc : cleanLocal s p z) (ha : a.noLocal = none) (hz : z = 4 ∨ z = 8)
    (hal : p % z = 0) (k : El → State → SylOut) : atomicAt s.me s a z (ownLocal p) k = k (ownEl s.me p) s := by
  have hp : p < 2 ^ 17 := by have := hc.1; omega
  have he := ownEl_isLocal s.me p
  have hl : s.linePosted (ownEl s.me p).loc = false := by rw [he.loc]; exact (cleanLocal_clean hc).2 (by omega)
  rw [atomicAt, check_ownLocal 0 hp ha (by rcases hz with rfl | rfl <;> decide) hal]
  show (if (s.away (ownEl s.me p) || s.linePosted (ownEl s.me p).loc || s.partiesHeld (ownEl s.me p) .atomic) = true then _
    else k (ownEl s.me p) (s.noteUse (ownEl s.me p))) = _
  rw [he.away, hl, he.partiesHeld, he.noteUse, if_neg (by simp)]

/-! ## The queue of an address -/

theorem State.rqueue_loc (s : State) (k : Nat) : (s.rqueue k).loc = k := by
  unfold State.rqueue
  cases hf : s.homes.resv.find? fun r => decide (r.loc = k) with
  | none => rfl
  | some r => simpa using List.find?_some hf

/-- A queue that is replaced reads back. -/
theorem State.rqueue_setRqueue (s : State) {r : RQueue} {k : Nat} (hk : r.loc = k) : (s.setRqueue r).rqueue k = r := by
  subst hk
  have hrest : (s.homes.resv.filter fun x => !decide (x.loc = r.loc)).find? (fun x => decide (x.loc = r.loc)) = none := by
    rw [List.find?_eq_none]
    intro x hx
    simpa using (List.mem_filter.1 hx).2
  obtain ⟨l, q, b⟩ := r
  show ((if (q.isEmpty && !b) = true then _ else _ : List RQueue).find? _).getD _ = _
  by_cases he : (q.isEmpty && !b) = true
  · rw [if_pos he, hrest]
    simp only [Bool.and_eq_true, List.isEmpty_iff, Bool.not_eq_true'] at he
    rw [he.1, he.2]
    rfl
  · rw [if_neg he, List.find?_cons_of_pos (by simp)]
    rfl

theorem State.rqueue_congr {s t : State} (h : s.homes.resv = t.homes.resv) (k : Nat) : s.rqueue k = t.rqueue k := by
  rw [State.rqueue, State.rqueue, h]

section
variable {s : State} {k : Nat} (hq : (s.rqueue k).q = [])
include hq

theorem placeAt_free {o : Strand} (hh : s.heldBy o.key < 4) : s.placeAt o k = .head := by
  simp [State.placeAt, hq, Nat.not_le.2 hh]

/-- The queue of a free address with its new head. -/
theorem rqueue_enqueue (key : Nat) (w : Bool) :
    (s.enqueue key k w).rqueue k = { s.rqueue k with q := [{ key := key, w32 := w, held := false, word := none }] } := by
  have he : s.enqueue key k w = s.setRqueue { s.rqueue k with q := [{ key := key, w32 := w, held := false, word := none }] } := by
    simp [State.enqueue, hq]
  rw [he]
  exact s.rqueue_setRqueue (s.rqueue_loc k)

end

/-- Replacing a queue changes the queues alone. -/
theorem State.setRqueue_eq (s : State) (r : RQueue) : ∃ l, s.setRqueue r = s.setHomes fun h => { h with resv := l } := ⟨_, rfl⟩

theorem State.enqueue_eq (s : State) (key k : Nat) (w : Bool) : ∃ l, s.enqueue key k w = s.setHomes fun h => { h with resv := l } := by
  by_cases h : ((s.rqueue k).q.any fun x => decide (x.key = key)) = true
  · exact ⟨s.homes.resv, if_pos h⟩
  · exact ⟨_, if_neg h⟩

theorem State.hold_eq (s : State) (k : Nat) : ∃ l, s.hold k = s.setHomes fun h => { h with resv := l } := ⟨_, rfl⟩

/-- A queue with one entry has a held one, unkilled, once its head holds. -/
theorem rqueue_hold {s : State} {k : Nat} {x : RWait} (hq : (s.rqueue k).q = [x]) :
    (s.hold k).rqueue k = { s.rqueue k with killed := false, q := [{ x with held := true, word := none }] } := by
  have he : s.hold k = s.setRqueue { s.rqueue k with killed := false, q := [{ x with held := true, word := none }] } := by
    simp only [State.hold, hq]
  rw [he]
  exact s.rqueue_setRqueue (s.rqueue_loc k)

/-- The only entry of a queue leaves it empty. -/
theorem handOn_only {s : State} {k : Nat} {x : RWait} (hq : (s.rqueue k).q = [x]) :
    ((s.handOn k).rqueue k).q = [] ∧ ∃ l, s.handOn k = s.setHomes fun h => { h with resv := l } := by
  have he : s.handOn k = s.setRqueue { s.rqueue k with q := [] } := by simp [State.handOn, hq]
  rw [he]
  exact ⟨congrArg RQueue.q (s.rqueue_setRqueue (r := { s.rqueue k with q := [] }) (s.rqueue_loc k)), s.setRqueue_eq _⟩

theorem poisonIn_congr {s t : State} (h : s.poison = t.poison) (k : Nat) : ∀ n, s.poisonIn (.mem k) n = t.poisonIn (.mem k) n
  | 0 => rfl
  | n + 1 => by
    have hb : s.poisonedAt ((Loc.mem k).add n) = t.poisonedAt ((Loc.mem k).add n) := by
      rw [Loc.add, State.poisonedAt, State.poisonedAt, h]
    rw [State.poisonIn, State.poisonIn, poisonIn_congr h k n, hb]

/-! ## Counted messages -/

/-- Two states differ, at most, in what counts messages and in what the homes keep beside queues and object states. -/
structure countsOnly (s t : State) : Prop where
  mem : t.mem = s.mem
  resv : t.homes.resv = s.homes.resv
  coh : t.homes.coh = s.homes.coh
  me : alike s.me t.me

theorem alike.trans {o x y : Strand} (h : alike o x) (h' : alike x y) : alike o y :=
  ⟨h'.lo.trans h.lo, h'.inG.trans h.inG, h'.outG.trans h.outG, h'.v.trans h.v, h'.k.trans h.k, h'.h.trans h.h, h'.run.trans h.run,
    h'.lcount.trans h.lcount, h'.armed.trans h.armed⟩

theorem countsOnly.refl (s : State) : countsOnly s s := ⟨rfl, rfl, rfl, .self⟩

theorem countsOnly.trans {s t u : State} (h : countsOnly s t) (h' : countsOnly t u) : countsOnly s u :=
  ⟨h'.mem.trans h.mem, h'.resv.trans h.resv, h'.coh.trans h.coh, h.me.trans h'.me⟩

theorem countsOnly_arriveOne (s : State) (key : Nat) (round : BitVec 8) (target : Nat) : countsOnly s (s.arriveOne key round target) := by
  unfold State.arriveOne
  split
  case h_1 s1 hs1 =>
    unfold State.arrive at hs1
    extract_lets same at hs1
    split at hs1
    · cases hs1
      exact ⟨rfl, rfl, rfl, .self⟩
    · split at hs1
      · cases hs1
      · cases hs1
        exact ⟨rfl, rfl, rfl, .self⟩
  case h_2 => exact ⟨rfl, rfl, rfl, .self⟩

theorem countsOnly_upd_counts (s : State) (key : Nat) (f : Strand → List (Nat × Nat)) :
    countsOnly s (s.upd key fun o => { o with counts := f o }) := by
  refine ⟨rfl, rfl, rfl, ?_⟩
  rw [State.upd_me]
  split
  · exact ⟨rfl, rfl, rfl, rfl, rfl, rfl, rfl, rfl, rfl⟩
  · exact .self

/-- A counted message that reaches its slice changes counts alone (03 R108). -/
theorem countsOnly_counted (s : State) (key slice rkey : Nat) : countsOnly s (s.counted key slice rkey) := by
  unfold State.counted
  split
  case h_1 => exact .refl s
  case h_2 o ho =>
    have hsend : countsOnly s (s.sendCounted key slice rkey) := by
      unfold State.sendCounted
      rw [ho]
      exact foldl_keeps (I := countsOnly s) (fun t x ht => ht.trans (countsOnly_arriveOne t _ _ x)) _ (countsOnly_upd_counts s key _)
    unfold State.reachSlice
    split
    · exact hsend.trans (countsOnly_arriveOne _ _ _ _)
    · exact hsend

/-- A write of a reserved word stores its bytes (07 R217). -/
theorem writeWord_stores {e : El} {k : Nat} (hl : e.loc = .mem k) (s : State) (n x : Nat) :
    alike s.me (s.writeWord e n x).me ∧ (s.writeWord e n x).homes.resv = s.homes.resv ∧ (s.writeWord e n x).homes.coh = s.homes.coh ∧
      (s.writeWord e n x).mem = msetN s.mem k (natLE n x) := by
  have hsent : ∃ s1, countsOnly s s1 ∧ s.writeWord e n x = (cohPa e).elim (s1.put e.loc (natLE n x)) fun pa =>
      (s1.put e.loc (natLE n x)).updateCopy (cacheOf s.me.core) pa ((natLE n x).map some) := by
    unfold State.writeWord
    extract_lets p s1
    refine ⟨s1, ?_, by cases cohPa e <;> rfl⟩
    simp only [s1]
    split
    · exact countsOnly_counted _ _ _ _
    · split
      · exact ⟨rfl, rfl, rfl, ⟨rfl, rfl, rfl, rfl, rfl, rfl, rfl, rfl, rfl⟩⟩
      · exact .refl s
  obtain ⟨s1, hc, hw⟩ := hsent
  have hput : countsOnly s1 { s1.put e.loc (natLE n x) with mem := s1.mem } ∧
      (s1.put e.loc (natLE n x)).mem = msetN s1.mem k (natLE n x) := by
    rw [hl, State.put_mem_eq]
    exact ⟨⟨rfl, rfl, rfl, .self⟩, rfl⟩
  obtain ⟨hp, hmem⟩ := hput
  have hboth := hc.trans hp
  rw [hw]
  cases cohPa e with
  | none => exact ⟨hboth.me, hboth.resv, hboth.coh, by rw [Option.elim_none, hmem, hc.mem]⟩
  | some pa => exact ⟨hboth.me, hboth.resv, hboth.coh, by rw [Option.elim_some, State.updateCopy, State.setHomes_mem, hmem, hc.mem]⟩

/-! ## Atomics -/

theorem State.coh_congr {s t : State} (h : s.homes.coh = t.homes.coh) (k : CohKey) : s.coh k = t.coh k := by
  rw [State.coh, State.coh, h]

theorem State.coh_setCoh (s : State) (k : CohKey) (c : Coh) : (s.setCoh k c).coh k = c := by
  have hl : (s.setCoh k c).homes.coh = if c = .i then s.homes.coh.filter fun p => !decide (p.1 = k)
    else (k, c) :: s.homes.coh.filter fun p => !decide (p.1 = k) := rfl
  rw [State.coh, hl]
  by_cases h : c = .i
  · rw [if_pos h, List.find?_eq_none.2 fun p hp => by simpa using (List.mem_filter.1 hp).2, h]
  · rw [if_neg h, List.find?_cons_of_pos (by simp)]

theorem request_atomic {s : State} {pa : Nat} (h : ∀ x hs, s.coh (s.keyAt pa) ≠ .u x hs) (cl : Nat) :
    s.request cl pa .atomic = (s.dropLines (s.keyAt pa) fun _ => false).setCoh (s.keyAt pa) .i := by
  cases hc : s.coh (s.keyAt pa) with
  | u x hs => exact absurd hc (h x hs)
  | _ => simp only [State.request, hc]

section
variable {s : State} {e : El} (h : ∀ pa, cohPa e = some pa → ∀ x hs, s.coh (s.keyAt pa) ≠ .u x hs)
include h

/-- The home's part in an atomic of an object that holds no partials: states of objects and copies of lines. -/
theorem atHome_eq (n : Nat) : ∃ c l, s.atHome e n = s.setHomes fun h => { h with coh := c, lines := l } := by
  unfold State.atHome
  split
  case h_1 pa hpa =>
    rw [request_atomic (h pa hpa)]
    exact ⟨_, _, rfl⟩
  case h_2 => exact ⟨s.homes.coh, s.homes.lines, rfl⟩

/-- The object is in state I then (02 R60). -/
theorem atHome_coh {pa : Nat} (hpa : cohPa e = some pa) (n : Nat) : (s.atHome e n).coh (s.keyAt pa) = .i := by
  have hat : s.atHome e n = (s.request (cacheOf s.me.core) pa .atomic).refreshCopy (cacheOf s.me.core) pa (wordMask pa n) := by
    unfold State.atHome
    rw [hpa]
  rw [hat, request_atomic (h pa hpa)]
  exact (s.dropLines (s.keyAt pa) fun _ => false).coh_setCoh (s.keyAt pa) .i

end

/-- An atomic at the head of its queue: the strand holds the word, writes what `f` answers, and leaves. -/
def State.atomicStep (s : State) (key : Nat) (w : Bool) (e : El) (k : Nat) (f : Nat → Option Nat) : State :=
  let s1 := ((s.enqueue key k w).atHome e (wBytes w)).hold k
  ((f (s.loadNat (.mem k) (wBytes w))).elim s1 (s1.writeWord e (wBytes w))).handOn k

section
variable {s : State} {e : El} {k : Nat} {w : Bool} (hl : e.loc = .mem k) (hq : (s.rqueue k).q = [])
  (hu : ∀ pa, cohPa e = some pa → ∀ x hs, s.coh (s.keyAt pa) ≠ .u x hs)
include hq hu

/-- What an atomic finds once it stands at the head of a free address. -/
theorem atomicHead_finds (key : Nat) :
    ∃ s1, ((s.enqueue key k w).atHome e (wBytes w)).hold k = s1 ∧ s1.me = s.me ∧ s1.mem = s.mem ∧ s1.poison = s.poison ∧
      (s1.rqueue k).q = [{ key := key, w32 := w, held := true, word := none }] ∧
      (∀ pa, cohPa e = some pa → s1.coh (s.keyAt pa) = .i) ∧
      ((s.enqueue key k w).atHome e (wBytes w)).wordOf (.mem k) k (wBytes w) = s.loadNat (.mem k) (wBytes w) := by
  obtain ⟨l, hen⟩ := s.enqueue_eq key k w
  have hu' : ∀ pa, cohPa e = some pa → ∀ x hs, (s.enqueue key k w).coh ((s.enqueue key k w).keyAt pa) ≠ .u x hs := by rw [hen]; exact hu
  obtain ⟨c, l2, hat⟩ := atHome_eq hu' (wBytes w)
  have hq1 := congrArg RQueue.q ((State.rqueue_congr (s := (s.enqueue key k w).atHome e (wBytes w)) (by rw [hat]; rfl) k).trans
    (rqueue_enqueue hq key w))
  obtain ⟨l3, hho⟩ := ((s.enqueue key k w).atHome e (wBytes w)).hold_eq k
  refine ⟨_, rfl, ?_, ?_, ?_, congrArg RQueue.q (rqueue_hold hq1), fun pa hpa => ?_, ?_⟩
  · rw [hho, hat, hen]; rfl
  · rw [hho, hat, hen]; rfl
  · rw [hho, hat, hen]; rfl
  · have hi := atHome_coh hu' hpa (wBytes w)
    rw [show (s.enqueue key k w).keyAt pa = s.keyAt pa by rw [hen]; rfl] at hi
    rw [hho]
    exact hi
  · rw [State.wordOf, hq1]
    simp only [List.head?_cons, Option.bind_some, State.loadNat_mem]
    rw [hat, hen]
    rfl

include hl

/-- What an atomic at a free word leaves. -/
theorem atomicStep_leaves (key : Nat) (f : Nat → Option Nat) :
    alike s.me (s.atomicStep key w e k f).me ∧ ((s.atomicStep key w e k f).rqueue k).q = [] ∧
      (∀ pa, cohPa e = some pa → (s.atomicStep key w e k f).coh (s.keyAt pa) = .i) ∧
      (s.atomicStep key w e k f).mem = (f (leNat (mgetN s.mem k (wBytes w)))).elim s.mem fun y => msetN s.mem k (natLE (wBytes w) y) := by
  obtain ⟨s1, hs1, hme, hmem, -, hheld, hcoh, -⟩ := atomicHead_finds (w := w) hq hu key
  unfold State.atomicStep
  rw [hs1, State.loadNat_mem]
  cases f (leNat (mgetN s.mem k (wBytes w))) with
  | some y =>
    obtain ⟨ha, hr, hc, hm⟩ := writeWord_stores hl s1 (wBytes w) y
    obtain ⟨hempty, l3, hl3⟩ := handOn_only ((congrArg RQueue.q (State.rqueue_congr hr k)).trans hheld)
    simp only [Option.elim_some]
    refine ⟨?_, hempty, fun pa hpa => ?_, ?_⟩
    · rw [hl3, State.setHomes_me]
      exact hme ▸ ha
    · rw [hl3]
      exact (State.coh_congr hc _).trans (hcoh pa hpa)
    · rw [hl3, State.setHomes_mem, hm, hmem]
  | none =>
    obtain ⟨hempty, l3, hl3⟩ := handOn_only hheld
    simp only [Option.elim_none]
    refine ⟨?_, hempty, fun pa hpa => ?_, ?_⟩
    · rw [hl3, State.setHomes_me, hme]
      exact .self
    · rw [hl3]
      exact hcoh pa hpa
    · rw [hl3, State.setHomes_mem, hmem]

/-- An atomic at a free word goes on at once; AMO makes no release, ACAS one (07 R218). -/
theorem atomicThen_free {s0 : State} {va : Word} (hn : noneOutstanding s)
    (hat : ∀ k', atomicAt s.me s0 Acc.atomic (wBytes w) va k' = k' e s) (hsc : resvScope e.rg e.pa = .pkg) (hpo : s.poisonIn (.mem k) (wBytes w) = none) (hh : s.heldBy s.me.key < 4) (fenced : Bool)
    (f : Nat → Option Nat) (k' : Nat → State → SylOut) :
    atomicThen s.me s0 va w fenced f k' = k' (s.loadNat (.mem k) (wBytes w))
      (if fenced then ((s.setMe (released .pkg)).atomicStep s.me.key w e k f).acquire .pkg else s.atomicStep s.me.key w e k f) := by
  have hr : s.me.replay.isEmpty = true := by simp [hn.2.2.2.1]
  have hrel : ∀ k, release s.me s .pkg k = k (s.setMe (released .pkg)) := fun k => by
    rw [← releaseHeld_of_noneOutstanding hn .pkg k, releaseHeld, if_pos hr]
  have hroom : ∀ l k, withRoom s.me s l k = k s := fun l k => by simp [withRoom, hn.1]
  unfold atomicThen
  rw [hat]
  simp only [hl, show locKey (.mem k) = k from rfl, placeAt_free hq hh, hr, Bool.not_true, Bool.false_eq_true, if_false]
  cases fenced with
  | false =>
    obtain ⟨s1, hs1, -, -, hp, -, -, hw⟩ := atomicHead_finds (w := w) hq hu s.me.key
    have hpi : s1.poisonIn (.mem k) (wBytes w) = none := (poisonIn_congr hp k _).trans hpo
    simp only [Bool.false_eq_true, if_false, hroom, hs1, hpi, hw, State.atomicStep]
    cases f (s.loadNat (.mem k) (wBytes w)) <;> simp only [Option.elim_none, Option.elim_some]
  | true =>
    obtain ⟨s1, hs1, -, -, hp, -, -, hw⟩ := atomicHead_finds (s := s.setMe (released .pkg)) (w := w) hq hu s.me.key
    have hpi : s1.poisonIn (.mem k) (wBytes w) = none :=
      (poisonIn_congr (hp.trans (State.setMe_poison s (released .pkg))) k _).trans hpo
    simp only [if_true, hsc, hrel, hs1, hpi, hw, State.atomicStep, State.loadNat_mem, State.setMe_mem]
    cases f (leNat (mgetN s.mem k (wBytes w))) <;> simp only [Option.elim_none, Option.elim_some]

end

/-- An atomic instruction at a free word completes with the old word; its checks read the machine, and note a translation at most
(07 R218). -/
theorem atomic_completes {s : State} {i : Instr} {d a : R5} {e : El} {k : Nat} {w fenced : Bool} {f : Strand → Nat → Option Nat}
    (hi : exec i s = issueA (atomic d a w fenced f) s) (h : canIssue s) (hn : noneOutstanding s) {u : State}
    (hread : ∃ c t l, u = { s with sched := c, tlb := t, walks := l })
    (hat : ∀ k', atomicAt s.me s.begin Acc.atomic (wBytes w) (s.me.g a) k' = k' e u) (hl : e.loc = .mem k)
    (hsc : resvScope e.rg e.pa = .pkg) (hpo : s.poisonIn (.mem k) (wBytes w) = none) (hq : (s.rqueue k).q = []) (hh : s.heldBy s.me.key < 4)
    (hu : ∀ pa, cohPa e = some pa → ∀ x hs, s.coh (s.keyAt pa) ≠ .u x hs) :
    let x := leNat (mgetN s.mem k (wBytes w))
    ∃ t, exec i s = .next t ∧ completedWith s t d (BitVec.ofNat 64 x) ∧ (t.rqueue k).q = [] ∧
      (t.mem = (f s.me x).elim s.mem fun y => msetN s.mem k (natLE (wBytes w) y)) ∧
      ∀ pa, cohPa e = some pa → t.coh (s.keyAt pa) = .i := by
  intro x
  obtain ⟨c, tl, wk, rfl⟩ := hread
  set u : State := { s with sched := c, tlb := tl, walks := wk }
  have hstep : ∃ s3, atomic d a w fenced f s.begin.me s.begin = retG s3 d (BitVec.ofNat 64 x) ∧ alike s.me s3.me ∧ (s3.rqueue k).q = [] ∧
      (∀ pa, cohPa e = some pa → s3.coh (s.keyAt pa) = .i) ∧
      s3.mem = (f s.me x).elim s.mem fun y => msetN s.mem k (natLE (wBytes w) y) := by
    have hfree := atomicThen_free (s := u) (va := s.me.g a) hl hq hu hn hat hsc ((poisonIn_congr (s := u) (t := s) rfl k _).trans hpo) hh fenced (f s.me)
      (fun x s => retG s d (BitVec.ofNat 64 x))
    rw [State.loadNat_mem] at hfree
    rw [State.begin_me, atomic, hfree]
    cases fenced with
    | false =>
      obtain ⟨hal, hempty, hcoh, hmem⟩ := atomicStep_leaves (s := u) (w := w) hl hq hu s.me.key (f s.me)
      exact ⟨_, rfl, hal, hempty, hcoh, hmem⟩
    | true =>
      obtain ⟨hal, hempty, hcoh, hmem⟩ := atomicStep_leaves (s := u.setMe (released .pkg)) (w := w) hl hq hu s.me.key (f s.me)
      obtain ⟨l, hl⟩ := ((u.setMe (released .pkg)).atomicStep s.me.key w e k (f s.me)).acquire_eq .pkg
      rw [if_pos rfl]
      exact ⟨_, rfl, by rw [hl]; exact (alike_released .pkg s.me).trans hal, by rw [hl]; exact hempty, by rw [hl]; exact hcoh, by
        rw [hl]; exact hmem⟩
  obtain ⟨s3, hf, hal, hq3, hcoh, hmem⟩ := hstep
  obtain ⟨t, ht, hw, hleft⟩ := issueA_completesWith hi h hf rfl hal
  exact ⟨t, ht, hw, by rw [State.rqueue_congr (congrArg Homes.resv hleft.homes)]; exact hq3, by rw [hleft.mem]; exact hmem,
    fun pa hpa => (State.coh_congr (congrArg Homes.coh hleft.homes) _).trans (hcoh pa hpa)⟩

/-! ## Updates -/

theorem uBytes_dvd (tag : BitVec 4) : uBytes tag ∣ 64 ∧ 0 < uBytes tag := by
  unfold uBytes
  split <;> decide

/-- An update of plain memory is combined at once where nothing holds it (07 R222). -/
theorem updateAt_combines {s : State} {tag : BitVec 4} {z pa : Nat} {va : Word} {l : Loc} {rg : Region} {f : Nat → List (Nat × Nat)}
    (ht : tag ≠ 15) (hc : check s s.me Acc.update z 0 va = .ok l rg (some pa)) (hl : uLocked s tag pa = false)
    (hu : updatesAtOnce s tag va pa) :
    updateAt s.me s tag z va f = .ok ((s.noteUse { lane := 0, va := va, loc := .mem pa, rg := .plain, pa := some pa }).updateLine tag
      (cacheOf s.me.core) pa (f pa)) .next := by
  set e : El := { lane := 0, va := va, loc := .mem pa, rg := .plain, pa := some pa } with he
  have hgo : (!uHere s tag (cacheOf s.me.core) pa && s.stageFull e) = false ∧
      (if uHere s tag (cacheOf s.me.core) pa then s.linePosted e.loc
        else s.postedWaits { s.postOf .own e [] with slice := none, upd := some (tag, f pa) }) = false := by
    unfold updatesAtOnce at hu
    cases hh : uHere s tag (cacheOf s.me.core) pa with
    | true => exact ⟨rfl, by simpa [hh] using hu⟩
    | false =>
      simp only [hh, Bool.false_eq_true, if_false] at hu ⊢
      exact ⟨by simpa using hu.1, hu.2⟩
  simp only [updateAt, hc, if_neg ht, hl, Bool.false_eq_true, if_false, ← he]
  rw [if_neg (by simp [hgo.1]), State.sendUpdate, hgo.2, Bool.and_false]
  rfl

section
variable {s : State} {tag : BitVec 4} {k : CohKey} {cl pa : Nat}

/-- The identity partials of a line that a cluster opens. -/
theorem openPartials_fresh (hp : ∀ y ∈ s.homes.parts, y.key ≠ k) {a : Nat} (ha : a ∈ lineElems tag pa) :
    ({ key := k, cluster := cl, pa := a, val := BitVec.ofNat 64 (uIdentity tag), parked := false, bad := false } : Partial) ∈
      (s.openPartials k tag cl pa).homes.parts := by
  have hany : (s.homes.parts.any fun p => decide (p.key = k) && decide (p.cluster = cl) && decide (p.pa / 64 = pa / 64)) = false := by
    rw [List.any_eq_false]
    intro y hy
    simp [hp y hy]
  rw [State.openPartials, State.setHomes_homes]
  simp only [hany, Bool.false_eq_true, if_false]
  exact List.mem_append_right _ (List.mem_map_of_mem ha)

theorem openPartials_coh (s : State) (k : CohKey) (tag : BitVec 4) (cl pa : Nat) : (s.openPartials k tag cl pa).homes.coh = s.homes.coh := by
  rw [State.openPartials, State.setHomes_homes]
  split <;> rfl

/-- What one update does to a partial (02 R61, R65). -/
def Partial.combined (k : CohKey) (tag : BitVec 4) (cl : Nat) (e : Nat × Nat) (p : Partial) : Partial :=
  if p.key = k ∧ p.cluster = cl ∧ p.pa = e.1 then
    { p with val := BitVec.ofNat 64 (uCombine tag true p.val.toNat (uWiden tag e.2)), parked := false }
  else if p.key = k ∧ p.cluster = cl ∧ p.pa / 64 = e.1 / 64 then { p with parked := false }
  else p

theorem updateEl_eq (s : State) (k : CohKey) (tag : BitVec 4) (cl : Nat) (e : Nat × Nat) :
    s.updateEl k tag cl e = s.setHomes fun h => { h with parts := h.parts.map (Partial.combined k tag cl e) } := rfl

/-- Updates change the partials alone. -/
theorem foldl_updateEl_eq (k : CohKey) (tag : BitVec 4) (cl : Nat) : ∀ (es : List (Nat × Nat)) (s : State),
    es.foldl (fun s e => s.updateEl k tag cl e) s =
      s.setHomes fun h => { h with parts := h.parts.map fun p => es.foldl (fun p e => p.combined k tag cl e) p }
  | [], s => by simp [State.setHomes]
  | e :: es, s => by
    rw [List.foldl_cons, foldl_updateEl_eq k tag cl es, updateEl_eq]
    simp [State.setHomes, Function.comp_def]

theorem combined_of_pa_ne {p : Partial} {e : Nat × Nat} (h : p.pa ≠ e.1) : ∃ q, p.combined k tag cl e = { p with parked := q } := by
  unfold Partial.combined
  rw [if_neg fun hc => h hc.2.2]
  split
  · exact ⟨_, rfl⟩
  · exact ⟨p.parked, rfl⟩

/-- Updates of other elements leave a partial's value. -/
theorem foldl_combined_other : ∀ {es : List (Nat × Nat)} {p : Partial}, (∀ e ∈ es, p.pa ≠ e.1) →
    ∃ q, es.foldl (fun p e => p.combined k tag cl e) p = { p with parked := q }
  | [], p, _ => ⟨p.parked, rfl⟩
  | e :: es, p, h => by
    obtain ⟨q, hq⟩ := combined_of_pa_ne (k := k) (tag := tag) (cl := cl) (h e List.mem_cons_self)
    obtain ⟨q', hq'⟩ := foldl_combined_other (es := es) (p := { p with parked := q }) fun e he => h e (List.mem_cons_of_mem _ he)
    exact ⟨q', by rw [List.foldl_cons, hq, hq']⟩

/-- Among updates of distinct elements a partial takes the one of its own. -/
theorem foldl_combined_own : ∀ {es : List (Nat × Nat)} {p : Partial} {x : Nat}, (es.map (·.1)).Nodup → (p.pa, x) ∈ es → p.key = k →
    p.cluster = cl → ∃ q, es.foldl (fun p e => p.combined k tag cl e) p =
      { p with val := BitVec.ofNat 64 (uCombine tag true p.val.toNat (uWiden tag x)), parked := q }
  | e :: es, p, x, hd, hm, hk, hc => by
    obtain ⟨hnot, hd⟩ := List.nodup_cons.1 hd
    rcases List.mem_cons.1 hm with rfl | hm
    · have he : p.combined k tag cl (p.pa, x) =
          { p with val := BitVec.ofNat 64 (uCombine tag true p.val.toNat (uWiden tag x)), parked := false } := if_pos ⟨hk, hc, rfl⟩
      obtain ⟨q, hq⟩ := foldl_combined_other (k := k) (tag := tag) (cl := cl) (es := es)
        (p := { p with val := BitVec.ofNat 64 (uCombine tag true p.val.toNat (uWiden tag x)), parked := false })
        fun e he hpe => hnot (List.mem_map.2 ⟨e, he, hpe.symm⟩)
      exact ⟨q, by rw [List.foldl_cons, he, hq]⟩
    · have hne : p.pa ≠ e.1 := fun h => hnot (List.mem_map.2 ⟨_, hm, h⟩)
      obtain ⟨q, hq⟩ := combined_of_pa_ne (k := k) (tag := tag) (cl := cl) hne
      obtain ⟨q', hq'⟩ := foldl_combined_own (es := es) (p := { p with parked := q }) hd hm hk hc
      exact ⟨q', by rw [List.foldl_cons, hq, hq']⟩

/-- What a cluster's updates of distinct elements leave of a line of an object in state I (02 R60, R65). -/
theorem updateLine_fresh {es : List (Nat × Nat)} (hes : es ≠ []) (hk : s.keyAt pa = k) (hi : s.coh k = .i)
    (hp : ∀ y ∈ s.homes.parts, y.key ≠ k) (hd : (es.map (·.1)).Nodup) (hm : ∀ e ∈ es, e.1 ∈ lineElems tag pa) :
    (s.updateLine tag cl pa es).mem = s.mem ∧ (s.updateLine tag cl pa es).coh k = .u tag [cl] ∧
      ∀ e ∈ es, ∃ y ∈ (s.updateLine tag cl pa es).homes.parts, y.key = k ∧ y.cluster = cl ∧ y.pa = e.1 ∧
        y.val = BitVec.ofNat 64 (uCombine tag true (BitVec.ofNat 64 (uIdentity tag)).toNat (uWiden tag e.2)) := by
  have hreq : s.request cl pa (.update tag) = (s.dropLines k fun _ => false).setCoh k (.u tag [cl]) := by
    simp [State.request, hk, hi]
  have hne : es.isEmpty = false := by simpa using hes
  have hline : s.updateLine tag cl pa es = es.foldl (fun s e => s.updateEl k tag cl e)
      ((((s.dropLines k fun _ => false).setCoh k (.u tag [cl])).forgetCopies k cl).openPartials k tag cl pa) := by
    rw [State.updateLine]
    simp [hk, hi, hne, hreq]
  rw [hline, foldl_updateEl_eq]
  refine ⟨?_, ?_, fun e he => ?_⟩
  · rw [State.setHomes_mem, State.openPartials, State.setHomes_mem, State.forgetCopies, State.setHomes_mem, State.setCoh, State.setHomes_mem,
      State.dropLines, State.setHomes_mem]
  · exact (State.coh_congr (openPartials_coh _ k tag cl pa) k).trans ((s.dropLines k fun _ => false).coh_setCoh k (.u tag [cl]))
  · obtain ⟨q, hq⟩ := foldl_combined_own (k := k) (tag := tag) (cl := cl) (es := es) (x := e.2)
      (p := { key := k, cluster := cl, pa := e.1, val := BitVec.ofNat 64 (uIdentity tag), parked := false, bad := false })
      hd he rfl rfl
    refine ⟨_, List.mem_map_of_mem (openPartials_fresh ?_ (hm e he)), ?_⟩
    · exact hp
    · rw [hq]
      exact ⟨rfl, rfl, rfl, rfl⟩

end

/-- A translation that stays in the TLBs changes nothing else. -/
theorem noteWalk_eq (s : State) (places : List Nat) (die ctx va : Nat) : ∃ t w, s.noteWalk places die ctx va = { s with tlb := t, walks := w } := by
  unfold State.noteWalk
  repeat' split
  all_goals exact ⟨_, _, rfl⟩

theorem noteUse_eq (s : State) (e : El) : ∃ t w, s.noteUse e = { s with tlb := t, walks := w } := by
  unfold State.noteUse
  split
  · exact noteWalk_eq _ _ _ _ _
  · exact ⟨s.tlb, s.walks, rfl⟩

/-- The addresses of a line's active elements, from its first byte on. -/
theorem elems_of_line {tag : BitVec 4} {pa : Nat} (ha : pa % 64 = 0) {act : List Nat} (hd : act.Nodup) (hlt : ∀ i ∈ act, i < 64 / uBytes tag)
    (x : Nat → Nat) :
    (((act.map fun i => (pa + i * uBytes tag, x i)).map (·.1)).Nodup) ∧
      ∀ e ∈ act.map fun i => (pa + i * uBytes tag, x i), e.1 ∈ lineElems tag pa := by
  obtain ⟨-, hz⟩ := uBytes_dvd tag
  constructor
  · rw [List.map_map]
    exact hd.map fun i j h => by simpa [hz.ne'] using h
  · intro e he
    obtain ⟨i, hi, rfl⟩ := List.mem_map.1 he
    exact List.mem_map.2 ⟨i, List.mem_range.2 (hlt i hi), by show pa / 64 * 64 + _ = pa + _; omega⟩

theorem elem_of_line {tag : BitVec 4} {pa : Nat} (ha : pa % uBytes tag = 0) : pa ∈ lineElems tag pa := by
  obtain ⟨⟨n, hn⟩, hz⟩ := uBytes_dvd tag
  refine List.mem_map.2 ⟨pa % 64 / uBytes tag, List.mem_range.2 (Nat.div_lt_div_of_lt_of_dvd ⟨n, hn⟩ (Nat.mod_lt _ (by decide))), ?_⟩
  have hd : uBytes tag ∣ pa % 64 := (Nat.dvd_mod_iff ⟨n, hn⟩).2 (Nat.dvd_of_mod_eq_zero ha)
  show pa / 64 * 64 + pa % 64 / uBytes tag * uBytes tag = pa
  rw [Nat.div_mul_cancel hd]
  omega

/-- An update instruction completes with its updates combined (07 R222). -/
theorem update_completes {s : State} {i : Instr} {tag : BitVec 4} {z pa : Nat} {va : Word} {l : Loc} {rg : Region} {f : Nat → List (Nat × Nat)}
    {g : Syl} (hi : exec i s = issueA g s) (h : canIssue s) (hg : g s.begin.me s.begin = updateAt s.begin.me s.begin tag z va f)
    (ht : tag ≠ 15) (hc : check s.begin s.begin.me Acc.update z 0 va = .ok l rg (some pa)) (hl : uLocked s.begin tag pa = false)
    (hu : updatesAtOnce s.begin tag va pa) :
    exec i s = .next (((s.begin.noteUse { lane := 0, va := va, loc := .mem pa, rg := .plain, pa := some pa }).updateLine tag
      (cacheOf s.me.core) pa (f pa)).complete s.begin.me .next) := by
  rw [hi, issueA_ok h (hg.trans (updateAt_combines ht hc hl hu)), State.begin_me]

/-- A word that a store wrote, and the bytes beside it. -/
theorem written_word {s t : State} {k n y : Nat} (hm : s.memWf) (h : t.mem = msetN s.mem k (natLE n y)) :
    leNat (t.bytes (.mem k) n) = y % 256 ^ n ∧ sameMemOutside s t k n := by
  refine ⟨?_, fun a ha => by rw [h]; exact mget_msetN_out a hm (by rwa [natLE_length])⟩
  have hr := mgetN_msetN_part (k := k) (i := 0) (n := n) (bs := natLE n y) hm (by rw [natLE_length]; omega)
  rw [Nat.add_zero, List.drop_zero, List.take_of_length_le (by rw [natLE_length])] at hr
  rw [State.bytes_mem, h, hr, leNat_natLE]

/-- The same at a free word of own local memory. -/
theorem atomic_completes_local {s : State} {i : Instr} {d a : R5} {p : Nat} {w fenced : Bool} {f : Strand → Nat → Option Nat}
    (hi : exec i s = issueA (atomic d a w fenced f) s) (h : canIssue s) (hn : noneOutstanding s) (ha : s.me.g a = ownLocal p)
    (hal : p % wBytes w = 0) (hc : cleanLocal s p (wBytes w)) (hq : (s.rqueue (lkey s.me.core p)).q = []) (hh : s.heldBy s.me.key < 4) :
    let k := lkey s.me.core p
    let x := leNat (mgetN s.mem k (wBytes w))
    ∃ t, exec i s = .next t ∧ completedWith s t d (BitVec.ofNat 64 x) ∧ (t.rqueue k).q = [] ∧
      t.mem = (f s.me x).elim s.mem fun y => msetN s.mem k (natLE (wBytes w) y) := by
  have he := ownEl_isLocal s.me p
  have hcb : cleanLocal s.begin p (wBytes w) := by rw [State.begin_eq]; exact hc
  have hat := atomicAt_ownLocal (a := Acc.atomic) hcb rfl (by cases w <;> simp [wBytes]) hal
  rw [State.begin_me, ← ha] at hat
  obtain ⟨t, ht, hw, hempty, hmem, -⟩ := atomic_completes hi h hn ⟨s.noteStart.sched, s.tlb, s.walks, s.begin_eq⟩ hat he.loc he.resvScope (cleanLocal_clean hc).1 hq hh
    fun pa hpa => nomatch he.pa.symm.trans hpa
  exact ⟨t, ht, hw, hempty, hmem⟩

theorem pow_bytes (z : Nat) : 2 ^ (8 * z) = 256 ^ z := pow_mul 2 8 z

/-- Settles O16: atomics by `atomic_completes`, updates by `update_completes` and what they leave of a fresh line. -/
theorem atomicsAndUpdates : Obligations.AtomicsAndUpdates := by
  unfold Obligations.AtomicsAndUpdates
  constructor
  · intro s d a b w op p h hn hm z k x ha hal hc hq hh
    have hx : leNat (mgetN s.mem k z) = x := by rw [← State.bytes_mem]
    constructor
    · obtain ⟨t, ht, hw, hempty, hmem⟩ := atomic_completes_local (i := .amo d a b w op) rfl h hn ha hal hc hq hh
      rw [hx] at hw hmem
      rw [pow_bytes] at hmem
      obtain ⟨hword, hout⟩ := written_word hm hmem
      exact ⟨t, ht, hw, hempty, hword, hout⟩
    · obtain ⟨t, ht, hw, hempty, hmem⟩ := atomic_completes_local (i := .acas d a b w) rfl h hn ha hal hc hq hh
      rw [hx] at hw hmem
      refine ⟨t, ht, hw, hempty, ?_⟩
      by_cases he : x = (s.me.g d).toNat % 256 ^ z
      · rw [if_pos he]
        simp only [pow_bytes] at hmem
        rw [if_pos he] at hmem
        obtain ⟨hword, hout⟩ := written_word hm hmem
        exact ⟨hword.trans (Nat.mod_mod _ _), hout⟩
      · rw [if_neg he]
        simp only [pow_bytes] at hmem
        rw [if_neg he, Option.elim_none] at hmem
        exact ⟨by rw [State.bytes_mem, hmem, hx], fun a _ => by rw [hmem]⟩
  · intro s a b v m tag l rg pa h ht o z cl e u first fresh hl hu
    have hsame : u.homes = s.homes ∧ u.mem = s.mem := by
      obtain ⟨_, _, hnote⟩ := noteUse_eq s.begin e
      rw [show u = s.begin.noteUse e from rfl, hnote]
      exact ⟨State.begin_homes s, State.begin_mem s⟩
    obtain ⟨hhomes, hmem⟩ := hsame
    have hkey : u.keyAt pa = s.keyAt pa := by rw [State.keyAt, State.keyAt, hhomes]
    have hlines : fresh → ∀ es, es ≠ [] → (es.map (·.1)).Nodup → (∀ e ∈ es, e.1 ∈ lineElems tag pa) →
        ∀ t, t = (u.updateLine tag cl pa es).complete o .next → t.mem = s.mem ∧ t.coh (s.keyAt pa) = .u tag [cl] ∧
          ∀ e ∈ es, ∃ y ∈ t.homes.parts, y.key = s.keyAt pa ∧ y.cluster = cl ∧ y.pa = e.1 ∧ y.val = first e.2 := by
      intro ⟨hi, hp, _⟩ es hes hd hm t ht
      have hleft : leftAs (u.updateLine tag cl pa es) t := ht ▸ leftAs_complete _ o
      obtain ⟨hmem', hcoh, hparts⟩ := updateLine_fresh (s := u) (tag := tag) (cl := cl) hes hkey
        ((State.coh_congr (congrArg Homes.coh hhomes) _).trans hi) (by rw [hhomes]; exact hp) hd hm
      exact ⟨hleft.mem.trans (hmem'.trans hmem), (State.coh_congr (congrArg Homes.coh hleft.homes) _).trans hcoh, by
        rw [hleft.homes]; exact hparts⟩
    have ho : o = s.me := State.begin_me s
    constructor
    · intro hc x
      have hs : sylUred a b tag s.begin.me s.begin = updateAt s.begin.me s.begin tag z (s.me.g a) fun p => [(p, x)] := by
        rw [State.begin_me, sylUred, if_neg ht]
      refine ⟨_, update_completes (i := .ured a b tag) rfl h hs ht hc hl hu, rfl, fun hf => ?_⟩
      obtain ⟨hmem, hcoh, hparts⟩ := hlines hf [(pa, x)] (by simp) (by simp) (by simpa using elem_of_line hf.2.2) _ rfl
      exact ⟨hmem, hcoh, hparts (pa, x) List.mem_cons_self⟩
    · intro hc act x
      have hs : sylUredv a v m tag s.begin.me s.begin =
          updateAt s.begin.me s.begin tag 64 (s.me.g a) fun p => act.map fun i => (p + i * z, x i) := by rw [State.begin_me]; rfl
      refine ⟨_, update_completes (i := .uredv a v m tag) rfl h hs ht hc hl hu, rfl, fun hact => ?_, fun hact hf ha => ?_⟩
      · have hleft := leftAs_complete (u.updateLine tag cl pa (act.map fun i => (pa + i * z, x i))) o
        have hnone : u.updateLine tag cl pa (act.map fun i => (pa + i * z, x i)) = u := by rw [hact]; rfl
        rw [hnone] at hleft
        exact ⟨by rw [hnone]; exact hleft.mem.trans hmem, by rw [hnone]; exact hleft.homes⟩
      · obtain ⟨hd, hm⟩ := elems_of_line ha (act := act) (List.nodup_range.filter _)
          (fun i hi => List.mem_range.1 (List.mem_filter.1 hi).1) x
        obtain ⟨hmem, hcoh, hparts⟩ := hlines hf _ (by simpa using hact) hd hm _ rfl
        exact ⟨hmem, hcoh, fun i hi => hparts _ (List.mem_map_of_mem hi)⟩

end Sys2Proof.Machine
end

section
/-! Objects: declaring and freeing them at their homes (02 R58, R59; 07 R223, R224). -/

namespace Sys2Proof.Machine

open Sys2Proof

/-! ## Loads of own local memory -/

section
variable {e : El} {k : Nat} (he : e.isLocal k)
include he

theorem El.isLocal.loadEl (s : State) (rq : Rq) (n : Nat) : s.loadEl rq n e = s := by
  rw [State.loadEl, State.loadWords, he.pa]
  exact he.noteUse s

theorem El.isLocal.readBytes (s : State) (rq : Rq) (n : Nat) : s.readBytes rq n e = s.bytes (.mem k) n := by
  simp [State.readBytes, he.pa, he.loc]

theorem El.isLocal.loadWaits {s : State} (hl : s.linePosted (.mem k) = false) (rq : Rq) (n : Nat) : s.loadWaits rq n e = false := by
  simp [State.loadWaits, he.loc, hl, he.away, he.partiesHeld]

end

/-- Loads of aligned places of own local memory pass their checks. -/
theorem plan_ownLocal {s : State} {o : Strand} {z : Nat} (hz : z ∣ 2 ^ 48) : ∀ {ps : List Nat}, (∀ p ∈ ps, p < 2 ^ 17 ∧ p % z = 0) →
    plan s o Acc.load z (ps.map fun p => (0, ownLocal p)) = .ok (ps.map (ownEl o))
  | [], _ => rfl
  | p :: ps, h => by
    obtain ⟨hp, hal⟩ := h p List.mem_cons_self
    rw [List.map_cons, plan, check_ownLocal 0 hp rfl hz hal, plan_ownLocal hz fun q hq => h q (List.mem_cons_of_mem _ hq)]
    rfl

theorem foldl_loadEl_ownEl (o : Strand) (rq : Rq) (n : Nat) : ∀ (ps : List Nat) (s : State),
    (ps.map (ownEl o)).foldl (fun s e => s.loadEl rq n e) s = s
  | [], _ => rfl
  | p :: ps, s => by
    rw [List.map_cons, List.foldl_cons, (ownEl_isLocal o p).loadEl, foldl_loadEl_ownEl o rq n ps]

theorem poisonedEl_ownEl {s : State} {n : Nat} : ∀ {ps : List Nat}, (∀ p ∈ ps, cleanLocal s p n) →
    poisonedEl s n (ps.map (ownEl s.me)) = none
  | [], _ => rfl
  | p :: ps, h => by
    have hp := (cleanLocal_clean (h p List.mem_cons_self)).1
    rw [← (ownEl_isLocal s.me p).loc] at hp
    rw [List.map_cons, poisonedEl, hp]
    exact poisonedEl_ownEl fun q hq => h q (List.mem_cons_of_mem _ hq)

/-- Loads of clean, aligned places of own local memory go on with what stands there (07 R201). -/
theorem loadEls_ownLocal {s : State} {z : Nat} {ps : List Nat} (rq : Rq) (k : List (Nat × Nat) → State → SylOut) (hz : z ∣ 2 ^ 48) (h0 : 0 < z)
    (h : ∀ p ∈ ps, cleanLocal s p z ∧ p % z = 0) :
    loadEls s.me s rq z (ps.map fun p => (0, ownLocal p)) k =
      k (ps.map fun p => (0, leNat (s.bytes (.mem (lkey s.me.core p)) z))) s := by
  have hplan := plan_ownLocal (s := s) (o := s.me) hz fun p hp => ⟨by have := (h p hp).1.1; omega, (h p hp).2⟩
  have hwait : ((ps.map (ownEl s.me)).any fun e => s.loadWaits rq z e) = false := by
    rw [List.any_map, List.any_eq_false]
    intro p hp
    simpa using (ownEl_isLocal s.me p).loadWaits ((cleanLocal_clean (h p hp).1).2 h0) rq z
  rw [loadEls, hplan]
  simp only [hwait, Bool.false_eq_true, if_false, foldl_loadEl_ownEl, poisonedEl_ownEl fun p hp => (h p hp).1, List.map_map]
  refine congrArg (k · s) (List.map_congr_left fun p _ => ?_)
  rw [Function.comp_apply, (ownEl_isLocal s.me p).readBytes]
  rfl

theorem cleanLocal_part {s : State} {p n i m : Nat} (h : cleanLocal s p n) (hi : i + m ≤ n) : cleanLocal s (p + i) m :=
  ⟨by have := h.1; omega, fun j hj => by rw [Nat.add_assoc]; exact h.2 (i + j) (by omega)⟩

theorem ownLocal_add {p i : Nat} : ownLocal p + BitVec.ofNat 64 i = ownLocal (p + i) := by
  rw [ownLocal, ownLocal, BitVec.add_assoc, BitVec.ofNat_add]

/-! ## Ids of objects -/

/-- The search stops at a free number or past as many as it tried; all that it passed are used. -/
theorem firstFree_spec (used : List Nat) : ∀ n i : Nat, firstFree used n i ≤ i + n ∧
    (firstFree used n i ∉ used ∨ firstFree used n i = i + n) ∧ ∀ j, i ≤ j → j < firstFree used n i → j ∈ used
  | 0, i => ⟨Nat.le_refl _, .inr rfl, fun j h h' => absurd h' (Nat.not_lt.2 h)⟩
  | n + 1, i => by
    obtain ⟨hle, hend, hall⟩ := firstFree_spec used n (i + 1)
    rw [firstFree]
    split
    case isFalse hi => exact ⟨by omega, .inl (by simpa using hi), fun j h h' => absurd h' (Nat.not_lt.2 h)⟩
    case isTrue hi =>
      refine ⟨by omega, hend.imp_right (by omega), fun j hj hj' => ?_⟩
      rcases Nat.eq_or_lt_of_le hj with rfl | hj
      · simpa using hi
      · exact hall j hj hj'

/-- Of 4,096 numbers with fewer in use the search from 1 finds a free one, 0 the last. -/
theorem firstFree_mod_not_mem {used : List Nat} (h : used.length < 4096) : firstFree used used.length 1 % 4096 ∉ used := by
  obtain ⟨hle, hend, hall⟩ := firstFree_spec used used.length 1
  by_cases hr : firstFree used used.length 1 = 1 + used.length
  · have hsub : List.range' 1 used.length ⊆ used := fun j hj => by
      obtain ⟨h1, h2⟩ := List.mem_range'_1.1 hj
      exact hall j h1 (by omega)
    have hperm : (List.range' 1 used.length).Perm used :=
      (List.subperm_of_subset List.nodup_range' hsub).perm_of_length_le (by simp)
    rw [← hperm.mem_iff, hr, List.mem_range'_1]
    omega
  · rw [Nat.mod_eq_of_lt (by omega)]
    exact hend.resolve_right hr

/-! ## Declaring -/

/-- The id that a new object of a slice gets (02 R58). -/
def newId (s : State) (slice : Nat) : Nat :=
  slice * 4096 + firstFree ((s.objIds slice).map fun i => i - slice * 4096) (s.objIds slice).length 1 % 4096

/-- It is an id of the slice that no object has. -/
theorem newId_fresh {s : State} {slice : Nat} (h : (s.objIds slice).length < 4096) :
    newId s slice / 4096 = slice ∧ newId s slice ∉ s.objIds slice := by
  have hfree := firstFree_mod_not_mem (used := (s.objIds slice).map fun i => i - slice * 4096) (by simpa using h)
  rw [List.length_map] at hfree
  have hlt := Nat.mod_lt (firstFree ((s.objIds slice).map fun i => i - slice * 4096) (s.objIds slice).length 1) (show 0 < 4096 by decide)
  unfold newId
  generalize firstFree ((s.objIds slice).map fun i => i - slice * 4096) (s.objIds slice).length 1 % 4096 = r at hfree hlt
  exact ⟨by omega, fun hm => hfree (List.mem_map.2 ⟨_, hm, by omega⟩)⟩

section
variable {s : State} {ctx : Nat} {op : Option (BitVec 4)} {lock : Bool} {gs : List Nat}

theorem declare_full (h : 4096 ≤ (s.objIds (homeSlice (gs.headD 0 * 256))).length) : declare s ctx op lock gs = (1, s) :=
  if_pos h

theorem declare_taken (h : (s.objIds (homeSlice (gs.headD 0 * 256))).length < 4096)
    (hg : ∃ g ∈ gs, ∃ b ∈ s.homes.objs, g ∈ b.granules) : declare s ctx op lock gs = (2, s) := by
  have hany : (gs.any fun g => s.homes.objs.any fun b => b.granules.contains g) = true := by simpa using hg
  exact (if_neg (Nat.not_le.2 h)).trans (if_pos hany)

/-- The machine with an object entered over granules that have left their states, or with no partial yet where it has an operator. -/
def State.enterObj (s : State) (b : Obj) : State :=
  let s2 := (b.granules.foldl (fun s g => s.resetKey (.gran g)) s).setHomes fun h => { h with objs := h.objs ++ [b] }
  b.op.elim s2 fun t => s2.setCoh (.obj b.id) (.u t [])

/-- An object over free granules is entered under a new id (02 R58). -/
theorem declare_enters (h : (s.objIds (homeSlice (gs.headD 0 * 256))).length < 4096)
    (hg : ∀ g ∈ gs, ∀ b ∈ s.homes.objs, g ∉ b.granules) :
    declare s ctx op lock gs = (BitVec.ofNat 64 (newId s (homeSlice (gs.headD 0 * 256)) * 256),
      s.enterObj { id := newId s (homeSlice (gs.headD 0 * 256)), ctx := ctx, op := op, lock := lock, granules := gs }) := by
  have hany : ¬(gs.any fun g => s.homes.objs.any fun b => b.granules.contains g) = true := by simpa using hg
  refine (if_neg (Nat.not_le.2 h)).trans ((if_neg hany).trans (Prod.ext (congrArg (BitVec.ofNat 64) (Nat.add_zero _)) ?_))
  cases op <;> rfl

theorem mem_enterObj (s : State) (b : Obj) : b ∈ (s.enterObj b).homes.objs := by
  unfold State.enterObj
  cases b.op <;> exact List.mem_append_right _ (List.mem_singleton.2 rfl)

end

/-! ## Freeing -/

theorem State.resetKey_me (s : State) (k : CohKey) : (s.resetKey k).me = s.me := by
  have ha : (s.resetKey k).agents = s.agents := by
    unfold State.resetKey
    split <;> simp
  have hme := congrArg State.me ha
  exact hme

/-- OFREE of an object that the strand's context has declared (02 R59). -/
theorem sylOfree_frees {s : State} {a : R5} {b : Obj}
    (hb : s.homes.objs.find? (fun x => decide (x.id = (s.me.g a).toNat / 256) && decide (x.ctx = s.me.ctx)) = some b)
    (hm : (s.me.g a).toNat % 256 = 0) (ho : s.objectOpen s.me.core b.granules = true) :
    sylOfree a s.me s = .ok ((s.resetKey (.obj b.id)).setHomes fun h => { h with objs := h.objs.filter fun x => !decide (x.id = b.id) }) .next := by
  simp [sylOfree, hb, hm, ho]

theorem sylOfree_invalid {s : State} {a : R5}
    (hb : ∀ b ∈ s.homes.objs, ¬(b.id = (s.me.g a).toNat / 256 ∧ b.ctx = s.me.ctx)) : sylOfree a s.me s = frz s Cause.objectInvalid := by
  have hnone : s.homes.objs.find? (fun x => decide (x.id = (s.me.g a).toNat / 256) && decide (x.ctx = s.me.ctx)) = none :=
    List.find?_eq_none.2 fun b hm => by simpa using hb b hm
  simp [sylOfree, hnone]

/-! ## Declaring by a record in local memory -/

section
variable {s : State} {d a : R5} {named lock : Bool} {tag : BitVec 4} {p x : Nat} (ha : s.me.g a = ownLocal p) (hal : p % 16 = 0)
  (hn : named = true → tag ≠ 15) (hc : cleanLocal s p 16) (hx : leNat (s.bytes (.mem (lkey s.me.core p)) 16) = x)
include ha hal hn hc hx

/-- ODECL of a record in own local memory reads its header (07 R223). -/
theorem sylOdecl_header :
    sylOdecl d a named lock tag s.me s =
      if headRank x = 0 ∨ 4 < headRank x then retG s d 3
      else loadEls s.me s .own 16 ((List.range (headRank x)).map fun i => (0, ownLocal p + BitVec.ofNat 64 (16 + 16 * i))) fun ds s2 =>
        (shapeGranules s2 s.me.ctx (shapeOf x (ds.map (·.2)))).elim (retG s2 d 3) fun gs =>
          if !s2.objectOpen s.me.core gs then .park s .poll
          else retG (declare s2 s.me.ctx (if named then some tag else none) lock gs).2 d
            (declare s2 s.me.ctx (if named then some tag else none) lock gs).1 := by
  have hread := fun k => loadEls_ownLocal (s := s) (z := 16) (ps := [p]) .own k (by decide) (by decide) (by simpa using ⟨hc, hal⟩)
  rw [List.map_singleton, List.map_singleton, hx] at hread
  have htag : ¬((named && decide (tag = 15)) = true) := by
    rw [Bool.and_eq_true, decide_eq_true_eq]
    exact fun h => hn h.1 h.2
  unfold sylOdecl
  rw [ha, hread]
  refine (if_neg htag).trans (if_congr Iff.rfl rfl (congrArg (loadEls _ _ _ _ _) (funext₂ fun ds s2 => ?_)))
  simp only [List.head?_cons, Option.map_some, Option.getD_some]
  cases shapeGranules s2 s.me.ctx (shapeOf x (ds.map (·.2))) <;> rfl

/-- And then its dimensions, for the home (02 R58). -/
theorem sylOdecl_record (h1 : 1 ≤ headRank x) (h4 : headRank x ≤ 4) (hc' : cleanLocal s p (16 + 16 * headRank x)) :
    sylOdecl d a named lock tag s.me s =
      (shapeGranules s s.me.ctx (shapeOf x ((List.range (headRank x)).map fun i =>
        leNat (s.bytes (.mem (lkey s.me.core (p + 16 + 16 * i))) 16)))).elim (retG s d 3) fun gs =>
          if !s.objectOpen s.me.core gs then .park s .poll
          else retG (declare s s.me.ctx (if named then some tag else none) lock gs).2 d
            (declare s s.me.ctx (if named then some tag else none) lock gs).1 := by
  have hplaces : (List.range (headRank x)).map (fun i => (0, ownLocal p + BitVec.ofNat 64 (16 + 16 * i))) =
      ((List.range (headRank x)).map fun i => p + 16 + 16 * i).map fun q => ((0 : Nat), ownLocal q) := by
    simp [Function.comp_def, ownLocal_add, Nat.add_assoc]
  have hclean : ∀ q ∈ (List.range (headRank x)).map fun i => p + 16 + 16 * i, cleanLocal s q 16 ∧ q % 16 = 0 := by
    intro q hq
    obtain ⟨i, hi, rfl⟩ := List.mem_map.1 hq
    have hi := List.mem_range.1 hi
    rw [Nat.add_assoc]
    exact ⟨cleanLocal_part hc' (by omega), by omega⟩
  rw [sylOdecl_header ha hal hn hc hx, if_neg (by omega), hplaces, loadEls_ownLocal .own _ (by decide) (by decide) hclean]
  simp only [List.map_map, Function.comp_def]

end

theorem begin_bytes (s : State) (k n : Nat) : s.begin.bytes (.mem k) n = s.bytes (.mem k) n := by
  rw [State.bytes_mem, State.bytes_mem, State.begin_mem]

section
variable {s : State} {d a : R5} {named lock : Bool} {tag : BitVec 4} {p : Nat} (h : canIssue s) (ha : s.me.g a = ownLocal p)
  (hal : p % 16 = 0) (hn : named = true → tag ≠ 15)
include h ha hal hn

/-- ODECL of a record with no good rank answers status 3 (02 R58). -/
theorem odecl_badRank (hc : cleanLocal s p 16)
    (hr : headRank (leNat (s.bytes (.mem (lkey s.me.core p)) 16)) = 0 ∨ 4 < headRank (leNat (s.bytes (.mem (lkey s.me.core p)) 16))) :
    exec (.odecl d a named lock tag) s = .next (gives s d 3) := by
  have hs := sylOdecl_header (s := s.begin) (d := d) (lock := lock) (by rw [State.begin_me]; exact ha) hal hn
    (by rw [State.begin_eq]; exact hc) rfl
  rw [State.begin_me, begin_bytes, if_pos hr] at hs
  exact issueA_ok h (by rw [State.begin_me]; exact hs)

variable {x : Nat} (hx : leNat (s.bytes (.mem (lkey s.me.core p)) 16) = x) (h1 : 1 ≤ headRank x) (h4 : headRank x ≤ 4)
  (hc : cleanLocal s p (16 + 16 * headRank x)) {sh : Shape}
  (hsh : shapeOf x ((List.range (headRank x)).map fun i => leNat (s.bytes (.mem (lkey s.me.core (p + 16 + 16 * i))) 16)) = sh)
include hx h1 h4 hc hsh

omit h in
theorem sylOdecl_begin :
    sylOdecl d a named lock tag s.begin.me s.begin =
      (shapeGranules s.begin s.me.ctx sh).elim (retG s.begin d 3) fun gs =>
        if !s.begin.objectOpen s.me.core gs then .park s.begin .poll
        else retG (declare s.begin s.me.ctx (if named then some tag else none) lock gs).2 d
          (declare s.begin s.me.ctx (if named then some tag else none) lock gs).1 := by
  have hcb : cleanLocal s.begin p (16 + 16 * headRank x) := by rw [State.begin_eq]; exact hc
  have hs := sylOdecl_record (s := s.begin) (d := d) (lock := lock) (by rw [State.begin_me]; exact ha) hal hn
    (cleanLocal_part (i := 0) hcb (by omega)) (by rw [begin_bytes, State.begin_me]; exact hx) h1 h4 hcb
  simp only [begin_bytes, State.begin_me, hsh] at hs
  rw [State.begin_me]
  exact hs

/-- So does ODECL of a record whose granules are no good. -/
theorem odecl_badGranules (hgs : shapeGranules s.begin s.me.ctx sh = none) :
    exec (.odecl d a named lock tag) s = .next (gives s d 3) := by
  have hs := sylOdecl_begin (d := d) (lock := lock) ha hal hn hx h1 h4 hc hsh
  rw [hgs] at hs
  exact issueA_ok h hs

/-- Any other record goes to the home (07 R223). -/
theorem odecl_declares {gs : List Nat} (hgs : shapeGranules s.begin s.me.ctx sh = some gs) (ho : s.begin.objectOpen s.me.core gs = true) :
    let r := declare s.begin s.me.ctx (if named then some tag else none) lock gs
    exec (.odecl d a named lock tag) s = .next ((r.2.wg d r.1).complete s.begin.me .next) := by
  have hs := sylOdecl_begin (d := d) (lock := lock) ha hal hn hx h1 h4 hc hsh
  rw [hgs, Option.elim_some, ho] at hs
  exact issueA_ok h hs

end

/-- Settles O17: ODECL by the checks that its record passes, then by what the home finds; OFREE by the object that its operand names. -/
theorem declaringObjects : Obligations.DeclaringObjects := by
  unfold Obligations.DeclaringObjects
  intro s d a named lock tag h op
  refine ⟨?_, ?_, fun b hb hm ho => ?_, fun hb => ?_⟩
  · intro p ha hal hn hc hd sh
    exact ⟨odecl_badRank h ha hal hn hc, fun h1 h4 hc' => ⟨odecl_badGranules h ha hal hn rfl h1 h4 hc' rfl,
      fun gs hgs ho => ⟨_, odecl_declares h ha hal hn rfl h1 h4 hc' rfl hgs ho, rfl⟩⟩⟩
  · intro gs ids
    refine ⟨declare_full, declare_taken, fun hlen hg => ?_⟩
    obtain ⟨hslice, hfresh⟩ := newId_fresh hlen
    rw [declare_enters hlen hg]
    exact ⟨_, hslice, hfresh, rfl, _, mem_enterObj s _, rfl, rfl, rfl, rfl, rfl⟩
  · have hs := sylOfree_frees (s := s.begin) (a := a) (b := b) (by simpa using hb) (by simpa using hm) (by simpa using ho)
    obtain ⟨t, ht, hc, hleft⟩ := issueA_completesAs (i := .ofree a) rfl h hs (by
      rw [State.setHomes_me, State.resetKey_me, State.begin_me]
      exact .self)
    refine ⟨t, ht, hc, fun x hx => ?_⟩
    rw [hleft.homes, State.setHomes_homes] at hx
    simpa using (List.mem_filter.1 hx).2
  · have hs := sylOfree_invalid (s := s.begin) (a := a) (by simpa using hb)
    exact issueA_freeze h hs

end Sys2Proof.Machine
end

section
/-! The table of requests and states of an object, merges, evictions and invalidations (02 R57, R60, R65, R66, R94, R95). -/

namespace Sys2Proof.Machine

open Sys2Proof

/-! ## What a merge keeps -/

theorem foldElement_homes (s : State) (tag : BitVec 4) (pa : Nat) (ps : List Partial) : (s.foldElement tag pa ps).homes = s.homes := by
  unfold State.foldElement State.poisonAt
  extract_lets n cls v0 v s1
  split
  · split <;> rfl
  · rfl

/-- A fold changes what was collected alone, at the homes. -/
theorem foldMerge_homes (s : State) (k : CohKey) (tag : BitVec 4) :
    (s.foldMerge k tag).homes = { s.homes with collected := s.homes.collected.filter fun p => !decide (p.key = k) } := by
  unfold State.foldMerge
  extract_lets ps s1
  have hs1 : s1.homes = s.homes :=
    foldl_keeps (I := fun t => t.homes = s.homes) (fun t a ht => (foldElement_homes t tag a _).trans ht) _ rfl
  rw [State.setHomes_homes, hs1]

theorem collect_coh (s : State) (k : CohKey) (tag : BitVec 4) (cl : Nat) : (s.collect k tag cl).homes.coh = s.homes.coh := rfl

/-- A merge changes no object's state (02 R66). -/
theorem merge_coh (s : State) (k : CohKey) : (s.merge k).homes.coh = s.homes.coh := by
  unfold State.merge
  split
  case h_1 tag hs _ =>
    rw [foldMerge_homes]
    exact foldl_keeps (I := fun t => t.homes.coh = s.homes.coh) (fun t c ht => (collect_coh t k tag c).trans ht) hs rfl
  case h_2 => rfl

/-! ## The table of requests and states (02 R60) -/

/-- The state that a request of a cluster leaves. -/
def cohAfter (cl : Nat) (req : ObjReq) (c : Coh) : Coh :=
  match req, c with
  | .loadOwn, .i => .s [cl]
  | .loadOwn, .s l => .s (insertCl cl l)
  | .loadOwn, .o c => if c = cl then .o c else .s (insertCl cl [c])
  | .loadSi, .o c => if c = cl then .o c else .s [c]
  | .storeOwn, _ => .o cl
  | .storeWt, .o c => if c = cl then .o c else .i
  | .storeWt, .s l => if l.contains cl then .s [cl] else .i
  | .storeWt, _ => .i
  | .storeNc, .o c => if c = cl then .o c else .i
  | .storeNc, _ => .i
  | .atomic, .u t h => .u t h
  | .atomic, _ => .i
  | .update tag, .u t h => if t = tag then .u t (insertCl cl h) else .u tag [cl]
  | .update tag, x => if x = .o cl then x else .u tag [cl]
  | _, x => x

theorem coh_merge (s : State) (k k' : CohKey) : (s.merge k).coh k' = s.coh k' := State.coh_congr (merge_coh s k) k'

theorem request_coh (s : State) (cl pa : Nat) (req : ObjReq) :
    (s.request cl pa req).coh (s.keyAt pa) = cohAfter cl req (s.coh (s.keyAt pa)) := by
  cases req <;> cases hc : s.coh (s.keyAt pa) <;>
    simp only [State.request, cohAfter, hc, State.coh_setCoh, coh_merge]
  -- what is left asks whether the cluster is the owner, or the operator the same
  all_goals split_ifs
  all_goals simp_all only [State.coh_setCoh]

theorem setCoh_mem (s : State) (k : CohKey) (c : Coh) : (s.setCoh k c).mem = s.mem := rfl

theorem dropLines_mem (s : State) (k : CohKey) (f : Nat → Bool) : (s.dropLines k f).mem = s.mem := rfl

theorem cleanLines_mem (s : State) (k : CohKey) (cl : Nat) : (s.cleanLines k cl).mem = s.mem := rfl

/-- A request that meets no partial changes no byte of memory. -/
theorem request_mem {s : State} {pa : Nat} (h : ∀ x hs, s.coh (s.keyAt pa) ≠ .u x hs) (cl : Nat) (req : ObjReq) :
    (s.request cl pa req).mem = s.mem := by
  cases hc : s.coh (s.keyAt pa) with
  | u x hs => exact absurd hc (h x hs)
  | _ =>
    cases req <;> simp only [State.request, hc, apply_ite State.mem, setCoh_mem, dropLines_mem, cleanLines_mem, ite_self]

/-- It is served at the homes. -/
theorem request_strands (s : State) (cl pa : Nat) (req : ObjReq) :
    (s.request cl pa req).others = s.others ∧ (s.request cl pa req).me = s.me := by
  have ho := congrArg State.others (s.agents_request cl pa req)
  have hm := congrArg State.me (s.agents_request cl pa req)
  exact ⟨ho, hm⟩

/-! ## Merges -/

theorem poisonAt_mem (s : State) (g : Nat) : (s.poisonAt g).mem = s.mem := by
  rw [State.poisonAt, apply_ite State.mem, ite_self]

/-- The fold of one partial into the home's value of its element (02 R66). -/
theorem foldElement_single {s : State} (hm : s.memWf) (tag : BitVec 4) (p : Partial) :
    leNat ((s.foldElement tag p.pa [p]).bytes (.mem p.pa) (uBytes tag)) =
        uNarrow tag (uCombine tag false (uWiden tag (s.loadNat (.mem p.pa) (uBytes tag))) p.val.toNat) % 256 ^ uBytes tag ∧
      sameMemOutside s (s.foldElement tag p.pa [p]) p.pa (uBytes tag) := by
  refine written_word hm ?_
  have hf : (s.foldElement tag p.pa [p]).mem = (s.putKeep p.pa (natLE (uBytes tag)
      (uNarrow tag (uCombine tag false (uWiden tag (s.loadNat (.mem p.pa) (uBytes tag))) p.val.toNat)))).mem := by
    simp only [State.foldElement, List.foldl_cons, List.foldl_nil, insertCl, decide_true, List.filter_cons_of_pos, List.filter_nil,
      apply_ite State.mem, poisonAt_mem, ite_self]
  rw [hf]
  rfl

/-- What is folded when one partial was collected. -/
theorem foldMerge_single {s : State} {k : CohKey} {p : Partial} (tag : BitVec 4)
    (hp : s.homes.collected.filter (fun p => decide (p.key = k)) = [p]) : (s.foldMerge k tag).mem = (s.foldElement tag p.pa [p]).mem := by
  unfold State.foldMerge
  rw [hp, State.setHomes_mem]
  simp only [partAddrs, insertCl, List.foldl_cons, List.foldl_nil, decide_true, List.filter_cons_of_pos, List.filter_nil]

/-! ## Updates in the owner's cache -/

/-- An element of a value `old` after an update by `x` (02 R61, R62). -/
def updatedValue (tag : BitVec 4) (old x : Nat) : Nat := uNarrow tag (uCombine tag true (uWiden tag old) (uWiden tag x))

theorem markLine_eq (s : State) (cl pa : Nat) (m : BitVec 16) (dirty si : Bool) :
    ∃ l, s.markLine cl pa m dirty si = s.setHomes fun h => { h with lines := l } := by
  unfold State.markLine
  extract_lets line now
  rw [State.setHomes]
  split
  · exact ⟨_, rfl⟩
  · exact ⟨_, rfl⟩

theorem ownUpdate_eq (s : State) (tag : BitVec 4) (cl : Nat) (e : Nat × Nat) : ∃ l, s.ownUpdate tag cl e =
    (s.putKeep e.1 (natLE (uBytes tag) (updatedValue tag (leNat (s.bytes (.mem e.1) (uBytes tag))) e.2))).setHomes
      fun h => { h with lines := l } := markLine_eq _ _ _ _ _ _

/-- The updates of a list of elements in the owner's cache. -/
def State.ownUpdates (s : State) (tag : BitVec 4) (cl : Nat) (es : List (Nat × Nat)) : State :=
  es.foldl (fun s e => s.ownUpdate tag cl e) s

/-- They leave the strand and every object's state. -/
theorem ownUpdates_keep (s : State) (tag : BitVec 4) (cl : Nat) (es : List (Nat × Nat)) :
    (s.ownUpdates tag cl es).me = s.me ∧ (s.ownUpdates tag cl es).homes.coh = s.homes.coh := by
  refine foldl_keeps (I := fun t => t.me = s.me ∧ t.homes.coh = s.homes.coh) (fun t e ht => ?_) es ⟨rfl, rfl⟩
  obtain ⟨l, hl⟩ := ownUpdate_eq t tag cl e
  rw [hl]
  exact ht

theorem bytes_congr {s t : State} {k n : Nat} (h : ∀ a, k ≤ a → a < k + n → mget t.mem a = mget s.mem a) :
    t.bytes (.mem k) n = s.bytes (.mem k) n := by
  rw [State.bytes_mem, State.bytes_mem, mgetN_eq_map, mgetN_eq_map]
  exact List.map_congr_left fun i hi => h _ (by omega) (by have := List.mem_range.1 hi; omega)

theorem elems_apart {i j : Nat} (z : Nat) (h : i ≠ j) : i * z + z ≤ j * z ∨ j * z + z ≤ i * z := by
  rcases Nat.lt_or_gt_of_ne h with h | h
  · exact .inl (by rw [← Nat.succ_mul]; exact Nat.mul_le_mul_right z h)
  · exact .inr (by rw [← Nat.succ_mul]; exact Nat.mul_le_mul_right z h)

/-- The updates of elements of one line: each takes its own, and nothing else changes (02 R60). -/
theorem ownUpdates_mem {tag : BitVec 4} {cl pa : Nat} (x : Nat → Nat) : ∀ {act : List Nat} {s t : State}, act.Nodup → s.memWf →
    t.mem = (s.ownUpdates tag cl (act.map fun i => (pa + i * uBytes tag, x i))).mem →
    (∀ a, (∀ i ∈ act, a < pa + i * uBytes tag ∨ pa + i * uBytes tag + uBytes tag ≤ a) → mget t.mem a = mget s.mem a) ∧
      ∀ i ∈ act, leNat (t.bytes (.mem (pa + i * uBytes tag)) (uBytes tag)) =
        updatedValue tag (leNat (s.bytes (.mem (pa + i * uBytes tag)) (uBytes tag))) (x i) % 256 ^ uBytes tag
  | [], s, t, _, _, ht => ⟨fun _ _ => by rw [ht]; rfl, nofun⟩
  | i :: act, s, t, hd, hm, ht => by
    obtain ⟨hnot, hd⟩ := List.nodup_cons.1 hd
    obtain ⟨l, hl⟩ := ownUpdate_eq s tag cl (pa + i * uBytes tag, x i)
    rw [List.map_cons, State.ownUpdates, List.foldl_cons, ← State.ownUpdates] at ht
    generalize s.ownUpdate tag cl (pa + i * uBytes tag, x i) = s1 at ht hl
    have hmem : s1.mem = msetN s.mem (pa + i * uBytes tag)
        (natLE (uBytes tag) (updatedValue tag (leNat (s.bytes (.mem (pa + i * uBytes tag)) (uBytes tag))) (x i))) := by rw [hl]; rfl
    obtain ⟨hown, hout⟩ := written_word hm hmem
    have hm1 : s1.memWf := by rw [State.memWf, hmem]; exact wf_msetN hm
    obtain ⟨hrest, hval⟩ := ownUpdates_mem x hd hm1 ht
    refine ⟨fun a ha => ?_, fun j hj => ?_⟩
    · exact (hrest a fun j hj => ha j (List.mem_cons_of_mem _ hj)).trans (hout a (ha i List.mem_cons_self))
    · rcases List.mem_cons.1 hj with rfl | hj
      · rw [bytes_congr fun a ha ha' => hrest a fun k hk => ?_, hown]
        have := elems_apart (uBytes tag) (show k ≠ j from fun h => hnot (h ▸ hk))
        omega
      · rw [hval j hj, bytes_congr fun a ha ha' => hout a ?_]
        have := elems_apart (uBytes tag) (show i ≠ j from fun h => hnot (h ▸ hj))
        omega

theorem updateLine_owner {s : State} {cl pa : Nat} (h : s.coh (s.keyAt pa) = .o cl) (tag : BitVec 4) (es : List (Nat × Nat)) :
    s.updateLine tag cl pa es = s.ownUpdates tag cl es := by
  cases es with
  | nil => rfl
  | cons e es => simp [State.updateLine, h, State.ownUpdates]

/-- An update instruction of the owner's cluster completes with its updates in the cluster's cache (02 R60, 07 R222). -/
theorem ownerUpdate_completes {s : State} {i : Instr} {tag : BitVec 4} {z pa : Nat} {va : Word} {l : Loc} {rg : Region}
    {f : Nat → List (Nat × Nat)} {g : Syl} (hi : exec i s = issueA g s) (h : canIssue s)
    (hg : g s.begin.me s.begin = updateAt s.begin.me s.begin tag z va f) (ht : tag ≠ 15)
    (hc : check s.begin s.begin.me Acc.update z 0 va = .ok l rg (some pa)) (hl : uLocked s.begin tag pa = false)
    (hp : s.begin.linePosted (.mem pa) = false) (ho : s.coh (s.keyAt pa) = .o (cacheOf s.me.core)) :
    ∃ u t : State, u.mem = s.mem ∧ exec i s = .next t ∧ completedAs s t ∧ t.coh (s.keyAt pa) = .o (cacheOf s.me.core) ∧
      t.mem = (u.ownUpdates tag (cacheOf s.me.core) (f pa)).mem := by
  have hhere : uHere s.begin tag (cacheOf s.begin.me.core) pa = true := by
    have hcoh : s.begin.coh (s.begin.keyAt pa) = .o (cacheOf s.me.core) := by rw [State.begin_eq]; exact ho
    unfold uHere
    rw [hcoh, State.begin_me]
    exact decide_eq_true rfl
  have hnow : updatesAtOnce s.begin tag va pa := by
    unfold updatesAtOnce
    intro e
    rw [if_pos hhere]
    exact hp
  have hex := update_completes hi h hg ht hc hl hnow
  obtain ⟨tl, wk, hu⟩ := noteUse_eq s.begin { lane := 0, va := va, loc := .mem pa, rg := .plain, pa := some pa }
  have hsame : ∀ u : State, u = { s.begin with tlb := tl, walks := wk } → u.me = s.me ∧ u.homes = s.homes ∧ u.mem = s.mem := by
    rintro u rfl
    rw [State.begin_eq]
    exact ⟨rfl, rfl, rfl⟩
  generalize s.begin.noteUse { lane := 0, va := va, loc := .mem pa, rg := .plain, pa := some pa } = u at hex hu
  obtain ⟨hme, hhomes, hmem⟩ := hsame u hu
  have hcoh : u.coh (u.keyAt pa) = .o (cacheOf s.me.core) := by
    rw [State.keyAt, hhomes, ← State.keyAt, State.coh_congr (congrArg Homes.coh hhomes)]
    exact ho
  rw [updateLine_owner hcoh] at hex
  obtain ⟨hme', hcoh'⟩ := ownUpdates_keep u tag (cacheOf s.me.core) (f pa)
  have hleft := leftAs_complete (u.ownUpdates tag (cacheOf s.me.core) (f pa)) s.begin.me
  have hdone := completedAs_next (s := s) (s1 := u.ownUpdates tag (cacheOf s.me.core) (f pa)) (by rw [hme', hme]; exact .self)
  exact ⟨u, _, hmem, hex, hdone,
    (State.coh_congr ((congrArg Homes.coh hleft.homes).trans (hcoh'.trans (congrArg Homes.coh hhomes))) _).trans ho, hleft.mem⟩

/-! ## Declaring and freeing -/

theorem State.coh_setCoh_ne (s : State) {k k' : CohKey} (h : k' ≠ k) (c : Coh) : (s.setCoh k c).coh k' = s.coh k' := by
  have hl : (s.setCoh k c).homes.coh = if c = .i then s.homes.coh.filter fun p => !decide (p.1 = k)
    else (k, c) :: s.homes.coh.filter fun p => !decide (p.1 = k) := rfl
  have hrest : (s.homes.coh.filter fun p => !decide (p.1 = k)).find? (fun p => decide (p.1 = k')) =
      s.homes.coh.find? fun p => decide (p.1 = k') := by
    rw [List.find?_filter]
    congr 1
    funext p
    by_cases hp : p.1 = k' <;> simp [hp, h]
  rw [State.coh, State.coh, hl]
  split_ifs
  · rw [hrest]
  · rw [List.find?_cons_of_neg (by simpa using h.symm), hrest]

/-- Bringing an object to state I leaves the others (07 R223). -/
theorem resetKey_coh (s : State) (k k' : CohKey) : (s.resetKey k).coh k' = if k' = k then .i else s.coh k' := by
  have hset : ∃ u : State, u.homes.coh = s.homes.coh ∧ s.resetKey k = u.setCoh k .i := by
    unfold State.resetKey
    split
    · exact ⟨(s.merge k).releaseHolders k, merge_coh s k, rfl⟩
    · exact ⟨s.dropLines k fun _ => false, rfl, rfl⟩
  obtain ⟨u, hu, hs⟩ := hset
  rw [hs]
  split_ifs with h
  · rw [h, u.coh_setCoh]
  · rw [u.coh_setCoh_ne h, State.coh_congr hu]

theorem foldl_resetKey_coh {g : Nat} : ∀ {gs : List Nat} {s : State}, (g ∈ gs ∨ s.coh (.gran g) = .i) →
    (gs.foldl (fun s g => s.resetKey (.gran g)) s).coh (.gran g) = .i
  | [], s, h => h.resolve_left (List.not_mem_nil)
  | g' :: gs, s, h => foldl_resetKey_coh (gs := gs) (s := s.resetKey (.gran g')) (by
      rw [resetKey_coh]
      rcases h with h | h
      · rcases List.mem_cons.1 h with rfl | h
        · exact .inr (if_pos rfl)
        · exact .inl h
      · exact .inr (by rw [h, ite_self]))

/-- The granules of an object that is entered with no operator are in state I. -/
theorem enterObj_coh (s : State) {b : Obj} (hop : b.op = none) {g : Nat} (hg : g ∈ b.granules) : (s.enterObj b).coh (.gran g) = .i := by
  unfold State.enterObj
  rw [hop]
  exact foldl_resetKey_coh (.inl hg)

theorem enterObj_me (s : State) (b : Obj) : (s.enterObj b).me = s.me := by
  have hf : (b.granules.foldl (fun s g => s.resetKey (.gran g)) s).me = s.me :=
    foldl_keeps (I := fun t => t.me = s.me) (fun t g ht => (t.resetKey_me (.gran g)).trans ht) _ rfl
  unfold State.enterObj
  cases b.op <;> exact hf

/-! ## The obligation -/

section
variable {s : State} {pa cluster line : Nat} {tag : BitVec 4} {hs : List Nat}

theorem collectRequest_collects (hu : s.coh (s.keyAt pa) = .u tag hs) (hc : hs.contains cluster = true) :
    exec (.collectRequest pa cluster) s = .next (s.collect (s.keyAt pa) tag cluster) := by
  show execCollectRequest pa cluster s = _
  simp only [execCollectRequest, hu, hc, if_true, done]

/-- What was collected of a holder starts again from the identity (02 R66 step 1). -/
theorem collect_restarts (s : State) (k : CohKey) (tag : BitVec 4) (cl : Nat) :
    ∀ p ∈ (s.collect k tag cl).homes.parts, p.key = k → p.cluster = cl → p.val = BitVec.ofNat 64 (uIdentity tag) := by
  intro p hp hk hc
  obtain ⟨q, -, rfl⟩ := List.mem_map.1 hp
  split at hk <;> rename_i hq
  · rw [if_pos hq]
  · rw [if_neg hq] at hc
    exact absurd ⟨hk, hc⟩ hq

theorem mergeFold_folds (hu : s.coh (s.keyAt pa) = .u tag hs) : exec (.mergeFold pa) s = .next (s.foldMerge (s.keyAt pa) tag) := by
  show execMergeFold pa s = _
  simp only [execMergeFold, hu, done]

/-- The lines that stay where those of one place go. -/
theorem mem_lines_without (ls : List Line) (cluster line : Nat) (l : Line) :
    (l ∈ ls.filter fun l => !isLine cluster line l) ↔ l ∈ ls ∧ ¬(l.cluster = cluster ∧ l.line = line) := by
  simp only [List.mem_filter, isLine, Bool.not_eq_true', Bool.and_eq_false_iff, decide_eq_false_iff_not]
  tauto

theorem partialEviction_parks (s : State) (cluster line : Nat) :
    ∃ t, exec (.partialEviction cluster line) s = .next t ∧ t.mem = s.mem ∧ t.homes.coh = s.homes.coh ∧
      t.homes.parts.map (·.val) = s.homes.parts.map (·.val) ∧
      ∀ p ∈ t.homes.parts, p.cluster = cluster → p.pa / 64 = line → p.parked = true := by
  refine ⟨_, rfl, rfl, rfl, ?_, fun p hp hc hl => ?_⟩
  · rw [State.setHomes_homes, List.map_map]
    exact List.map_congr_left fun p _ => by rw [Function.comp_apply]; split <;> rfl
  · obtain ⟨q, -, rfl⟩ := List.mem_map.1 hp
    split at hc <;> rename_i hq
    · rw [if_pos hq]
    · rw [if_neg hq] at hl
      exact absurd ⟨hc, hl⟩ hq

theorem invalidationReceive_cleans (s : State) (cluster line : Nat) :
    ∃ t, exec (.invalidationReceive cluster line true) s = .next t ∧ t.mem = s.mem ∧ t.homes.coh = s.homes.coh ∧
      ∀ l ∈ t.homes.lines, l.cluster = cluster → l.line = line → l.dirty = 0 := by
  refine ⟨_, rfl, rfl, rfl, fun l hm hc hl => ?_⟩
  obtain ⟨q, -, rfl⟩ := List.mem_map.1 hm
  split at hc <;> rename_i hq
  · rw [if_pos hq]
  · rw [if_neg hq] at hl
    exact absurd (by rw [isLine, hc, hl]; simp) hq

end

/-- The checks of an atomic at plain memory, and the translation it notes. -/
theorem atomicAt_plain {s : State} {a : Acc} {z pa : Nat} {va : Word} (hc : check s s.me a z 0 va = .ok (.mem pa) .plain (some pa))
    (haw : s.away { lane := 0, va := va, loc := .mem pa, rg := .plain, pa := some pa } = false) (hp : s.linePosted (.mem pa) = false)
    (hh : s.partiesHeld { lane := 0, va := va, loc := .mem pa, rg := .plain, pa := some pa } .atomic = false) (k : El → State → SylOut) :
    atomicAt s.me s a z va k = k { lane := 0, va := va, loc := .mem pa, rg := .plain, pa := some pa }
      (s.noteUse { lane := 0, va := va, loc := .mem pa, rg := .plain, pa := some pa }) := by
  simp [atomicAt, hc, haw, hp, hh]

/-- Settles O39: requests by their table, merges and updates by what they write, evictions by the lines that stay. -/
theorem objectStatesMergesAndEvictions : Obligations.ObjectStatesMergesAndEvictions := by
  unfold Obligations.ObjectStatesMergesAndEvictions
  refine ⟨?_, ?_, ?_⟩
  · intro s cl pa req k
    obtain ⟨ho, hm⟩ := request_strands s cl pa req
    refine ⟨_, rfl, (request_coh s cl pa req).trans ?_, fun h => request_mem h cl req, ho, hm⟩
    cases req <;> cases s.coh k <;> rfl
  · intro s cluster line pa k
    refine ⟨fun tag hs hu hc => ⟨_, collectRequest_collects hu hc, rfl, State.coh_congr (collect_coh s k tag cluster) k, rfl,
        collect_restarts s k tag cluster⟩, fun tag hs hu => ⟨_, mergeFold_folds hu, ?_, ?_, fun p hm hp => ?_⟩,
      partialEviction_parks s cluster line, ⟨_, rfl, rfl, rfl, fun l => ?_⟩, ⟨_, rfl, rfl, rfl, mem_lines_without s.homes.lines cluster line⟩,
      ⟨_, rfl, rfl, rfl, mem_lines_without s.homes.lines cluster line⟩, invalidationReceive_cleans s cluster line⟩
    · exact State.coh_congr (by rw [foldMerge_homes]) k
    · rw [foldMerge_homes]
      exact fun p hp => by simpa using (List.mem_filter.1 hp).2
    · obtain ⟨hval, hout⟩ := foldElement_single hm tag p
      have hmem := foldMerge_single (s := s) (k := k) tag hp
      exact ⟨by rw [State.bytes_mem, hmem, ← State.bytes_mem]; exact hval, fun a ha => by rw [hmem]; exact hout a ha⟩
    · simp only [State.setHomes_homes, List.mem_filter, isLine, Bool.not_eq_true', Bool.and_eq_false_iff, decide_eq_false_iff_not]
      tauto
  · intro s d a b v k w op tag l rg pa h key cl
    refine ⟨?_, ?_, ?_, ?_⟩
    · intro hc e haw hp hh hn hq hheld hu hpo i hi
      have hat := atomicAt_plain (s := s.begin) hc haw hp hh
      obtain ⟨tl, wk, hnote⟩ := noteUse_eq s.begin e
      have hread : ∃ c t l, s.begin.noteUse e = { s with sched := c, tlb := t, walks := l } :=
        ⟨s.noteStart.sched, tl, wk, by rw [hnote, State.begin_eq]⟩
      rw [State.begin_me] at hat
      have hpart : ∀ q, cohPa e = some q → ∀ x hs, s.coh (s.keyAt q) ≠ .u x hs := fun q hq => by
        cases Option.some.inj hq
        exact hu
      have hall : ∀ {i : Instr} {fenced : Bool} {f : Strand → Nat → Option Nat}, exec i s = issueA (atomic d a w fenced f) s →
          ∃ t, exec i s = .next t ∧ completedWith s t d (BitVec.ofNat 64 (leNat (s.bytes (.mem pa) (wBytes w)))) ∧ t.coh key = .i := by
        intro i fenced f hi
        obtain ⟨t, ht, hw, -, -, hcoh⟩ := atomic_completes hi h hn hread hat rfl rfl hpo hq hheld hpart
        rw [← State.bytes_mem] at hw
        exact ⟨t, ht, hw, hcoh pa rfl⟩
      rcases List.mem_cons.1 hi with rfl | hi
      · exact hall rfl
      · cases List.mem_singleton.1 hi
        exact hall rfl
    · intro ht hl hp ho hm z
      constructor
      · intro hc
        have hs : sylUred a b tag s.begin.me s.begin = updateAt s.begin.me s.begin tag z (s.me.g a) fun p =>
            [(p, (s.me.g b).toNat % 2 ^ (8 * z))] := by rw [State.begin_me, sylUred, if_neg ht]
        obtain ⟨u, t, hu, hex, hdone, hcoh, hmem⟩ := ownerUpdate_completes (i := .ured a b tag) rfl h hs ht hc hl hp ho
        have hmu : u.memWf := by rw [State.memWf, hu]; exact hm
        obtain ⟨hout, hval⟩ := ownUpdates_mem (act := [0]) (fun _ => (s.me.g b).toNat % 2 ^ (8 * z)) (List.nodup_singleton 0) hmu
          (by simpa using hmem)
        have hval := hval 0 List.mem_cons_self
        rw [Nat.zero_mul, Nat.add_zero] at hval
        refine ⟨t, hex, hdone, hcoh, fun x hx => (hout x fun i hi => ?_).trans (by rw [hu]), ?_⟩
        · rw [List.mem_singleton.1 hi, Nat.zero_mul]
          exact hx
        · rw [hval, State.bytes_mem, hu, ← State.bytes_mem]
          rfl
      · intro hc
        have hs : sylUredv a v k tag s.begin.me s.begin = updateAt s.begin.me s.begin tag 64 (s.me.g a) fun p =>
            ((List.range (64 / z)).filter (s.me.active k)).map fun i => (p + i * z, laneOf (8 * z) (s.me.vr v) i) := by
          rw [State.begin_me]; rfl
        obtain ⟨u, t, hu, hex, hdone, hcoh, hmem⟩ := ownerUpdate_completes (i := .uredv a v k tag) rfl h hs ht hc hl hp ho
        have hmu : u.memWf := by rw [State.memWf, hu]; exact hm
        obtain ⟨hout, hval⟩ := ownUpdates_mem _ (List.nodup_range.filter _) hmu hmem
        have hlt : ∀ {i}, i ∈ (List.range (64 / z)).filter (s.me.active k) → i < 64 / z :=
          fun hi => List.mem_range.1 (List.mem_filter.1 hi).1
        refine ⟨t, hex, hdone, hcoh, fun _ => ⟨fun x hx => (hout x fun i hi => ?_).trans (by rw [hu]), fun j hj => ?_⟩⟩
        · have hend : i * z + z ≤ 64 := by
            rw [← Nat.succ_mul]
            exact (Nat.mul_le_mul_right z (hlt hi)).trans (Nat.div_mul_le_self 64 z)
          change x < pa + i * z ∨ pa + i * z + z ≤ x
          omega
        · have hold : ∀ q, leNat (u.bytes (.mem q) z) = leNat (s.bytes (.mem q) z) := fun q => by
            rw [State.bytes_mem, hu, ← State.bytes_mem]
          split_ifs with hact
          · rw [hval j (List.mem_filter.2 ⟨List.mem_range.2 hj, hact⟩), hold]
            rfl
          · rw [← hold, bytes_congr (s := u) (t := t) fun x hx hx' => hout x fun i hi => ?_]
            have hne : i ≠ j := fun he => hact (he ▸ (List.mem_filter.1 hi).2)
            have := elems_apart z hne
            change x < pa + i * z ∨ pa + i * z + z ≤ x
            omega
    · intro o ho hz hopen
      have hs := sylOfree_frees (s := s.begin) (a := a) (b := o) (by simpa using ho) (by simpa using hz) (by simpa using hopen)
      obtain ⟨t, ht, hc, hleft⟩ := issueA_completesAs (i := .ofree a) rfl h hs (by
        rw [State.setHomes_me, State.resetKey_me, State.begin_me]
        exact .self)
      refine ⟨t, ht, hc, (State.coh_congr (congrArg Homes.coh hleft.homes) _).trans ?_⟩
      exact (resetKey_coh s.begin (.obj o.id) (.obj o.id)).trans (if_pos rfl)
    · intro p gs ha hal x dims h1 h4 hc hsh hlen hg hopen
      have hlen' : (s.begin.objIds (homeSlice (gs.headD 0 * 256))).length < 4096 := by rw [State.begin_eq]; exact hlen
      have hg' : ∀ g ∈ gs, ∀ b ∈ s.begin.homes.objs, g ∉ b.granules := by rw [State.begin_homes]; exact hg
      have hex := odecl_declares (d := d) (named := false) (lock := w) (tag := tag) h ha hal nofun rfl h1 h4 hc rfl hsh hopen
      simp only [declare_enters hlen' hg'] at hex
      generalize hb : Obj.mk (newId s.begin (homeSlice (gs.headD 0 * 256))) s.me.ctx (if false = true then some tag else none) w gs = o at hex
      generalize BitVec.ofNat 64 (newId s.begin (homeSlice (gs.headD 0 * 256)) * 256) = v at hex
      have hdone := completedWith_next (s := s) (s1 := (s.begin.enterObj o).wg d v) (x := (s.begin.enterObj o).me) (d := d) rfl (by
        rw [enterObj_me, State.begin_me]; exact .self)
      have hleft := leftAs_complete ((s.begin.enterObj o).wg d v) s.begin.me
      refine ⟨_, hex, hdone.1, fun g hm => ?_, o, ?_, by rw [← hb], by rw [← hb]⟩
      · exact (State.coh_congr (congrArg Homes.coh hleft.homes) _).trans (enterObj_coh s.begin (by rw [← hb]; rfl) (by rw [← hb]; exact hm))
      · rw [hleft.homes]
        exact mem_enterObj s.begin o

end Sys2Proof.Machine
end

section
/-! Engines: two commands of one handle, of which a pass of the first changes both (09 R282). -/

namespace Sys2Proof.Machine

open Sys2Proof

/-- A piece of a copy that has its place, and nothing to write. -/
def emptyPiece : Piece := { engine := 0, placed := true, dst := [], vals := [] }

/-- A running copy of handle 5 with some such pieces. -/
def copyOf (n : Nat) : Cmd :=
  { uid := 5, key := 1, level := .user, ctx := 0, launch := none, file := none, word := BitVec.ofNat 256 (2 * 2 ^ 248), engine := 0,
    st := .running, refs := [], pos := 0, status := 0, aux := 0, merged := [], holdEnd := 0, panel := [], src := [], pins := [], dst := [],
    pieces := List.replicate n emptyPiece, due := [], signalled := false, told := false }

/-- A machine in which two running copies have the same handle: one has one piece left, the other two. -/
def twinState : State := { State.reset with cmds := [copyOf 1, copyOf 2] }

/-- The pieces that commands have left after a step. -/
def piecesAfter : Out → List (List Piece)
  | .next t => t.cmds.map (·.pieces)
  | _ => []

/-- Each of the two loses its own first piece. -/
theorem piecesAfter_tcopy : piecesAfter (exec (.tcopy 5) twinState) = [[], [emptyPiece]] := by decide

/-- Refutes O44: nothing in the statement keeps a command's handle its own. Where two running copies share one, the pass that writes a piece of
the first takes that piece from each of them, and does not leave the second with what the first has left. -/
theorem not_enginesRunCommands : ¬ Obligations.EnginesRunCommands := by
  unfold Obligations.EnginesRunCommands
  intro h
  obtain ⟨-, -, -, -, -, -, -, -, hrunning⟩ := h twinState 5 (copyOf 1) rfl
  obtain ⟨-, -, hpieces⟩ := (hrunning rfl).1 (.tcopy 5) List.mem_cons_self
  have hex := (hpieces (by decide)).2.1 emptyPiece (by decide) (by decide)
  have hleft := congrArg piecesAfter hex
  rw [piecesAfter_tcopy] at hleft
  exact absurd hleft (by decide)

end Sys2Proof.Machine
end
